-- ==== Sys2Proof/Word.lean ====
section
/-! DEFINITION. The word types of the T6440 (R50, R52, R56, R84, R105). -/

namespace Sys2Proof

/-- A byte. -/
abbrev Byte := BitVec 8
/-- The 40-bit word (R50). -/
abbrev Word := BitVec 40
/-- A D register, held at its Conjunction width of 80 bits (R52, R84). -/
abbrev DWord := BitVec 80
/-- An X register, held at its Conjunction width of 176 bits (R56, R84). -/
abbrev XWord := BitVec 176
/-- A context ID (R105). -/
abbrev Cid := BitVec 12
/-- A 4-bit register field (R119). -/
abbrev RegNo := Fin 16

/-- The addressing mode of an M-format instruction (R131). -/
inductive AMode where
  /-- 0b00: A[AB] + DISP22. -/
  | disp (d : BitVec 22)
  /-- 0b01: A[AB] + A[AX] × scale + DISP16. -/
  | indexed (ax : RegNo) (sc : BitVec 2) (d : BitVec 16)
  /-- 0b10: A[AB], then A[AB] := A[AB] + DISP22. -/
  | post (d : BitVec 22)
  /-- 0b11: A[AB] + DISP22, then A[AB] := EA. -/
  | pre (d : BitVec 22)
deriving DecidableEq, Repr

/-- Who makes an access to control space: a context at a privilege, the host, or another agent of the
device (R27, R41). -/
inductive Requester where
  | ctx (cid : Cid) (pl : BitVec 2)
  | host
  | engine
deriving DecidableEq, Repr

end Sys2Proof
end

