-- ==== Sys2Proof/Syntax.lean ====
section
/-! DEFINITION. The commands: one constructor per row of spec/opcode_table.json, the instructions first,
with the row's operands. An instruction row carries the context `c` that issues it and its fields; the fields an
instruction does not use are zero by R120 and are not operands. -/

namespace Sys2Proof

/-- The count operand of a shift or rotate (R152): AUX in the immediate forms, D[RB][7:0] in the
register forms. -/
inductive ShiftCount where
  | imm (aux : Byte)
  | reg (rb : RegNo)
deriving DecidableEq, Repr

/-- The count operand of LOOP and REP (R224): CNT12, or D[RS]. -/
inductive CountSrc where
  | imm (n : BitVec 12)
  | reg (rs : RegNo)
deriving DecidableEq, Repr

/-- What an ECC-protected read finds (R392, R630, R637). -/
inductive EccErr where
  | none | corrected | uncorrectable
deriving DecidableEq, Repr

/-- A programmed page of a cartridge (R440–R442): its position number, its 16,384 data bytes, its 32 metadata
bytes, the spare bytes after them, and the bit errors each of its 8 codewords reads with. -/
structure NandPage where
  pos : Nat
  data : List Byte
  info : List Byte
  spare : List Byte
  errs : List Nat
deriving DecidableEq, Repr

/-- A journal cartridge as the slot finds it (R440, R461): its identity with the element's public key and vendor
certificate, its life data, its factory-marked and retired blocks (chip select, block), and its programmed pages by
2048 × stripe + 1024 × chip select + page. -/
structure Cartridge where
  id : BitVec 64
  model : BitVec 16
  capacity : BitVec 16
  rated : Nat
  retention : BitVec 16
  date : BitVec 32
  pub : BitVec 512
  cert : BitVec 512
  erases : Nat
  grown : Nat
  closed : Bool
  blocks : Nat
  ppb : Nat
  spare : Nat
  pageBytes : Nat
  factory : List (Nat × Nat)
  retired : List (Nat × Nat)
  pages : List (Nat × NandPage)
deriving DecidableEq, Repr

/-- How the I2C exchange of an identification goes (R461, R462): it fails, or the random source gave a challenge and the
element answered with a signature. -/
inductive IdentOutcome where
  | i2cFails
  | response (challenge : BitVec 256) (sig : BitVec 512)
deriving DecidableEq, Repr

/-- What ends a run of received bytes (R530, R539): nothing yet, a short or zero-length USB packet, or a UART character
error. -/
inductive RxEnd where
  | more | packet | charError
deriving DecidableEq, Repr

/-- How a USB OUT transaction ends (R536, R538). -/
inductive UsbOut where
  | done | stall | error
deriving DecidableEq, Repr

/-- What a poll of an IN pipe brings (R536, R538); `short` marks a short or zero-length packet. -/
inductive UsbIn where
  | nak | stall | error
  | data (bytes : List Byte) (short : Bool)
deriving DecidableEq, Repr

/-- How a control request goes (R537): not ended yet, a transaction error, a STALL, or done with its IN data. -/
inductive CtlOut where
  | pending | error | stall
  | ok (data : List Byte)
deriving DecidableEq, Repr

/-- A CAN frame (R541, R542): identifier, flags, data length and data; a remote frame carries no data. -/
structure CanFrame where
  id : BitVec 29
  ide : Bool
  fdf : Bool
  brs : Bool
  esi : Bool
  rtr : Bool
  len : BitVec 7
  data : List Byte
deriving DecidableEq, Repr

/-- A CAN reception: a frame, or an error that adds 1 or 8 to the receive error counter (ISO 11898-1). -/
inductive CanRx where
  | frame (f : CanFrame)
  | error (by8 : Bool)
deriving DecidableEq, Repr

/-- A CAN transmission: acknowledged, arbitration lost, or an error. -/
inductive CanTx where
  | sent | lost | error
deriving DecidableEq, Repr

/-- A packet of the Ixlink (R568). -/
structure IxPkt where
  type : Nat
  src : Nat
  dst : Nat
  vc : Nat
  seq : BitVec 12
  hops : Nat
  bcast : Bool
  tag : Nat
  args : List Byte
  payload : List Byte
deriving DecidableEq, Repr

/-- What the peer says of itself in CONFIG (R567), and the link delay measured, in ns. -/
structure IxPeer where
  version : Nat
  site : Nat
  id : Nat
  port : Nat
  delay : Nat
deriving DecidableEq, Repr

/-- How an outbound PCIe request completes (R565). -/
inductive PciCpl where
  | ok (data : List Byte)
  | ur | ca | timeout
deriving DecidableEq, Repr

/-- The commands of the T6440. -/
inductive Instr where
  /-- LDB (R134). Loads one byte, zero-extended. -/
  | ldb (c : Cid) (rt : RegNo) (ab : RegNo) (m : AMode) (miss : Bool)
  /-- LDBS (R134). Loads one byte, sign-extended. -/
  | ldbs (c : Cid) (rt : RegNo) (ab : RegNo) (m : AMode) (miss : Bool)
  /-- LDH (R134). Loads two bytes, zero-extended. -/
  | ldh (c : Cid) (rt : RegNo) (ab : RegNo) (m : AMode) (miss : Bool)
  /-- LDHS (R134). Loads two bytes, sign-extended. -/
  | ldhs (c : Cid) (rt : RegNo) (ab : RegNo) (m : AMode) (miss : Bool)
  /-- LDT (R134). Loads four bytes, zero-extended, the binary32 load. -/
  | ldt (c : Cid) (rt : RegNo) (ab : RegNo) (m : AMode) (miss : Bool)
  /-- LDTS (R134). Loads four bytes, sign-extended. -/
  | ldts (c : Cid) (rt : RegNo) (ab : RegNo) (m : AMode) (miss : Bool)
  /-- LDW (R134). Loads a word of 5 bytes, or 10 in Conjunction. -/
  | ldw (c : Cid) (rt : RegNo) (ab : RegNo) (m : AMode) (miss : Bool)
  /-- LDP (R134). Loads a decimal64 value into an even/odd register pair. -/
  | ldp (c : Cid) (rt : RegNo) (ab : RegNo) (m : AMode) (miss : Bool)
  /-- LDWA (R134). Loads a word into an A register. -/
  | ldwa (c : Cid) (rt : RegNo) (ab : RegNo) (m : AMode) (miss : Bool)
  /-- LEA (R134). Writes the effective address to an A register without an access. -/
  | lea (c : Cid) (rt : RegNo) (ab : RegNo) (m : AMode)
  /-- STB (R134). Stores the low byte of a D register. -/
  | stb (c : Cid) (rt : RegNo) (ab : RegNo) (m : AMode)
  /-- STH (R134). Stores the low two bytes of a D register. -/
  | sth (c : Cid) (rt : RegNo) (ab : RegNo) (m : AMode)
  /-- STT (R134). Stores the low four bytes of a D register. -/
  | stt (c : Cid) (rt : RegNo) (ab : RegNo) (m : AMode)
  /-- STW (R134). Stores a word of 5 bytes, or 10 in Conjunction. -/
  | stw (c : Cid) (rt : RegNo) (ab : RegNo) (m : AMode)
  /-- STP (R134). Stores a decimal64 value from a register pair. -/
  | stp (c : Cid) (rt : RegNo) (ab : RegNo) (m : AMode)
  /-- STWA (R134). Stores an A register as a word. -/
  | stwa (c : Cid) (rt : RegNo) (ab : RegNo) (m : AMode)
  /-- CASW (R135). Atomic compare and swap of a word, acting as SYNC before and after. -/
  | casw (c : Cid) (rt : RegNo) (ab : RegNo) (m : AMode)
  /-- SWPW (R135). Atomic swap of a word with a D register. -/
  | swpw (c : Cid) (rt : RegNo) (ab : RegNo) (m : AMode)
  /-- MOVD (R136). Copies a D register to a D register. -/
  | movd (c : Cid) (rd : RegNo) (ra : RegNo)
  /-- MOVA (R136). Copies an A register to an A register. -/
  | mova (c : Cid) (rd : RegNo) (ra : RegNo)
  /-- MOVDA (R136). Copies an A register into a D register. -/
  | movda (c : Cid) (rd : RegNo) (ra : RegNo)
  /-- MOVAD (R136). Copies D register bits [39:0] into an A register. -/
  | movad (c : Cid) (rd : RegNo) (ra : RegNo)
  /-- MOVI (R137). Loads a sign-extended 20-bit immediate into a D register. -/
  | movi (c : Cid) (rd : RegNo) (imm : BitVec 20)
  /-- MOVHI (R137). Sets D register bits [39:20] from the immediate. -/
  | movhi (c : Cid) (rd : RegNo) (imm : BitVec 20)
  /-- MOVIA (R137). Loads a sign-extended immediate into an A register. -/
  | movia (c : Cid) (rd : RegNo) (imm : BitVec 20)
  /-- MOVHIA (R137). Sets A register bits [39:20] from the immediate. -/
  | movhia (c : Cid) (rd : RegNo) (imm : BitVec 20)
  /-- MOVH2 (R137). Sets D register bits [59:40] in Conjunction. -/
  | movh2 (c : Cid) (rd : RegNo) (imm : BitVec 20)
  /-- MOVH3 (R137). Sets D register bits [79:60] in Conjunction. -/
  | movh3 (c : Cid) (rd : RegNo) (imm : BitVec 20)
  /-- AADD (R138). Adds two A registers modulo 2^40. -/
  | aadd (c : Cid) (rd : RegNo) (ra : RegNo) (rb : RegNo)
  /-- ASUB (R138). Subtracts two A registers modulo 2^40. -/
  | asub (c : Cid) (rd : RegNo) (ra : RegNo) (rb : RegNo)
  /-- ASCA (R138). Adds a scaled A register to an A register. -/
  | asca (c : Cid) (rd : RegNo) (ra : RegNo) (rb : RegNo) (aux : Byte)
  /-- ACMP (R138). Compares two A registers and sets C, V, Z and N. -/
  | acmp (c : Cid) (ra : RegNo) (rb : RegNo)
  /-- ASHL (R138). Shifts an A register left. -/
  | ashl (c : Cid) (rd : RegNo) (ra : RegNo) (aux : Byte)
  /-- ASHR (R138). Shifts an A register right logically. -/
  | ashr (c : Cid) (rd : RegNo) (ra : RegNo) (aux : Byte)
  /-- AADDI (R138). Adds a sign-extended immediate to an A register. -/
  | aaddi (c : Cid) (rd : RegNo) (ra : RegNo) (imm : BitVec 20)
  /-- ACMPI (R138). Compares an A register with an immediate and sets flags. -/
  | acmpi (c : Cid) (ra : RegNo) (imm : BitVec 20)
  /-- BC (R139). Branches when the condition on the SR flags holds. -/
  | bc (c : Cid) (cond : RegNo) (disp : BitVec 24)
  /-- BD (R140). Branches on a binary or decimal test of a D register. -/
  | bd (c : Cid) (cond : RegNo) (ra : RegNo) (disp : BitVec 24)
  /-- BAZ (R141). Branches when an A register is zero. -/
  | baz (c : Cid) (ra : RegNo) (disp : BitVec 24)
  /-- BANZ (R141). Branches when an A register is not zero. -/
  | banz (c : Cid) (ra : RegNo) (disp : BitVec 24)
  /-- DBNZ (R141). Decrements an A register and branches when the result is not zero. -/
  | dbnz (c : Cid) (ra : RegNo) (disp : BitVec 24)
  /-- CALL (R142). Writes the return address to A14 and transfers to a displacement target. -/
  | call (c : Cid) (disp : BitVec 24)
  /-- CALLW (R142). Steps the register window and calls a displacement target. -/
  | callw (c : Cid) (disp : BitVec 24)
  /-- LAC (R142). Writes a displacement target address into an A register. -/
  | lac (c : Cid) (ra : RegNo) (disp : BitVec 24)
  /-- JMP (R142). Transfers to the address in an A register. -/
  | jmp (c : Cid) (ra : RegNo)
  /-- CALLR (R142). Calls the address held in an A register. -/
  | callr (c : Cid) (ra : RegNo)
  /-- CALLWR (R142). Steps the window and calls the address in an A register. -/
  | callwr (c : Cid) (ra : RegNo)
  /-- RET (R142). Returns to the address in A14. -/
  | ret (c : Cid)
  /-- RETW (R142). Steps the window back and returns to A14. -/
  | retw (c : Cid)
  /-- NOP (R123). Changes nothing but the PC. -/
  | nop (c : Cid)
  /-- ADD (R150). Binary add of two D registers. -/
  | add (c : Cid) (rd : RegNo) (ra : RegNo) (rb : RegNo)
  /-- ADDC (R150). Binary add with carry. -/
  | addc (c : Cid) (rd : RegNo) (ra : RegNo) (rb : RegNo)
  /-- SUB (R150). Binary subtract. -/
  | sub (c : Cid) (rd : RegNo) (ra : RegNo) (rb : RegNo)
  /-- SUBC (R150). Binary subtract with carry. -/
  | subc (c : Cid) (rd : RegNo) (ra : RegNo) (rb : RegNo)
  /-- CMP (R150). Sets the flags of a binary subtract without writing a register. -/
  | cmp (c : Cid) (ra : RegNo) (rb : RegNo)
  /-- NEG (R150). Binary negation. -/
  | neg (c : Cid) (rd : RegNo) (ra : RegNo)
  /-- AND (R150). Bitwise AND. -/
  | and (c : Cid) (rd : RegNo) (ra : RegNo) (rb : RegNo)
  /-- OR (R150). Bitwise OR. -/
  | or (c : Cid) (rd : RegNo) (ra : RegNo) (rb : RegNo)
  /-- XOR (R150). Bitwise exclusive OR. -/
  | xor (c : Cid) (rd : RegNo) (ra : RegNo) (rb : RegNo)
  /-- ANDN (R150). Bitwise AND with the complement of the second operand. -/
  | andn (c : Cid) (rd : RegNo) (ra : RegNo) (rb : RegNo)
  /-- TST (R150). Sets the flags of AND without writing a register. -/
  | tst (c : Cid) (ra : RegNo) (rb : RegNo)
  /-- ADDI (R151). Adds a sign-extended immediate. -/
  | addi (c : Cid) (rd : RegNo) (ra : RegNo) (imm : BitVec 20)
  /-- CMPI (R151). Compares with a sign-extended immediate. -/
  | cmpi (c : Cid) (ra : RegNo) (imm : BitVec 20)
  /-- ANDI (R151). ANDs with a zero-extended immediate. -/
  | andi (c : Cid) (rd : RegNo) (ra : RegNo) (imm : BitVec 20)
  /-- ORI (R151). ORs with a zero-extended immediate. -/
  | ori (c : Cid) (rd : RegNo) (ra : RegNo) (imm : BitVec 20)
  /-- XORI (R151). Exclusive ORs with a zero-extended immediate. -/
  | xori (c : Cid) (rd : RegNo) (ra : RegNo) (imm : BitVec 20)
  /-- TSTI (R151). Sets the flags of ANDI. -/
  | tsti (c : Cid) (ra : RegNo) (imm : BitVec 20)
  /-- SHL (R152). Shifts left with zeros in, by an immediate or register count. -/
  | shl (c : Cid) (rd : RegNo) (ra : RegNo) (n : ShiftCount)
  /-- SHR (R152). Shifts right logically. -/
  | shr (c : Cid) (rd : RegNo) (ra : RegNo) (n : ShiftCount)
  /-- SAR (R152). Shifts right arithmetically. -/
  | sar (c : Cid) (rd : RegNo) (ra : RegNo) (n : ShiftCount)
  /-- ROL (R152). Rotates left. -/
  | rol (c : Cid) (rd : RegNo) (ra : RegNo) (n : ShiftCount)
  /-- ROR (R152). Rotates right. -/
  | ror (c : Cid) (rd : RegNo) (ra : RegNo) (n : ShiftCount)
  /-- CLZ (R153). Counts leading zero bits. -/
  | clz (c : Cid) (rd : RegNo) (ra : RegNo)
  /-- CTZ (R153). Counts trailing zero bits. -/
  | ctz (c : Cid) (rd : RegNo) (ra : RegNo)
  /-- POPC (R153). Counts one bits. -/
  | popc (c : Cid) (rd : RegNo) (ra : RegNo)
  /-- SEXT (R153). Sign-extends from a bit index. -/
  | sext (c : Cid) (rd : RegNo) (ra : RegNo) (aux : Byte)
  /-- ZEXT (R153). Clears every bit above a bit index. -/
  | zext (c : Cid) (rd : RegNo) (ra : RegNo) (aux : Byte)
  /-- DADD (R155). Decimal add of two D registers. -/
  | dadd (c : Cid) (rd : RegNo) (ra : RegNo) (rb : RegNo) (u : Bool)
  /-- DADC (R155). Decimal add with decimal carry. -/
  | dadc (c : Cid) (rd : RegNo) (ra : RegNo) (rb : RegNo) (u : Bool)
  /-- DSUB (R155). Decimal subtract. -/
  | dsub (c : Cid) (rd : RegNo) (ra : RegNo) (rb : RegNo) (u : Bool)
  /-- DSBC (R155). Decimal subtract with borrow. -/
  | dsbc (c : Cid) (rd : RegNo) (ra : RegNo) (rb : RegNo) (u : Bool)
  /-- DCMP (R147). Compares two signed decimal values and sets C, V, Z and N. -/
  | dcmp (c : Cid) (ra : RegNo) (rb : RegNo)
  /-- DNEG (R155). Decimal negation. -/
  | dneg (c : Cid) (rd : RegNo) (ra : RegNo)
  /-- DABS (R155). Decimal absolute value. -/
  | dabs (c : Cid) (rd : RegNo) (ra : RegNo)
  /-- DADDI (R157). Adds a five-digit decimal immediate. -/
  | daddi (c : Cid) (rd : RegNo) (ra : RegNo) (imm : BitVec 20)
  /-- DCMPI (R157). Compares with a five-digit decimal immediate. -/
  | dcmpi (c : Cid) (ra : RegNo) (imm : BitVec 20)
  /-- DSHL (R159). Multiplies a decimal value by a power of ten. -/
  | dshl (c : Cid) (rd : RegNo) (ra : RegNo) (aux : Byte)
  /-- DSHR (R159). Drops decimal digits with rounding. -/
  | dshr (c : Cid) (rd : RegNo) (ra : RegNo) (rm : RegNo) (aux : Byte)
  /-- DTB (R160). Converts a decimal register to binary. -/
  | dtb (c : Cid) (rd : RegNo) (ra : RegNo)
  /-- BTD (R160). Converts a binary register to decimal. -/
  | btd (c : Cid) (rd : RegNo) (ra : RegNo)
  /-- DCHK (R160). Tests whether every nibble is a decimal digit. -/
  | dchk (c : Cid) (ra : RegNo)
  /-- LDPK (R161). Loads a packed decimal field into a D register. -/
  | ldpk (c : Cid) (rd : RegNo) (ra : RegNo) (aux : Byte) (miss : Bool)
  /-- STPK (R161). Stores a D register as a packed decimal field. -/
  | stpk (c : Cid) (ra : RegNo) (rb : RegNo) (aux : Byte)
  /-- MUL (R164). Signed binary multiply into PH:PL. -/
  | mul (c : Cid) (ra : RegNo) (rb : RegNo)
  /-- MULU (R164). Unsigned binary multiply into PH:PL. -/
  | mulu (c : Cid) (ra : RegNo) (rb : RegNo)
  /-- MULW (R164). Signed multiply into a D register pair. -/
  | mulw (c : Cid) (rd : RegNo) (ra : RegNo) (rb : RegNo)
  /-- MULWU (R164). Unsigned multiply into a D register pair. -/
  | mulwu (c : Cid) (rd : RegNo) (ra : RegNo) (rb : RegNo)
  /-- DMUL (R164). Decimal multiply into PH:PL. -/
  | dmul (c : Cid) (ra : RegNo) (rb : RegNo)
  /-- DPRS (R168). Reads PH:PL as decimal, drops digits and rounds into a D register. -/
  | dprs (c : Cid) (rd : RegNo) (rm : RegNo) (aux : Byte)
  /-- PSRA (R168). Shifts PH:PL right arithmetically into a D register. -/
  | psra (c : Cid) (rd : RegNo) (aux : Byte)
  /-- MACB (R169). Binary multiply-accumulate into an X register. -/
  | macb (c : Cid) (rd : RegNo) (ra : RegNo) (rb : RegNo)
  /-- MSBB (R169). Binary multiply-subtract from an X register. -/
  | msbb (c : Cid) (rd : RegNo) (ra : RegNo) (rb : RegNo)
  /-- MACD (R169). Decimal multiply-accumulate into an X register. -/
  | macd (c : Cid) (rd : RegNo) (ra : RegNo) (rb : RegNo)
  /-- MSBD (R169). Decimal multiply-subtract from an X register. -/
  | msbd (c : Cid) (rd : RegNo) (ra : RegNo) (rb : RegNo)
  /-- XCLR (R169). Clears an X register. -/
  | xclr (c : Cid) (rd : RegNo)
  /-- XLDB (R169). Loads an X register with a sign-extended binary value. -/
  | xldb (c : Cid) (rd : RegNo) (ra : RegNo)
  /-- XLDD (R169). Loads an X register with a decimal value extended to 22 digits. -/
  | xldd (c : Cid) (rd : RegNo) (ra : RegNo)
  /-- XGET (R169). Reads one word of an X register image. -/
  | xget (c : Cid) (rd : RegNo) (ra : RegNo) (aux : Byte)
  /-- XPUT (R169). Writes one word of an X register image. -/
  | xput (c : Cid) (rd : RegNo) (ra : RegNo) (aux : Byte)
  /-- XRD (R169). Rounds an X register's decimal value into a D register. -/
  | xrd (c : Cid) (rd : RegNo) (ra : RegNo) (rm : RegNo) (aux : Byte)
  /-- DSTEP (R171). One step of unsigned binary division in PH:PL. -/
  | dstep (c : Cid) (ra : RegNo)
  /-- DDSTEP (R172). One step of decimal division in PH:PL. -/
  | ddstep (c : Cid) (ra : RegNo)
  /-- FADD (R179). binary32 add. -/
  | fadd (c : Cid) (rd : RegNo) (ra : RegNo) (rb : RegNo) (rm : RegNo)
  /-- FSUB (R179). binary32 subtract. -/
  | fsub (c : Cid) (rd : RegNo) (ra : RegNo) (rb : RegNo) (rm : RegNo)
  /-- FMUL (R179). binary32 multiply. -/
  | fmul (c : Cid) (rd : RegNo) (ra : RegNo) (rb : RegNo) (rm : RegNo)
  /-- FDIV (R179). binary32 divide. -/
  | fdiv (c : Cid) (rd : RegNo) (ra : RegNo) (rb : RegNo) (rm : RegNo)
  /-- FSQRT (R179). binary32 square root. -/
  | fsqrt (c : Cid) (rd : RegNo) (ra : RegNo) (rm : RegNo)
  /-- FNEG (R179). Inverts the binary32 sign. -/
  | fneg (c : Cid) (rd : RegNo) (ra : RegNo)
  /-- FABS (R179). Clears the binary32 sign. -/
  | fabs (c : Cid) (rd : RegNo) (ra : RegNo)
  /-- FCMP (R187). Quiet binary32 compare. -/
  | fcmp (c : Cid) (ra : RegNo) (rb : RegNo)
  /-- FCMPS (R187). Signalling binary32 compare. -/
  | fcmps (c : Cid) (ra : RegNo) (rb : RegNo)
  /-- FTOI (R188). Converts binary32 to a binary integer. -/
  | ftoi (c : Cid) (rd : RegNo) (ra : RegNo) (rm : RegNo)
  /-- ITOF (R180). Converts a binary integer to binary32. -/
  | itof (c : Cid) (rd : RegNo) (ra : RegNo) (rm : RegNo)
  /-- DFADD (R181). decimal64 add. -/
  | dfadd (c : Cid) (rd : RegNo) (ra : RegNo) (rb : RegNo) (rm : RegNo)
  /-- DFSUB (R181). decimal64 subtract. -/
  | dfsub (c : Cid) (rd : RegNo) (ra : RegNo) (rb : RegNo) (rm : RegNo)
  /-- DFMUL (R181). decimal64 multiply. -/
  | dfmul (c : Cid) (rd : RegNo) (ra : RegNo) (rb : RegNo) (rm : RegNo)
  /-- DFDIV (R181). decimal64 divide. -/
  | dfdiv (c : Cid) (rd : RegNo) (ra : RegNo) (rb : RegNo) (rm : RegNo)
  /-- DFSQRT (R181). decimal64 square root. -/
  | dfsqrt (c : Cid) (rd : RegNo) (ra : RegNo) (rm : RegNo)
  /-- DFNEG (R181). Inverts the decimal64 sign. -/
  | dfneg (c : Cid) (rd : RegNo) (ra : RegNo)
  /-- DFABS (R181). Clears the decimal64 sign. -/
  | dfabs (c : Cid) (rd : RegNo) (ra : RegNo)
  /-- DFCMP (R187). Quiet decimal64 compare. -/
  | dfcmp (c : Cid) (ra : RegNo) (rb : RegNo)
  /-- DFCMPS (R187). Signalling decimal64 compare. -/
  | dfcmps (c : Cid) (ra : RegNo) (rb : RegNo)
  /-- DFQUA (R181). decimal64 quantize. -/
  | dfqua (c : Cid) (rd : RegNo) (ra : RegNo) (rb : RegNo) (rm : RegNo)
  /-- DFTOD (R189). Converts decimal64 to a decimal register integer. -/
  | dftod (c : Cid) (rd : RegNo) (ra : RegNo) (rm : RegNo) (aux : Byte)
  /-- DDTF (R181). Converts a decimal register to decimal64 exactly. -/
  | ddtf (c : Cid) (rd : RegNo) (ra : RegNo) (aux : Byte)
  /-- MVS (R204). Moves a byte string, interruptibly. -/
  | mvs (c : Cid) (r1 : RegNo) (r2 : RegNo) (r3 : RegNo)
  /-- MVSP (R204). Moves a byte string and pads the destination. -/
  | mvsp (c : Cid) (r1 : RegNo) (r2 : RegNo) (r3 : RegNo) (r4 : RegNo) (r5 : RegNo)
  /-- CMS (R204). Compares two byte strings. -/
  | cms (c : Cid) (r1 : RegNo) (r2 : RegNo) (r3 : RegNo)
  /-- TRS (R204). Translates a byte string through a table. -/
  | trs (c : Cid) (r1 : RegNo) (r2 : RegNo) (r3 : RegNo) (r4 : RegNo)
  /-- SCN (R204). Scans a byte string for a byte in a set. -/
  | scn (c : Cid) (r1 : RegNo) (r2 : RegNo) (r3 : RegNo) (r4 : RegNo)
  /-- EDT (R215). Edits a packed field into text under a pattern. -/
  | edt (c : Cid) (r1 : RegNo) (r2 : RegNo) (r3 : RegNo) (r4 : RegNo)
  /-- EDM (R217). Edits with float strings and significance marks. -/
  | edm (c : Cid) (r1 : RegNo) (r2 : RegNo) (r3 : RegNo) (r4 : RegNo) (r5 : RegNo) (r6 : RegNo)
  /-- PKZ (R206). Packs a zoned field into a packed field. -/
  | pkz (c : Cid) (r1 : RegNo) (r2 : RegNo) (r3 : RegNo) (miss : Bool)
  /-- UPK (R207). Unpacks a packed field into a zoned field. -/
  | upk (c : Cid) (r1 : RegNo) (r2 : RegNo) (r3 : RegNo) (miss : Bool)
  /-- CVBD (R207). Converts a binary register to a packed field. -/
  | cvbd (c : Cid) (r1 : RegNo) (r2 : RegNo) (r3 : RegNo)
  /-- CVDB (R207). Converts a packed field to a binary register. -/
  | cvdb (c : Cid) (r1 : RegNo) (r2 : RegNo) (r3 : RegNo) (miss : Bool)
  /-- DADS (R209). Adds two packed fields in memory. -/
  | dads (c : Cid) (r1 : RegNo) (r2 : RegNo) (r3 : RegNo) (r4 : RegNo) (miss : Bool)
  /-- DSBS (R209). Subtracts two packed fields in memory. -/
  | dsbs (c : Cid) (r1 : RegNo) (r2 : RegNo) (r3 : RegNo) (r4 : RegNo) (miss : Bool)
  /-- DCPS (R209). Compares two packed fields in memory. -/
  | dcps (c : Cid) (r1 : RegNo) (r2 : RegNo) (r3 : RegNo) (r4 : RegNo) (miss : Bool)
  /-- DZMS (R209). Copies the value of one packed field into another. -/
  | dzms (c : Cid) (r1 : RegNo) (r2 : RegNo) (r3 : RegNo) (r4 : RegNo) (miss : Bool)
  /-- DSHS (R210). Shifts and rounds a packed field in memory. -/
  | dshs (c : Cid) (r1 : RegNo) (r2 : RegNo) (r3 : RegNo) (miss : Bool)
  /-- DMLS (R212). Multiplies two packed fields step by step. -/
  | dmls (c : Cid) (r1 : RegNo) (r2 : RegNo) (r3 : RegNo) (r4 : RegNo) (r5 : RegNo) (r6 : RegNo)
  /-- LOOP (R225). Opens a hardware loop level, or skips the body on a zero count. -/
  | loop (c : Cid) (cnt : CountSrc) (span : BitVec 11)
  /-- REP (R229). Latches a count into RC and repeats the next instruction. -/
  | rep (c : Cid) (cnt : CountSrc)
  /-- LPOP (R225). Closes the innermost loop level. -/
  | lpop (c : Cid)
  /-- TRAP (R296). Completes and then raises vector 18 with the trap code. -/
  | trap (c : Cid) (aux : Byte)
  /-- RTE (R274). Checks the frame and returns from exception, restoring lazy state if filled. -/
  | rte (c : Cid)
  /-- MFS (R96). Reads a special register into a D register. -/
  | mfs (c : Cid) (rd : RegNo) (aux : Byte)
  /-- MTS (R96). Writes a special register from a D register. -/
  | mts (c : Cid) (ra : RegNo) (aux : Byte)
  /-- YIELD (R293). Switches to another ready context of the same priority. -/
  | yield (c : Cid)
  /-- SVCTX_L (R297). Stores the lower context save area. -/
  | svctxL (c : Cid) (ra : RegNo)
  /-- SVCTX_U (R297). Stores the upper context save area at the link word. -/
  | svctxU (c : Cid) (ra : RegNo)
  /-- RSCTX_L (R298). Restores the lower save area and transfers to its PC. -/
  | rsctxL (c : Cid) (ra : RegNo)
  /-- RSCTX_U (R298). Restores the upper save area. -/
  | rsctxU (c : Cid) (ra : RegNo)
  /-- SETROLE (R107). Adds one to the context's own ROLE epoch. -/
  | setrole (c : Cid)
  /-- SETKR (R327). Writes KRR, lowering rights only at user privilege. -/
  | setkr (c : Cid) (ra : RegNo)
  /-- MTBTR (R311). Writes one word of a block translation register. -/
  | mtbtr (c : Cid) (ra : RegNo) (aux : Byte)
  /-- MFBTR (R311). Reads one word of a block translation register. -/
  | mfbtr (c : Cid) (rd : RegNo) (aux : Byte)
  /-- SETFK (R326). Writes masked fields of a frame's key-store byte. -/
  | setfk (c : Cid) (ra : RegNo) (rb : RegNo) (aux : Byte)
  /-- GETFK (R326). Reads a frame's key-store byte. -/
  | getfk (c : Cid) (rd : RegNo) (ra : RegNo)
  /-- CLRFR (R326). Reads and clears REF, and optionally CHG, of a frame. -/
  | clrfr (c : Cid) (rd : RegNo) (ra : RegNo) (aux : Byte)
  /-- TLBI_VA (R333). Removes TLB entries of a STAG for one page on every core. -/
  | tlbiVa (c : Cid) (ra : RegNo) (rb : RegNo)
  /-- TLBI_S (R333). Removes every TLB entry of a STAG. -/
  | tlbiS (c : Cid) (rb : RegNo)
  /-- TLBI_ALL (R333). Removes every TLB entry. -/
  | tlbiAll (c : Cid)
  /-- WALKI_VA (R333). Removes walk-cache entries of a STAG for one 2 MiB region. -/
  | walkiVa (c : Cid) (ra : RegNo) (rb : RegNo)
  /-- WALKI_S (R333). Removes every walk-cache entry of a STAG. -/
  | walkiS (c : Cid) (rb : RegNo)
  /-- WALKI_ALL (R333). Removes every walk-cache entry. -/
  | walkiAll (c : Cid)
  /-- SYNC (R340). Orders every earlier access before any later one. -/
  | sync (c : Cid)
  /-- SYNC_D (R340). As SYNC, and also waits for device stores to be performed. -/
  | syncD (c : Cid)
  /-- SYNC_T (R336). Waits for earlier invalidations and key changes to be applied everywhere. -/
  | syncT (c : Cid)
  /-- SYNC_P (R342). Orders postings against memory accesses. -/
  | syncP (c : Cid)
  /-- ISYNC (R262). Waits for earlier stores to be visible to fetch and empties the line buffer. -/
  | isync (c : Cid)
  /-- POST (R359). Fire-and-forget posting of an amount and count to an account. -/
  | post (c : Cid) (ra : RegNo) (rb : RegNo) (rc : RegNo) (b : Bool)
  /-- POST_T (R362). Ticketed posting. -/
  | postT (c : Cid) (rd : RegNo) (ra : RegNo) (rb : RegNo) (rc : RegNo) (b : Bool)
  /-- POST_W (R355). Fire-and-forget wide posting of a 20-digit or 80-bit amount. -/
  | postW (c : Cid) (ra : RegNo) (rb : RegNo) (rc : RegNo) (b : Bool)
  /-- POST_WT (R355). Ticketed wide posting. -/
  | postWt (c : Cid) (rd : RegNo) (ra : RegNo) (rb : RegNo) (rc : RegNo) (b : Bool)
  /-- POSTL (R359). Ticketed posting that is not applied below a floor. -/
  | postl (c : Cid) (rd : RegNo) (ra : RegNo) (rb : RegNo) (rc : RegNo) (rf : RegNo) (b : Bool)
  /-- PREAD (R379). Reads an account's value and count, or LPSN. -/
  | pread (c : Cid) (xb : RegNo) (rd : RegNo) (ra : RegNo) (p : Bool)
  /-- PREADC (R379). Reads an account's cut value. -/
  | preadc (c : Cid) (xb : RegNo) (rd : RegNo) (ra : RegNo)
  /-- WAITT (R366). Waits until a ticket is complete. -/
  | waitt (c : Cid) (ra : RegNo)
  /-- WAITTA (R366). Waits until every ticket of the context is complete. -/
  | waitta (c : Cid)
  /-- TKRD (R363). Reads a ticket's completion and releases it if complete. -/
  | tkrd (c : Cid) (rd : RegNo) (ra : RegNo)
  /-- PSET (R360). Sets an account's value and count and clears OVF and BAD. -/
  | pset (c : Cid) (rd : RegNo) (ra : RegNo) (xb : RegNo) (rc : RegNo) (b : Bool)
  /-- PCUT (R376). Takes a cut at a PSN boundary. -/
  | pcut (c : Cid) (rd : RegNo)
  /-- PREL (R380). Releases the held cut and starts the epoch sweep. -/
  | prel (c : Cid) (rd : RegNo)
  /-- ENQ (R415). Offers a 64-byte element to a queue. -/
  | enq (c : Cid) (rd : RegNo) (ra : RegNo) (rb : RegNo)
  /-- DEQ (R415). Takes the head element of a queue after the delivery check. -/
  | deq (c : Cid) (rd : RegNo) (ra : RegNo) (rb : RegNo)
  /-- WAITQ (R415). Selects a deliverable bound queue or waits. -/
  | waitq (c : Cid) (rd : RegNo)
  /-- QCNT (R415). Reads a queue's count. -/
  | qcnt (c : Cid) (rd : RegNo) (ra : RegNo)
  /-- REGISTER_WRITE (R727). A write to a control register that has no row of its own, checked in the refusal order and then performed. -/
  | registerWrite (r : Requester) (a : Word) (v : Word)
  /-- HOST_ACCESS (R32). A host access to a control register through a PCIe window, checked for size, offset and page key. -/
  | hostAccess (off : BitVec 24) (n : BitVec 13) (wr : Option (List Byte))
  /-- PG_INT_STATUS_CLEAR (R41). A write of 1 to PG_INT_STATUS bits clears events, and clearing ERR also clears OVF and re-arms PG_ERR_SYNDROME. -/
  | pgIntStatusClear (r : Requester) (p : BitVec 10) (v : Word)
  /-- EXPERT_SET (R44). A write of PG_CTRL.EXPERT opens the expert registers or is refused with code 0x03. -/
  | expertSet (r : Requester) (p : BitVec 10) (on : Bool)
  /-- PG_LOCK_WRITE (R37). A write of PG_LOCK sets the page key (warden only) and the write-once LOCK bit. -/
  | pgLockWrite (r : Requester) (p : BitVec 10) (v : Word)
  /-- EXPERT_GRANT_WRITE (R46). A warden write of SYS.EXPERT_GRANT; a group bit going to 0 clears EXPERT on every page of the group in the same cycle. -/
  | expertGrantWrite (r : Requester) (v : Word)
  /-- GRANT_EXPIRY (R593). The expert grant countdown ends and SYS.EXPERT_GRANT is written as 0 with event 0x0D03. -/
  | grantExpiry
  /-- BLOCK_RESET (R47). A write of 1 to PG_CTRL.BLOCK_RESET starts a block restart and returns the header's class-b fields to reset. -/
  | blockReset (r : Requester) (p : BitVec 10)
  /-- BLOCK_RESTART_DONE (R47). The restart of a block completes and BLOCK_RESET and RESTARTING read 0 again. -/
  | blockRestartDone (blk : Fin 25)
  /-- LONG_OP_LANDS (R247). A scoreboarded long operation writes its result and clears its pending bits. -/
  | longOpLands (c : Cid)
  /-- STRING_UNIT (R201). One unit of an interruptible string, edit or DMLS instruction is performed. -/
  | stringUnit (c : Cid) (miss : Bool)
  /-- FETCH_LINE_ARRIVAL (R238). A code line that missed the instruction cache arrives and the stalled context proceeds. -/
  | fetchLineArrival (c : Cid)
  /-- CONTEXT_SWITCH (R254). The core switches from one context to another in 3 LCLK after landings. -/
  | contextSwitch (k : Fin 68)
  /-- DATA_LINE_ARRIVAL (R255). The line of a missing load arrives and the context becomes ready again. -/
  | dataLineArrival (c : Cid)
  /-- STORE_BUFFER_DRAIN (R252). A buffered store is written to the data cache and made visible. -/
  | storeBufferDrain (k : Fin 68)
  /-- HW_PREFETCH (R346). Hardware prefetch fetches a normal cacheable line within a recent page. -/
  | hwPrefetch (k : Fin 68) (addr : Word)
  /-- EXCEPTION_ENTRY (R267). After landings, a frame is pushed on SPS, SR is changed and control goes to the vector. -/
  | exceptionEntry (c : Cid) (vec : BitVec 6) (fault : Word) (info : BitVec 10) (synd : BitVec 24)
  /-- HALT_MESSAGE_ENQUEUE (R286). A held context-halt message is enqueued once HALT_QUEUE is valid and has room. -/
  | haltMessageEnqueue (c : Cid)
  /-- SOURCE_ASSERT (R291). An interrupt source asserts and the router presents it to its target's core within 16 FCLK. -/
  | sourceAssert (n : BitVec 10)
  /-- INTERRUPT_ENTRY (R288). A context takes its highest-ranked pending interrupt at a boundary. -/
  | interruptEntry (c : Cid)
  /-- CTX_START (R301). CTX_CTRL.START starts a halted context at CTXc_PC with SR at reset. -/
  | ctxStart (r : Requester) (c : Cid)
  /-- CTX_HALT (R302). CTX_CTRL.HALT requests a halt of a context with reason 5. -/
  | ctxHalt (r : Requester) (c : Cid)
  /-- HALT_TAKES_EFFECT (R302). The context reaches its boundary after landings and is halted. -/
  | haltTakesEffect (c : Cid)
  /-- ROLE_INC (R301). A warden adds one to another context's ROLE through CTX_CTRL.ROLE_INC. -/
  | roleInc (r : Requester) (c : Cid)
  /-- IRT_WRITE (R305). Writes one interrupt routing entry, taking effect within 16 FCLK. -/
  | irtWrite (r : Requester) (v : Word)
  /-- SWI (R305). Sets or clears a software interrupt source. -/
  | swi (r : Requester) (v : Word)
  /-- CONJ_ENTRY (R113). A request to join a core pair, checked under R112. -/
  | conjEntry (r : Requester) (clu : Fin 8) (k : Fin 4)
  /-- CONJ_JOIN (R115). After landings, the pair's datapaths join and JOINED is set. -/
  | conjJoin (clu : Fin 8) (k : Fin 4)
  /-- CONJ_EXIT (R113). A request to separate a joined pair. -/
  | conjExit (r : Requester) (clu : Fin 8) (k : Fin 4)
  /-- CONJ_SEPARATE (R115). After landings, the datapaths separate and the odd core's contexts come out halted. -/
  | conjSeparate (clu : Fin 8) (k : Fin 4)
  /-- INVALIDATION_APPLIED (R336). An issued invalidation is applied on every core, including moving and frozen ones. -/
  | invalidationApplied
  /-- TICKET_WAIT_READY (R365). A context waiting for a free ticket becomes ready when a ticket is released. -/
  | ticketWaitReady (c : Cid)
  /-- GRANT_CYCLE (R371). In each FCLK the tally intake grants up to 4 operations by rotating scan and assigns PSNs. -/
  | grantCycle
  /-- BANK_APPLY (R359). A bank applies one granted operation to its account. -/
  | bankApply (k : Fin 8) (e : EccErr)
  /-- CUT_READY (R378). Every operation granted before the PCUT is applied and the cut becomes ready. -/
  | cutReady
  /-- PREL_SWEEP_END (R380). The release sweep ends, RELEASING clears and the PREL ticket completes. -/
  | prelSweepEnd
  /-- TALLY_ENABLE (R351). TLY ENABLE going to 1 stamps account formats from the ranges. -/
  | tallyEnable (r : Requester)
  /-- STAMPING_DONE (R351). Format stamping finishes and STAMPING clears. -/
  | stampingDone
  /-- COLD_CLEAR_DONE (R349). The cold clear of every account finishes after PD11 powers. -/
  | coldClearDone
  /-- PSN_NEXT_SEED (R382). One write of PSN_NEXT while SEEDED is 0 sets it and SEEDED. -/
  | psnNextSeed (r : Requester) (v : Word)
  /-- REPLAY_START (R383). REPLAY_CTRL.START starts a replay run over a DRAM buffer. -/
  | replayStart (r : Requester)
  /-- REPLAY_RECORD (R384). The replay DMA reads the next record and supplies its posting entries to port 10. -/
  | replayRecord
  /-- REPLAY_FINISH (R386). REPLAY_CTRL.FINISH closes replay after any running run ends. -/
  | replayFinish (r : Requester)
  /-- TKT_FLUSH (R369). A warden releases every ticket of a named context. -/
  | tktFlush (r : Requester) (t : Cid)
  /-- TALLY_SCRUB (R392). A bank scrub read of one account record, marking it BAD on an uncorrectable error. -/
  | tallyScrub (a : BitVec 18) (e : EccErr)
  /-- ECC_INJECT (R398). Arms a test error injection at an account record's next read. -/
  | eccInject (r : Requester) (a : BitVec 18) (double : Bool)
  /-- REMOTE_READ_TIMEOUT (R389). A remote PREAD or PREADC with no answer for 1 ms lands zero with SR.C 1. -/
  | remoteReadTimeout (tag : BitVec 16)
  /-- WAITQ_WAKE (R415). A bound queue gains an element or is rebound and the waiting context repeats its selection. -/
  | waitqWake (c : Cid)
  /-- ORPHAN_NOTICE_SEND (R419). A held orphan notice is sent on ORPHAN_QUEUE once it is valid and has room. -/
  | orphanNoticeSend
  /-- QCFG_WRITE (R406). A write of QCFG, enabling, disabling or refusing under the ordered checks. -/
  | qcfgWrite (r : Requester) (q : BitVec 13) (v : Word)
  /-- QBASE_WRITE (R406). A write of QBASE, refused while VALID is 1. -/
  | qbaseWrite (r : Requester) (q : BitVec 13) (v : Word)
  /-- QBIND_WRITE (R407). Binds a queue to a context, capturing its ROLE as EPOCH, or unbinds it. -/
  | qbindWrite (r : Requester) (q : BitVec 13) (v : Word)
  /-- DISCARD (R409). QCMD.DISCARD drops every element of a queue. -/
  | discard (r : Requester) (q : BitVec 13)
  /-- TAIL_DOORBELL (R425). An external producer advances TAIL of a PMODE 1 queue. -/
  | tailDoorbell (r : Requester) (q : BitVec 13) (idx : BitVec 17)
  /-- HEAD_DOORBELL (R426). An external consumer advances HEAD of a CKIND 5 queue. -/
  | headDoorbell (r : Requester) (q : BitVec 13) (idx : BitVec 17)
  /-- QMG_GRANT_CYCLE (R420). In each FCLK the queue manager grants up to 4 element transfers by rotating scan. -/
  | qmgGrantCycle
  /-- AGE_STEP (R427). At each AGE_STEP, waiting queues' AGE rises toward overdue. -/
  | ageStep
  /-- JOURNAL_TAKE (R435). The journal engine takes the next element of a round, checks it and stages the record with a JSN. -/
  | journalTake
  /-- CLOSE_TIMER (R448). CLOSE_MS passes since the batch's first record and the batch closes. -/
  | closeTimer
  /-- CLOSE (R474). JRN.CTRL.CLOSE closes the open batch. -/
  | close (r : Requester)
  /-- PAGE_PROGRAM_DONE (R449). A cartridge page program ends with pass or fail. -/
  | pageProgramDone (k : Fin 2) (pass : Bool)
  /-- JOURNAL_SIGNATURE_DONE (R447). The warden's signature for a SIGNED trailer is made. -/
  | journalSignatureDone
  /-- RECOVERY_SCAN (R454). The engine scans the active cartridges for the last valid trailer and checks the chain. -/
  | recoveryScan
  /-- SCAN_COMPLETE (R457). A clean scan loads PSN_MAX, seeds PSN_NEXT and opens intake. -/
  | scanComplete
  /-- ACCEPT (R456). A warden resumes a halted journal naming the cartridge whose journal stands. -/
  | accept (r : Requester) (k : Fin 2)
  /-- ROLL (R468). JRN.CTRL.ROLL moves the journal to the standby cartridge. -/
  | roll (r : Requester)
  /-- ROLLOVER_END (R468). The old cartridge is CLOSED, the new one ACTIVE, and the next batch opens with a link record. -/
  | rolloverEnd
  /-- STRIPE_ERASE (R460). The engine erases a stripe ahead of the write point. -/
  | stripeErase (k : Fin 2)
  /-- ERASE_DONE (R463). A block erase completes and wear copies are updated. -/
  | eraseDone (k : Fin 2) (fail0 : Bool) (fail1 : Bool)
  /-- READ_START (R458). RD_CTRL.START starts a read run of committed batches. -/
  | readStart (r : Requester)
  /-- READ_BATCH (R458). A read run copies one batch to DRAM, stopping at its end conditions. -/
  | readBatch
  /-- ARCHIVED_WRITE (R472). Raises ARCHIVED, or is ignored with code 0x15 when lower. -/
  | archivedWrite (r : Requester) (v : Word)
  /-- PRESENCE_DEBOUNCED (R466). A cartridge presence change survives 100 ms of debounce. -/
  | presenceDebounced (k : Fin 2) (cart : Option Cartridge)
  /-- CARTRIDGE_IDENTIFY (R462). After power-up, the cartridge is challenged and verified, then READY, CLOSED or REFUSED. -/
  | cartridgeIdentify (k : Fin 2) (how : IdentOutcome)
  /-- IDENTIFY (R476). CRT CTRL.IDENTIFY repeats identification or powers an EMPTY slot and identifies. -/
  | identify (r : Requester) (k : Fin 2)
  /-- POWER_OFF (R476). CRT CTRL.POWER_OFF powers a slot off for removal. -/
  | powerOff (r : Requester) (k : Fin 2)
  /-- WIPE_OK (R476). Permits erasing another journal's stripes on the cartridge. -/
  | wipeOk (r : Requester) (k : Fin 2)
  /-- COLLECTOR_PERIOD (R495). At each 125 µs collector period the weigh engine offers held and new elements in channel order. -/
  | collectorPeriod (bits : List (Nat × List Bool))
  /-- ZERO (R489). CMD.ZERO sets zero at the next stable sample within CMD_WAIT. -/
  | zero (r : Requester) (ch : Fin 64)
  /-- TARE (R490). CMD.TARE takes the rounded gross as tare. -/
  | tare (r : Requester) (ch : Fin 64)
  /-- TARE_CLR (R490). CMD.TARE_CLR clears the tare. -/
  | tareClr (r : Requester) (ch : Fin 64)
  /-- TARE_PRESET (R490). CMD.TARE_PRESET sets the tare from PRESET_TARE. -/
  | tarePreset (r : Requester) (ch : Fin 64)
  /-- SNAP (R493). CMD.SNAP produces a weight element now or at the next stable sample. -/
  | snap (r : Requester) (ch : Fin 64)
  /-- CMD_WAIT_EXPIRY (R489). A weighing command finds no stable sample within CMD_WAIT and ends with RESULT 2. -/
  | cmdWaitExpiry (ch : Fin 64)
  /-- ARM (R497). CHK_CTRL.ARM arms a weight check. -/
  | arm (r : Requester) (ch : Fin 64)
  /-- CANCEL (R497). CHK_CTRL.CANCEL ends an armed check with verdict 5. -/
  | cancel (r : Requester) (ch : Fin 64)
  /-- CHECK_TIMEOUT (R497). An armed check reaches TIMEOUT without a verdict and ends with verdict 3. -/
  | checkTimeout (ch : Fin 64)
  /-- CH_ENABLE (R485). A write of CH_CTRL.ENABLE enables or disables a weigh channel. -/
  | chEnable (r : Requester) (ch : Fin 64) (v : Word)
  /-- CLK_CFG_WRITE (R479). A write of the modulator clock configuration, refused while a clock is in use. -/
  | clkCfgWrite (r : Requester) (v : Word)
  /-- SEAL_OPEN (R502). A warden opens a channel's seal for a window after claiming its seal line. -/
  | sealOpen (r : Requester) (ch : Fin 64) (secs : BitVec 12)
  /-- SEAL_CLOSE (R508). A warden closes a channel's seal, discarding the staging copy. -/
  | sealClose (r : Requester) (ch : Fin 64)
  /-- SEAL_WINDOW_EXPIRY (R508). The seal's window expires and the seal closes. -/
  | sealWindowExpiry (ch : Fin 64)
  /-- SEAL_LINE_DEASSERT (R508). A required seal line deasserts and the seal closes. -/
  | sealLineDeassert (n : Fin 192)
  /-- COMMIT (R505). SEAL_CTRL.COMMIT checks the staged sealed set and commits it at the next period boundary. -/
  | commit (r : Requester) (ch : Fin 64)
  /-- SEAL_DISCARD (R508). SEAL_CTRL.DISCARD drops the staging copy without closing the seal. -/
  | sealDiscard (r : Requester) (ch : Fin 64)
  /-- CAL_ZERO (R504). Stages CAL_ZERO from a stable RAW. -/
  | calZero (r : Requester) (ch : Fin 64)
  /-- CAL_SPAN (R504). Stages SPAN from a stable RAW and CAL_REF. -/
  | calSpan (r : Requester) (ch : Fin 64)
  /-- SEALED_REGISTER_WRITE (R503). A write to a sealed register goes to the staging copy while the seal is open, else is ignored. -/
  | sealedRegisterWrite (r : Requester) (ch : Fin 64) (reg : Fin 11) (v : Word)
  /-- FILTER_ADJUST (R509). The filter governor changes or proposes K and MOTION_WIN for a channel. -/
  | filterAdjust (ch : Fin 64)
  /-- IIR_K_WRITE (R510). A write of IIR_K or MOTION_WIN within the sealed bounds takes effect at the next sample. -/
  | iirKWrite (r : Requester) (ch : Fin 64) (win : Bool) (v : Word)
  /-- CLAIM (R519). Claims a line, timer or pool quota for the requester. -/
  | claim (r : Requester) (v : Word)
  /-- RELEASE (R520). Releases a claimed line, timer or pool quota. -/
  | release (r : Requester) (v : Word)
  /-- BIND_ENABLE (R525). Setting a binding's ENABLE, refused under its checks. -/
  | bindEnable (r : Requester) (b : Fin 112) (v : Word)
  /-- RX_MESSAGE (R530). A framer completes or drops a received message under its profile. -/
  | rxMessage (b : Fin 304) (bytes : List Byte) (ending : RxEnd)
  /-- ITO_EXPIRY (R530). The inter-byte timeout expires, ending an END 2 frame or dropping a message. -/
  | itoExpiry (b : Fin 304)
  /-- MESSAGE_DELIVER (R527). A completed message is delivered inline or by reference once a transfer tag is free. -/
  | messageDeliver
  /-- TX_ELEMENT (R533). Lane I/O takes a transmit element when quota has room and frames it out. -/
  | txElement (t : Fin 312) (how : UsbOut)
  /-- TXQ_ENABLE (R533). Enabling a transmit queue, refused unless it has CKIND 2 and no other port. -/
  | txqEnable (r : Requester) (t : Fin 72) (v : Word)
  /-- PROFILE_VALID (R529). Setting or clearing a framing profile's VALID. -/
  | profileValid (r : Requester) (p : Fin 64) (v : Word)
  /-- AREA_VALID (R528). Setting a reference area's VALID, refused outside assigned DRAM. -/
  | areaValid (r : Requester) (a : Fin 32) (v : Word)
  /-- PORT_RESET (R535). PORT_CTRL.RESET drives a 50 ms USB bus reset. -/
  | portReset (r : Requester) (p : Fin 16)
  /-- PORT_RESET_DONE (R535). The bus reset ends, the speed is detected and ENABLED is set. -/
  | portResetDone (p : Fin 16) (speed : BitVec 2)
  /-- PIPE_ENABLE (R535). Enabling a USB pipe, refused for TYPE 3 or excess periodic bandwidth. -/
  | pipeEnable (r : Requester) (p : Fin 16) (k : Fin 16) (v : Word)
  /-- USB_POLL (R536). An IN pipe is polled, continuously for bulk or at its interval for interrupt. -/
  | usbPoll (p : Fin 16) (k : Fin 16) (how : UsbIn)
  /-- CONTROL_REQUEST (R537). A control request element from CTLQ is carried out on its pipe. -/
  | controlRequest (p : Fin 16) (how : CtlOut)
  /-- USB_DISCONNECT (R538). A device disconnects, halting every pipe of the port. -/
  | usbDisconnect (p : Fin 16)
  /-- USB_CONNECT (R551). A device attaches and CONNECT is set. -/
  | usbConnect (p : Fin 16)
  /-- UART_BREAK (R539). A break on a UART drops the message in progress. -/
  | uartBreak (u : Fin 48)
  /-- CAN_RX_FRAME (R542). A received CAN frame is matched against the filters and delivered. -/
  | canRxFrame (k : Fin 8) (how : CanRx)
  /-- CAN_TX_FRAME (R542). A CAN frame from the transmit queue is sent with arbitration and retries. -/
  | canTxFrame (k : Fin 8) (how : CanTx)
  /-- BUS_OFF_RECOVERY (R543). With AUTO set, the controller leaves bus-off after 128 recessive sequences. -/
  | busOffRecovery (k : Fin 8)
  /-- GP_CONDITION (R546). A general I/O line's condition arises and sets FLAG, with an event element if enabled. -/
  | gpCondition (n : Fin 192) (lvl : Bool)
  /-- GP_WRITE (R545). A write of a line's GPn register by its owner. -/
  | gpWrite (r : Requester) (n : Fin 192) (v : Word)
  /-- BANK_SUPPLY_FAULT (R544). A general I/O bank's supply is out of range and its lines are held at FUNC 0. -/
  | bankSupplyFault (k : Fin 12)
  /-- GO (R547). TMn_CFG.GO starts or restarts a timer. -/
  | go (r : Requester) (t : Fin 64) (v : Word)
  /-- TIMER_WRAP (R547). A timer reaches PERIOD, wraps or ends a one-shot and sets its flag. -/
  | timerWrap (t : Fin 64)
  /-- TIMER_CAPTURE (R547). An edge on the timer's line captures the count into MATCH. -/
  | timerCapture (t : Fin 64) (rising : Bool) (count : Word)
  /-- ETH_RX_FRAME (R555). A received Ethernet frame is filtered, steered and delivered by reference. -/
  | ethRxFrame (p : Fin 18) (frame : List Byte) (fcs : Bool)
  /-- PAUSE_RX (R557). A received PAUSE holds transmission. -/
  | pauseRx (p : Fin 18) (quanta : BitVec 16)
  /-- ETH_TX (R558). A port takes a transmit element and sends its frame. -/
  | ethTx (p : Fin 18)
  /-- TXREPORT (R558). After the last bit leaves, a transmit report is offered on TS_QUEUE. -/
  | txreport (p : Fin 18)
  /-- ETH_LINK_CHANGE (R589). An Ethernet port's link goes up or down. -/
  | ethLinkChange (p : Fin 18) (up : Bool) (speed : BitVec 2)
  /-- TB_SNAP (R561). TB_CTRL.SNAP latches the whole timebase. -/
  | tbSnap (r : Requester)
  /-- STEP (R561). TB_CTRL.STEP adds TB_OFFSET to the timebase. -/
  | step (r : Requester)
  /-- SET (R561). TB_CTRL.SET loads TB_SET_SEC as seconds. -/
  | set (r : Requester)
  /-- PCIE_LINK_CHANGE (R587). The PCIe link trains or goes down. -/
  | pcieLinkChange (up : Bool) (gen : BitVec 2) (width : BitVec 2)
  /-- HOST_BAR2_ACCESS (R563). A host access to DRAM through BAR 2, checked against HOST_KRR. -/
  | hostBar2Access (off : Word) (n : BitVec 13) (wr : Option (List Byte))
  /-- INBOUND_MSI (R564). An inbound MSI write sets a bit of MSI_STATUS in root-port role. -/
  | inboundMsi (data : BitVec 32)
  /-- OUTBOUND_ACCESS (R564). A root-port outbound access through a region or ECAM. -/
  | outboundAccess (a : Word) (n : BitVec 7) (wr : Option (List Byte)) (cpl : PciCpl)
  /-- OUTBOUND_FAIL (R565). An outbound access fails or times out and completes with all ones or a drop. -/
  | outboundFail (a : Word) (cause : Fin 3)
  /-- XCTRL_ENABLE (R567). Enabling an Ixlink port starts DETECT. -/
  | xctrlEnable (r : Requester) (p : Fin 2) (v : Word)
  /-- RETRAIN (R567). XCTRL.RETRAIN retrains a port. -/
  | retrain (r : Requester) (p : Fin 2)
  /-- IXL_TRAIN_STEP (R567). An Ixlink port advances through DETECT, POLL and CONFIG to ACTIVE or REFUSED. -/
  | ixlTrainStep (p : Fin 2) (w : BitVec 2) (peer : IxPeer)
  /-- IXL_RECOVERY (R567). Lost lock or CRC errors put an ACTIVE port in RECOVERY. -/
  | ixlRecovery (p : Fin 2)
  /-- IXL_DOWN_WAIT (R567). A DOWN port returns to DETECT after 100 ms. -/
  | ixlDownWait (p : Fin 2)
  /-- IXL_PACKET_RX (R570). A packet is received, checked, and taken or forwarded. -/
  | ixlPacketRx (p : Fin 2) (k : IxPkt) (crc : Bool)
  /-- ACK (R569). The neighbour acknowledges packets up to a SEQ. -/
  | ack (p : Fin 2) (k : IxPkt)
  /-- NAK (R569). The sender replays every packet from the named SEQ. -/
  | nak (p : Fin 2) (k : IxPkt)
  /-- CREDIT (R569). Credits are returned per virtual channel. -/
  | credit (p : Fin 2) (k : IxPkt)
  /-- POST_FWD (R572). A remote tally operation arrives at its owner's port 9. -/
  | postFwd (p : Fin 2) (k : IxPkt)
  /-- POST_DONE (R387). A remote completion returns to its issuing ticket or read. -/
  | postDone (p : Fin 2) (k : IxPkt)
  /-- QMSG (R573). A queue message from another device is written to its destination queue. -/
  | qmsg (p : Fin 2) (k : IxPkt)
  /-- QMSG_SEND (R573). The Ixlink consumes an element from a CKIND 4 queue and sends it as QMSG. -/
  | qmsgSend
  /-- CUT_AT (R582). A global cut instant T is received. -/
  | cutAt (p : Fin 2) (k : IxPkt)
  /-- CUT_INSTANT (R582). The device's timebase reaches T and its engine grants a global PCUT. -/
  | cutInstant
  /-- CUT_REPORT (R582). The primary records a device's cut result and B. -/
  | cutReport (p : Fin 2) (k : IxPkt)
  /-- CUT_RELEASE (R582). Each device releases its held GLOBAL cut. -/
  | cutRelease (p : Fin 2) (k : IxPkt)
  /-- GCUT_START (R582). GCUT_CTRL.START broadcasts CUT_AT with T. -/
  | gcutStart (r : Requester)
  /-- GCUT_RELEASE (R582). GCUT_CTRL.RELEASE broadcasts CUT_RELEASE. -/
  | gcutRelease (r : Requester)
  /-- GCUT_DEADLINE (R582). LEAD + 10 ms passes and the global cut is DONE with missing reports. -/
  | gcutDeadline
  /-- JSN_REQ (R579). The primary answers a JSN request with a grant. -/
  | jsnReq (p : Fin 2) (k : IxPkt)
  /-- JSN_GRANT (R579). A satellite receives a JSN grant block. -/
  | jsnGrant (p : Fin 2) (k : IxPkt)
  /-- JSN_GRANT_TIMEOUT (R579). A satellite waits 1 s for a grant and writes event 0x1308. -/
  | jsnGrantTimeout
  /-- HEARTBEAT (R575). A heartbeat is received and the primary claims are ranked. -/
  | heartbeat (p : Fin 2) (k : IxPkt)
  /-- HEARTBEAT_PERIOD (R576). Every HB_PERIOD the device sends a heartbeat. -/
  | heartbeatPeriod
  /-- DEVICE_NOT_LIVE (R576). No heartbeat from a device within HB_TIMEOUT; it is no longer live. -/
  | deviceNotLive (d : Fin 8)
  /-- ROUTE_TABLE (R580). A device applies a routing table to TLY.DEV_MAP. -/
  | routeTable (p : Fin 2) (k : IxPkt)
  /-- SEND (R580). RT_CTRL.SEND on the primary raises RT_EPOCH and broadcasts the table. -/
  | send (r : Requester)
  /-- MEM_RD (R574). A remote window read is performed at the target device. -/
  | memRd (p : Fin 2) (k : IxPkt)
  /-- MEM_RSP (R574). The answer of a remote window read returns. -/
  | memRsp (p : Fin 2) (k : IxPkt)
  /-- MEM_WR (R574). A remote window write is performed at the target device. -/
  | memWr (p : Fin 2) (k : IxPkt)
  /-- MEM_RD_TIMEOUT (R574). A remote window read with no answer for 1 ms returns all ones. -/
  | memRdTimeout (tag : BitVec 16)
  /-- TIME_SYNC (R581). A satellite corrects its timebase from the primary's time and forwards it. -/
  | timeSync (p : Fin 2) (k : IxPkt)
  /-- HANDOVER (R578). The target device takes the primary role from a HANDOVER packet. -/
  | handover (p : Fin 2) (k : IxPkt)
  /-- HANDOVER_GO (R578). A warden hands the primary role to a live target. -/
  | handoverGo (r : Requester) (target : BitVec 3)
  /-- WDOG_KICK (R592). A warden core restarts its own watchdog count. -/
  | wdogKick (r : Requester)
  /-- WDOG_EXPIRY (R592). A watchdog period is missed; a second miss restarts the warden core. -/
  | wdogExpiry (k : Fin 4)
  /-- REVOKE (R597). Burns the REVOKE fuse of a boot key. -/
  | revoke (r : Requester) (k : BitVec 2)
  /-- JOB_GO (R600). JOBc_CTRL.GO places a crypto job on a channel. -/
  | jobGo (r : Requester) (ch : Fin 4)
  /-- SHA256 (R602). Crypto job computing SHA-256. -/
  | sha256 (ch : Fin 4)
  /-- HMAC (R602). Crypto job computing HMAC-SHA-256. -/
  | hmac (ch : Fin 4)
  /-- GCM_ENC (R602). Crypto job encrypting with AES-GCM. -/
  | gcmEnc (ch : Fin 4)
  /-- GCM_DEC (R602). Crypto job decrypting and verifying with AES-GCM. -/
  | gcmDec (ch : Fin 4)
  /-- CTR (R602). Crypto job in AES counter mode. -/
  | ctr (ch : Fin 4)
  /-- CBC_ENC (R602). Crypto job encrypting with AES-CBC. -/
  | cbcEnc (ch : Fin 4)
  /-- CBC_DEC (R602). Crypto job decrypting with AES-CBC. -/
  | cbcDec (ch : Fin 4)
  /-- SIGN (R602). Crypto job making an ECDSA P-256 signature. -/
  | sign (ch : Fin 4)
  /-- VERIFY (R602). Crypto job verifying an ECDSA P-256 signature. -/
  | verify (ch : Fin 4)
  /-- ECDH (R602). Crypto job deriving a shared secret into a slot. -/
  | ecdh (ch : Fin 4)
  /-- GENERATE (R602). Crypto job generating a new key into a slot. -/
  | generate (ch : Fin 4)
  /-- PUBLIC (R602). Crypto job writing a slot's public point. -/
  | publicKey (ch : Fin 4)
  /-- UNWRAP (R602). Crypto job importing a wrapped key into a slot. -/
  | unwrap (ch : Fin 4)
  /-- RANDOM (R602). Crypto job writing DRBG output. -/
  | random (ch : Fin 4)
  /-- ERASE (R602). Crypto job erasing a key slot after its users end. -/
  | erase (ch : Fin 4)
  /-- LOADPUB (R602). Crypto job loading a public key into a slot. -/
  | loadpub (ch : Fin 4)
  /-- JOB_END (R601). A job ends, writing OUTLEN then STATUS and setting the channel's interrupt bit. -/
  | jobEnd (ch : Fin 4)
  /-- RNG_TEST_FAIL (R606). A noise source health test fails and random jobs end with ENTROPY. -/
  | rngTestFail (apt : Bool)
  /-- RESTART (R606). RNG_CTRL.RESTART restarts the random source and its tests. -/
  | restart (r : Requester)
  /-- RNG_READY (R606). 5 ms of passing tests sets RNG_STATUS.READY. -/
  | rngReady
  /-- RECORDER_EVENT (R608). A block raises an event into the recorder intake, or loses it when full. -/
  | recorderEvent (code : BitVec 16) (source : Byte) (sev : BitVec 3) (p0 : Word) (p1 : Word) (p2 : Word)
  /-- RECORDER_WRITE (R608). The recorder writes a record from its intake with the next SEQ. -/
  | recorderWrite
  /-- SW_EVENT (R611). SW_CTRL.GO writes a software event from the requester's own copy. -/
  | swEvent (r : Requester)
  /-- RD_SLOT_WRITE (R610). Selects a recorder slot whose bytes RD_W0 to RD_W7 show consistently. -/
  | rdSlotWrite (r : Requester) (slot : BitVec 16)
  /-- CLEAR_GO (R613). A warden starts a recorder clear, renewing NONCE and verifying the authorization. -/
  | clearGo (r : Requester)
  /-- CLEAR_VERIFIED (R613). The authorization verifies or fails; on success event 0x1601 is written and erasure starts. -/
  | clearVerified
  /-- CLEAR_ERASE_END (R613). Erasure of the covered records ends. -/
  | clearEraseEnd
  /-- MODE_WRITE (R622). A warden writes a governor's MODE. -/
  | modeWrite (r : Requester) (g : Fin 5) (mode : BitVec 2)
  /-- APPLY (R623). GCTRL.APPLY performs the proposed action if still valid. -/
  | apply (r : Requester) (g : Fin 5)
  /-- POWER_SAMPLE (R625). Every 1 ms the power governor reads sensors and steps at most one cluster. -/
  | powerSample (rails : Vector (BitVec 15) 24) (temps : Vector (BitVec 8) 16)
  /-- VOLTAGE_CONFIRMED (R627). READ_VOUT confirms a raised VDD and the pending clock step proceeds. -/
  | voltageConfirmed
  /-- PMB_ALERT (R629). PMB_ALERT_N low or failed transfers stop voltage raising and step-ups. -/
  | pmbAlert (transfer : Bool)
  /-- CORRECTED_ERROR (R630). A corrected error in a core is counted and may trigger substitution. -/
  | correctedError (clu : Fin 8) (phys : Fin 9)
  /-- CORE_UNCORRECTABLE (R630). An uncorrectable error in a core's state substitutes the core in every mode. -/
  | coreUncorrectable (c : Cid) (ea : Word) (acc : BitVec 2)
  /-- SUBSTITUTION (R633). A logical core's contexts move from its physical core to the spare. -/
  | substitution (clu : Fin 8) (lc : Fin 8)
  /-- SUBSTITUTION_RETRY (R632). A waiting substitution is retried every 1 ms. -/
  | substitutionRetry
  /-- COMET_STEP (R635). Every PERIOD / 8 the comet pass starts a step on the next cluster's next core. -/
  | cometStep
  /-- RUN (R635). COMET_CTRL.RUN takes the next comet step at once. -/
  | run (r : Requester)
  /-- RETEST (R631). A warden retests a failed core and returns it on a pass. -/
  | retest (r : Requester) (clu : Fin 8) (phys : Fin 9)
  /-- SELF_TEST_DONE (R636). A core's self-test ends; on a pass the contexts move back. -/
  | selfTestDone (pass : Bool)
  /-- PATROL_SCRUB (R637). The patrol scrub reads a DRAM line, correcting or marking it. -/
  | patrolScrub (line : BitVec 34) (e : EccErr)
  /-- CONFIRM (R639). RETIRE_CTRL CONFIRM retires the requested frame. -/
  | confirm (r : Requester)
  /-- DECLINE (R639). RETIRE_CTRL DECLINE closes the request without retiring. -/
  | decline (r : Requester)
  /-- RETIRE (R639). RETIRE_CTRL RETIRE retires any named frame. -/
  | retire (r : Requester) (frame : BitVec 28)
  /-- RETIRE_GRACE_EXPIRY (R639). In auto mode an open request is retired after RETIRE_GRACE. -/
  | retireGraceExpiry
  /-- LIST_CLEAR (R640). A warden clears the frame retirement list. -/
  | listClear (r : Requester)
  /-- WEAR_PROJECTION (R641). The wear governor projects days to 2 % and rolls over or proposes it. -/
  | wearProjection (slot : Fin 2) (rate : BitVec 24)
  /-- UPD_START (R642). UPD_CTRL.START begins a code-update handover to a half. -/
  | updStart (r : Requester) (half : Bool)
  /-- ABORT (R644). UPD_CTRL.ABORT ends the handover. -/
  | abort (r : Requester)
  /-- UPD_TIMEOUT_EXPIRY (R644). UPD_TIMEOUT passes before DONE and event 0x170C is written. -/
  | updTimeoutExpiry
  /-- PORST (R661). Cold reset on PORST_N low or power-up, resetting fields and latching straps. -/
  | porst (powerUp : Bool) (straps : BitVec 6) (pfailHigh : Bool)
  /-- PLL_LOCK (R653). The root PLL locks and boot step 2 powers the first domains. -/
  | pllLock
  /-- BOOT_VERIFY (R667). The ROM selects and verifies a code-store half and applies its key map. -/
  | bootVerify
  /-- CONFIG_TABLE_APPLY (R673). The ROM applies the image's configuration table entries. -/
  | configTableApply
  /-- DDR_TRAIN_DONE (R666). DDR5 training completes. -/
  | ddrTrainDone
  /-- BOOT_FLASH_RECHECK (R668). Every 10 s in recovery wait the ROM rechecks the boot flash. -/
  | bootFlashRecheck
  /-- PCIE_BOOT_TIMEOUT (R665). The 10 s wait for a host image under PCIe boot ends. -/
  | pcieBootTimeout
  /-- WRST (R662). Warm reset on WRST_N, stopping contexts and committing the journal before reset. -/
  | wrst
  /-- WARM (R660). RST_CTRL.WARM starts a software warm reset. -/
  | warm (r : Requester)
  /-- WARM_RESET_RESUME (R662). After step 3 and WRST_N high, boot steps 3 to 7 run. -/
  | warmResetResume
  /-- REFCLK_LOSS (R654). REFCLK stops or the PLL loses lock and holdover begins. -/
  | refclkLoss (refclk : Bool)
  /-- LOCK_REGAIN (R654). Lock returns within 1 s and holdover ends. -/
  | lockRegain
  /-- HOLDOVER_EXPIRY (R654). Holdover lasts 1 s and last gasp runs. -/
  | holdoverExpiry
  /-- PD_SWITCH (R658). PD_CTRL switches a cluster, weigh or network domain on or off. -/
  | pdSwitch (r : Requester) (v : Word)
  /-- PD_ON_DONE (R658). A switched-on domain is powered with its blocks at reset. -/
  | pdOnDone (n : Fin 20)
  /-- CODE_STORE_WRITE (R675). WR_CTRL.START copies lines into a half, clearing its COMMIT first. -/
  | codeStoreWrite (r : Requester) (flash : Bool)
  /-- CODE_STORE_WRITE_DONE (R675). The write completes with every line invalidated. -/
  | codeStoreWriteDone
  /-- CODE_STORE_COMMIT (R676). WR_CTRL.COMMIT checks, verifies and commits a half. -/
  | codeStoreCommit (r : Requester) (half : Bool)
  /-- CODE_STORE_COMMIT_DONE (R676). The commit ends with its RESULT and event 0x1502. -/
  | codeStoreCommitDone
  /-- PFAIL_EDGE (R677). PFAIL_N low for 200 ns starts the last-gasp sequence. -/
  | pfailEdge
  /-- LAST_GASP_END (R677). At event 0x0E0D or 35 ms the last powered domains switch off. -/
  | lastGaspEnd
  /-- ECLIPSE_N (R683). A falling edge on ECLIPSE_N starts a full eclipse. -/
  | eclipseN
  /-- FREEZE (R684). ECL_CTRL.FREEZE starts a full eclipse. -/
  | freeze (r : Requester)
  /-- PARTIAL (R687). ECL_CTRL.PARTIAL starts a partial eclipse of one cluster. -/
  | partialFreeze (r : Requester) (clu : Fin 8)
  /-- THAW (R686). ECL_CTRL.THAW restarts a frozen device or cluster. -/
  | thaw (r : Requester)
  /-- PARTIAL_FREEZE_DONE (R687). The cluster's caches are written back and its clocks stop. -/
  | partialFreezeDone
  /-- SKIP (R698). Exempts a context's next instruction from every comparator. -/
  | skip (r : Requester) (c : Cid)
  /-- TAP_RESET (R689). TRST_N low or five TMS-high TCK cycles reset the TAP. -/
  | tapReset
  /-- EXTEST (R689). TAP boundary-scan test instruction. -/
  | extest (cells : List Bool)
  /-- IDCODE (R689). TAP returns the 32-bit IDCODE. -/
  | idcode
  /-- SAMPLE_PRELOAD (R689). TAP samples or preloads the boundary scan. -/
  | samplePreload (cells : List Bool)
  /-- DUMP_PTR (R692). TAP sets the index of the next state-dump word. -/
  | dumpPtr (v : Word)
  /-- DUMP (R692). TAP captures the next state-dump chain word. -/
  | dump
  /-- TAP_FREEZE (R689). TAP FREEZE starts a full eclipse. -/
  | tapFreeze (b : Bool)
  /-- TAP_THAW (R689). TAP THAW thaws the device or the frozen cluster. -/
  | tapThaw (b : Bool)
  /-- DBGREG (R690). TAP reads or writes a DBG register through the eclipse controller. -/
  | dbgreg (off : Byte) (wr : Bool) (data : Word)
  /-- BYPASS (R689). TAP one-bit bypass. -/
  | bypass (code : Byte)
  /-- PDUMP_DATA_READ (R695). A read of PDUMP_DATA returns the next partial-dump word and advances PDUMP_PTR. -/
  | pdumpDataRead (r : Requester)
  /-- TRACE_RECORD (R699). The trace unit writes a record to its ring, or counts it lost. -/
  | traceRecord
  /-- TRACE_ENABLE (R699). Setting TR_CTRL.EN, refused when the ring is outside assigned DRAM. -/
  | traceEnable (r : Requester) (v : Word)
  /-- PFAIL_N_HIGH (R708). PFAIL_N has been high for 1 ms after a cold reset whose rise found it low, and the held boot proceeds past step 1. -/
  | pfailNHigh
  /-- SERIAL_REFERENCE_CHANGE (R655). SDREFCLK, PEREFCLK or USBREFCLK starts or stops, changing CLK_STATUS.REF_OK and whether its blocks' links can train. -/
  | serialReferenceChange (which : Fin 3) (present : Bool)
  /-- PAUSE_QUANTA_EXPIRY (R557). The pause time granted by a received PAUSE frame runs out and the port resumes transmission, clearing PSTATUS.PAUSED. -/
  | pauseQuantaExpiry (p : Fin 18)
  /-- CTS_CHANGE (R540). UAn_CTS changes level on a port with RTSCTS set, stopping sending at a character boundary or letting a held frame continue. -/
  | ctsChange (u : Fin 48) (lvl : Bool)
  /-- INBOUND_MEMORY_REQUEST (R564). In the root-port role, a memory request from the link reaches assigned DRAM after a HOST_KRR check, or is refused. -/
  | inboundMemoryRequest (a : BitVec 64) (n : BitVec 13) (wr : Option (List Byte))
  /-- PMB_ALERT_N_RELEASE (R629). PMB_ALERT_N returns high and, once a READ_VOUT succeeds, the power governor resumes raising voltage and stepping up. -/
  | pmbAlertNRelease
deriving DecidableEq, Repr

end Sys2Proof
end

