-- ==== Sys2Proof/Decode.lean ====
section
/-! DEFINITION. The command that a word of the opcode table spells. No row of the table gives bits, so no word spells one; the
encoding of the T6440's instruction words is in Machine/Encoding.lean. -/

namespace Sys2Proof

/-- The command of a table word: none, since the table's rows have no bits. DESIGN CHOICE, log 5. -/
def decodeTableWord (_nbits _w : Nat) : Option Instr := none

end Sys2Proof
end

