-- ==== Sys2Proof/Config.lean ====
section
/-! DEFINITION. The free values: constants with no body, so that nothing in Lean can evaluate them and a
claim holds whatever they are. Each is applied to the state's counter `free` or to the operands it
depends on. The assumption log names each one. -/

namespace Sys2Proof.Config

/-- A 40-bit value the spec leaves open, one per index. -/
opaque freeWord : Nat → Word
/-- A D-register value the spec leaves open, one per index. -/
opaque freeDWord : Nat → DWord
/-- A choice the spec leaves to the device (for example a cached or a current translation, R334). -/
opaque freeBool : Nat → Bool
/-- An unbounded value the spec leaves open, one per index. -/
opaque freeNat : Nat → Nat
/-- The LCLK cycle count of a logical core at a tick of the model's clock: timing is not modelled.
DESIGN CHOICE, log 11. -/
opaque cycles : Nat → Nat → Nat
/-- Bytes from the DRBG (R606), by draw index. DESIGN CHOICE, log 16. -/
opaque drbg : Nat → Nat → Byte
/-- The device identity private key that the boot ROM derives from the hardware unique secret (R598), as a
number from 1 to the group order less 1 before reduction. DESIGN CHOICE, log 17. -/
opaque deviceKey : Nat
/-- X ‖ Y of the cartridge root public key that the boot ROM loads (R598), by byte. -/
opaque cartridgeRoot : Nat → Byte
/-- The boot-key hashes of the fuses (R594): hash and byte. -/
opaque bootHash : Nat → Nat → Byte

/-- The length in words of a page's ARRAY section (R693). DESIGN CHOICE, log 40. -/
opaque dumpLen : Nat → Nat

end Sys2Proof.Config
end

