-- ==== Sys2Proof/Machine/Bits.lean ====
section
/-! DEFINITION. Bit fields, sign extension and byte order (R5, R50). -/

namespace Sys2Proof.Machine

/-- A field of a control register: the register's address, its lowest bit and its width. -/
structure Fld where
  addr : Nat
  lo : Nat
  len : Nat
deriving DecidableEq, Repr

/-- One row of the register table: offset, index strides and counts, level, masks and reset value. -/
structure RegRow where
  off : Nat
  s1 : Nat
  n1 : Nat
  s2 : Nat
  n2 : Nat
  expert : Bool
  reset : Nat
  rw : Nat
  wc : Nat
  ws : Nat
  wo : Nat
  clsB : Nat
  clsW : Nat
  clsC : Nat
deriving DecidableEq, Repr

/-- Bits [lo+len-1:lo] of a natural number. -/
def bitsOf (v lo len : Nat) : Nat := v / 2 ^ lo % 2 ^ len

/-- Bit `i` of a natural number. -/
def bitOf (v i : Nat) : Bool := v / 2 ^ i % 2 == 1

/-- The mask of a field of a 40-bit register. -/
def fieldMask (lo len : Nat) : Word := BitVec.ofNat 40 ((2 ^ len - 1) * 2 ^ lo)

/-- Read a field of a 40-bit register. -/
def getF (w : Word) (lo len : Nat) : Nat := (w.extractLsb' lo len).toNat

/-- Write a field of a 40-bit register, keeping the other bits. -/
def putF (w : Word) (lo len v : Nat) : Word :=
  (w &&& ~~~ fieldMask lo len) ||| (BitVec.ofNat 40 ((v % 2 ^ len) * 2 ^ lo))

/-- 1 for true. -/
def b2n (b : Bool) : Nat := if b then 1 else 0

/-- A natural number read as a two's-complement integer of width `w`. -/
def sint (w v : Nat) : Int := if v % 2 ^ w < 2 ^ (w - 1) then ((v % 2 ^ w : Nat) : Int) else (v % 2 ^ w : Nat) - (2 ^ w : Nat)

/-- An integer reduced modulo 2^w. -/
def umod (w : Nat) (i : Int) : Nat := (i % (2 ^ w : Nat)).toNat

/-- Sign-extend the low `n` bits of `v` to width `w`. -/
def sext (n w v : Nat) : Nat := umod w (sint n v)

/-- `n` bytes of a value, least significant first (R50). -/
def leBytes : Nat → Nat → List Byte
  | 0, _ => []
  | n + 1, v => BitVec.ofNat 8 v :: leBytes n (v / 256)

/-- The value of bytes, least significant first (R50). -/
def leVal : List Byte → Nat
  | [] => 0
  | b :: bs => b.toNat + 256 * leVal bs

/-- The value of bytes, most significant first. -/
def beVal (bs : List Byte) : Nat := leVal bs.reverse

/-- `n` bytes of a value, most significant first. -/
def beBytes (n v : Nat) : List Byte := (leBytes n v).reverse

/-- A saturating count of width `len`. -/
def satInc (len v : Nat) : Nat := if v + 1 < 2 ^ len then v + 1 else 2 ^ len - 1

end Sys2Proof.Machine
end

