-- ==== Sys2Proof/Machine/Bch.lean ====
section
/-! DEFINITION. The BCH code of cartridge pages (R441, R442): codewords over GF(2^15) with 1,080 parity bits, systematic and
narrow-sense. PRESUMED, log 53. -/

namespace Sys2Proof.Machine

/-- Multiply by x in GF(2^15), modulo x^15 + x + 1. -/
def gfX (a : BitVec 15) : BitVec 15 := if a.getLsbD 14 then (a <<< 1) ^^^ 3#15 else a <<< 1

/-- Multiply in GF(2^15). -/
def gf15Mul (a b : BitVec 15) : BitVec 15 :=
  (List.range 15).foldl (fun r i => gfX r ^^^ (if b.getMsbD i then a else 0)) 0

/-- A power of x. -/
def alphaPow (n : Nat) : BitVec 15 := (List.range n).foldl (fun a _ => gfX a) 1

/-- `n` conjugates of an element: each the square of the one before. -/
def conjugates : Nat → BitVec 15 → List (BitVec 15)
  | 0, _ => []
  | n + 1, a => a :: conjugates n (gf15Mul a a)

/-- The roots of the generator: the conjugates of the odd powers of x below 144. -/
def bchRoots : List (BitVec 15) := (List.range 72).flatMap (fun k => conjugates 15 (alphaPow (2 * k + 1)))

/-- A polynomial, lowest coefficient first, times the factor of a root. -/
def timesRoot (g : List (BitVec 15)) (r : BitVec 15) : List (BitVec 15) :=
  List.zipWith (· ^^^ ·) (0 :: g) (g.map (gf15Mul r) ++ [0])

/-- The generator below its leading term. -/
def bchGen : BitVec 1080 :=
  BitVec.ofNat 1080 (((bchRoots.foldl timesRoot [1]).take 1080).foldr (fun c n => 2 * n + c.toNat % 2) 0)

/-- One message bit enters the division. -/
def bchBit (g r : BitVec 1080) (b : Bool) : BitVec 1080 :=
  if r.getLsbD 1079 != b then (r <<< 1) ^^^ g else r <<< 1

/-- The 135 parity bytes of a codeword's bytes, most significant bit first. -/
def bchParity (bs : List Byte) : List Byte :=
  beBytes 135 (bs.foldl (fun r b => (List.range 8).foldl (fun r i => bchBit bchGen r (b.getMsbD i)) r) (0 : BitVec 1080)).toNat

/-- The bytes of a codeword that its parity covers: 2,048 data bytes, and the metadata in codeword 7. -/
def codewordMsg (data info : List Byte) (k : Nat) : List Byte :=
  (data.drop (2048 * k)).take 2048 ++ (if k = 7 then info else [])

/-- The spare bytes from 32 on, for a spare area of `spare` bytes (R441). -/
def pageSpare (spare : Nat) (data info : List Byte) : List Byte :=
  (List.range 8).flatMap (fun k => bchParity (codewordMsg data info k)) ++ List.replicate (spare - 1112) 0xFF

/-- Have bytes fewer than `n` zero bits? -/
def fewZeros : List Byte → Nat → Bool
  | [], n => decide (0 < n)
  | b :: bs, n =>
    let z := ((List.range 8).filter (fun i => !b.getLsbD i)).length
    if n ≤ z then false else fewZeros bs (n - z)

/-- Does a page read as erased: fewer than 16 zero bits in every codeword (R442)? -/
def readsErased (data info spare : List Byte) : Bool :=
  (List.range 8).all (fun k => fewZeros (codewordMsg data info k ++ (spare.drop (135 * k)).take 135) 16)

end Sys2Proof.Machine
end

