-- ==== Sys2Proof/Machine/Crypto.lean ====
section
/-! DEFINITION. The algorithms the spec names (R79, R447, R596, R602, R612): CRC-32, SHA-256, HMAC, AES-256 with
GCM, CTR and CBC, and P-256 with ECDSA and ECDH. CRC-32 is defined in R79; the others are the public standards of
those names, which the spec cites and does not restate (PRESUMED, log 21). -/

namespace Sys2Proof.Machine

/-! ### CRC-32 (R79) -/

/-- One bit of the reflected division. -/
def crcBit (c : BitVec 32) : BitVec 32 := if c.getLsbD 0 then (c >>> 1) ^^^ 0xEDB88320#32 else c >>> 1

/-- One byte. -/
def crcByte (c : BitVec 32) (b : Byte) : BitVec 32 :=
  crcBit (crcBit (crcBit (crcBit (crcBit (crcBit (crcBit (crcBit (c ^^^ b.zeroExtend 32))))))))

/-- CRC-32 of bytes. -/
def crc32 (bs : List Byte) : Nat := (bs.foldl crcByte 0xFFFFFFFF#32 ^^^ 0xFFFFFFFF#32).toNat

/-! ### SHA-256 and HMAC -/

/-- The first 64 primes: SHA-256 takes its constants from their roots. -/
def primes64 : List Nat :=
  [2, 3, 5, 7, 11, 13, 17, 19, 23, 29, 31, 37, 41, 43, 47, 53, 59, 61, 67, 71, 73, 79, 83, 89, 97, 101, 103, 107, 109, 113, 127, 131] ++
  [137, 139, 149, 151, 157, 163, 167, 173, 179, 181, 191, 193, 197, 199, 211, 223, 227, 229, 233, 239, 241, 251, 257, 263, 269, 271,
    277, 281, 283, 293, 307, 311]

/-- The first 32 bits of the fraction of the `k`-th root of a number below 512. -/
def rootBits (k n : Nat) : BitVec 32 :=
  BitVec.ofNat 32 ((List.range 37).foldl (fun r i => let t := r + 2 ^ (36 - i); if t ^ k ≤ n * 2 ^ (32 * k) then t else r) 0)

/-- The exclusive or of rotations of a word to the right. -/
def xorRot (x : BitVec 32) (ns : List Nat) : BitVec 32 := ns.foldl (fun y n => y ^^^ x.rotateRight n) 0

/-- Word `i` of a list. -/
def wordAt (l : List (BitVec 32)) (i : Nat) : BitVec 32 := l.getD i 0

/-- A step of the compression: `q` holds the eight variables a to h and the next 16 words of the schedule. -/
def shaStep (q : List (BitVec 32) × List (BitVec 32)) (prime : Nat) : List (BitVec 32) × List (BitVec 32) :=
  let v := wordAt q.1
  let w := wordAt q.2
  let ch := v 6 ^^^ (v 4 &&& (v 5 ^^^ v 6))
  let maj := (v 0 &&& v 1) ||| (v 2 &&& (v 0 ||| v 1))
  let t := v 7 + ch + xorRot (v 4) [6, 11, 25] + rootBits 3 prime + w 0
  let fresh := w 0 + w 9 + (xorRot (w 1) [7, 18] ^^^ (w 1 >>> 3)) + (xorRot (w 14) [17, 19] ^^^ (w 14 >>> 10))
  ((t + maj + xorRot (v 0) [2, 13, 22]) :: q.1.take 3 ++ (v 3 + t) :: (q.1.drop 4).take 3, q.2.drop 1 ++ [fresh])

/-- The hash value after `n` more blocks of padded bytes. -/
def shaBlocks : Nat → List Byte → List (BitVec 32) → List (BitVec 32)
  | 0, _, h => h
  | n + 1, bs, h =>
    let blk := (List.range 16).map (fun i => BitVec.ofNat 32 (beVal ((bs.drop (4 * i)).take 4)))
    shaBlocks n (bs.drop 64) (List.zipWith (· + ·) h (primes64.foldl shaStep (h, blk)).1)

/-- SHA-256 of bytes: a one bit, zeros and the bit count end the last block. PRESUMED, log 21. -/
def sha256 (m : List Byte) : List Byte :=
  let fill := (119 - m.length % 64) % 64
  let p := m ++ 0x80#8 :: List.replicate fill 0 ++ beBytes 8 (8 * m.length)
  (shaBlocks (p.length / 64) p ((primes64.take 8).map (rootBits 2))).flatMap (fun w => beBytes 4 w.toNat)

/-- HMAC-SHA-256 with a 32-byte key. -/
def hmac256 (k m : List Byte) : List Byte :=
  let kk := (k ++ List.replicate 64 0).take 64
  sha256 (kk.map (· ^^^ 0x5C#8) ++ sha256 (kk.map (· ^^^ 0x36#8) ++ m))

/-! ### AES-256 -/

/-- Multiply by x in the AES field. -/
def xtime (a : Byte) : Byte := if a.getLsbD 7 then (a <<< 1) ^^^ 0x1B#8 else a <<< 1

/-- Multiply in the AES field, over the low `n` bits of `b`. -/
def gmul (a : Byte) (b : Nat) : Nat → Byte
  | 0 => 0
  | n + 1 => (if bitOf b 0 then a else 0) ^^^ gmul (xtime a) (b / 2) n

/-- The inverse in the AES field: the 254th power. -/
def ginv (a : Byte) : Byte :=
  let m (x y : Byte) := gmul x y.toNat 8
  let a2 := m a a
  let a4 := m a2 a2
  let a8 := m a4 a4
  let a16 := m a8 a8
  let a32 := m a16 a16
  let a64 := m a32 a32
  m (m (m (m (m (m (m a64 a64) a64) a32) a16) a8) a4) a2

/-- The S-box. -/
def sbox (a : Byte) : Byte :=
  let b := ginv a
  b ^^^ b.rotateLeft 1 ^^^ b.rotateLeft 2 ^^^ b.rotateLeft 3 ^^^ b.rotateLeft 4 ^^^ 0x63#8

/-- The inverse S-box. -/
def sboxInv (a : Byte) : Byte := ginv (a.rotateLeft 1 ^^^ a.rotateLeft 3 ^^^ a.rotateLeft 6 ^^^ 0x05#8)

/-- Exclusive or of byte lists. -/
def xorBytes (a b : List Byte) : List Byte := List.zipWith (· ^^^ ·) a b

/-- The next `n` key schedule words, most recent first, from word number `i`. -/
def aesSched : Nat → Nat → Byte → List (List Byte) → List (List Byte)
  | 0, _, _, w => w
  | n + 1, i, rc, w =>
    let t := w.getD 0 []
    let u := if i % 8 = 0 then xorBytes ((t.drop 1 ++ t.take 1).map sbox) [rc, 0, 0, 0]
      else if i % 8 = 4 then t.map sbox else t
    aesSched n (i + 1) (if i % 8 = 0 then xtime rc else rc) (xorBytes u (w.getD 7 []) :: w)

/-- Cut bytes into `n` pieces of `k`. -/
def chunks (k : Nat) : Nat → List Byte → List (List Byte)
  | 0, _ => []
  | n + 1, bs => bs.take k :: chunks k n (bs.drop k)

/-- The 15 round keys. -/
def aesKeys (key : List Byte) : List (List Byte) :=
  chunks 16 15 (aesSched 52 8 1 (chunks 4 8 key).reverse).reverse.flatten

/-- Byte `i` of a block. -/
def blkAt (s : List Byte) (i : Nat) : Byte := s.getD i 0

/-- ShiftRows and its inverse: byte r + 4c comes from column c + r or c − r. -/
def shiftRows (s : List Byte) : List Byte := (List.range 16).map (fun i => blkAt s (i % 4 + 4 * ((i / 4 + i % 4) % 4)))
def shiftRowsInv (s : List Byte) : List Byte := (List.range 16).map (fun i => blkAt s (i % 4 + 4 * ((i / 4 + 4 - i % 4) % 4)))

/-- MixColumns with the coefficients of row 0. -/
def mixCols (k0 k1 k2 k3 : Nat) (s : List Byte) : List Byte := (List.range 16).map (fun i =>
  let b (j : Nat) := blkAt s (4 * (i / 4) + (i + j) % 4)
  gmul (b 0) k0 4 ^^^ gmul (b 1) k1 4 ^^^ gmul (b 2) k2 4 ^^^ gmul (b 3) k3 4)

/-- AES-256 of a block. -/
def aesEnc (key blk : List Byte) : List Byte :=
  let ks := aesKeys key
  let s := (List.range 13).foldl (fun s r => xorBytes (mixCols 2 3 1 1 (shiftRows (s.map sbox))) (ks.getD (r + 1) []))
    (xorBytes blk (ks.getD 0 []))
  xorBytes (shiftRows (s.map sbox)) (ks.getD 14 [])

/-- The inverse cipher. -/
def aesDec (key blk : List Byte) : List Byte :=
  let ks := aesKeys key
  let s := (List.range 13).foldl (fun s r => mixCols 14 11 13 9 (xorBytes ((shiftRowsInv s).map sboxInv) (ks.getD (13 - r) [])))
    (xorBytes blk (ks.getD 14 []))
  xorBytes ((shiftRowsInv s).map sboxInv) (ks.getD 0 [])

/-- Counter mode over `n` blocks, the counter's low `w` bits counting. -/
def ctrBlocks (key : List Byte) (w : Nat) : Nat → Nat → List Byte → List Byte
  | 0, _, _ => []
  | n + 1, c, bs =>
    xorBytes (bs.take 16) (aesEnc key (beBytes 16 c)) ++
      ctrBlocks key w n (c / 2 ^ w * 2 ^ w + (c + 1) % 2 ^ w) (bs.drop 16)

/-- CTR (R602): the 16-byte counter block counts as a 128-bit number. -/
def aesCtr (key ctr m : List Byte) : List Byte := ctrBlocks key 128 ((m.length + 15) / 16) (beVal ctr) m

/-- CBC encryption and decryption of `n` blocks. -/
def cbcEnc (key : List Byte) : Nat → List Byte → List Byte → List Byte
  | 0, _, _ => []
  | n + 1, iv, bs => let c := aesEnc key (xorBytes (bs.take 16) iv); c ++ cbcEnc key n c (bs.drop 16)
def cbcDec (key : List Byte) : Nat → List Byte → List Byte → List Byte
  | 0, _, _ => []
  | n + 1, iv, bs => xorBytes (aesDec key (bs.take 16)) iv ++ cbcDec key n (bs.take 16) (bs.drop 16)

/-- Multiplication in the field of GCM, over the `n` high bits of `x`. -/
def gfMul (x v : BitVec 128) : Nat → BitVec 128
  | 0 => 0
  | n + 1 => (if x.getMsbD 0 then v else 0) ^^^
      gfMul (x <<< 1) (if v.getLsbD 0 then (v >>> 1) ^^^ (0xE1#128 <<< 120) else v >>> 1) n

/-- GHASH. -/
def ghash (h : BitVec 128) : Nat → List Byte → BitVec 128 → BitVec 128
  | 0, _, y => y
  | n + 1, bs, y => ghash h n (bs.drop 16) (gfMul (y ^^^ BitVec.ofNat 128 (beVal (bs.take 16))) h 128)

/-- Bytes padded with zeros to whole blocks. -/
def pad16 (bs : List Byte) : List Byte := bs ++ List.replicate ((16 - bs.length % 16) % 16) 0

/-- The GCM tag of associated data and ciphertext, under a 12-byte IV. -/
def gcmTag (key iv aad ct : List Byte) : List Byte :=
  let h := BitVec.ofNat 128 (beVal (aesEnc key (List.replicate 16 0)))
  let m := pad16 aad ++ pad16 ct ++ beBytes 8 (8 * aad.length) ++ beBytes 8 (8 * ct.length)
  xorBytes (beBytes 16 (ghash h (m.length / 16) m 0).toNat) (aesEnc key (iv ++ [0, 0, 0, 1]))

/-- GCM's counter mode. -/
def gcmCtr (key iv m : List Byte) : List Byte := ctrBlocks key 32 ((m.length + 15) / 16) (beVal iv * 2 ^ 32 + 2) m

/-! ### P-256 -/

/-- The field prime, the coefficient b, the group order and the base point. -/
def p256P : Nat := 0xffffffff00000001000000000000000000000000ffffffffffffffffffffffff
def p256B : Nat := 0x5ac635d8aa3a93e7b3ebbd55769886bc651d06b0cc53b0f63bce3c3e27d2604b
def p256N : Nat := 0xffffffff00000000ffffffffffffffffbce6faada7179e84f3b9cac2fc632551
def p256G : Option (Nat × Nat) :=
  some (0x6b17d1f2e12c4247f8bce6e563a440f277037d812deb33a0f4a13945d898c296,
    0x4fe342e2fe1a7f9b8ee7eb4a7c0f9e162bce33576b315ececbb6406837bf51f5)

/-- `b` to the power `e` modulo `m`, over `n` bits of `e`. -/
def powMod (m : Nat) : Nat → Nat → Nat → Nat
  | 0, _, _ => 1 % m
  | n + 1, b, e => let r := powMod m n (b * b % m) (e / 2); if e % 2 = 1 then r * b % m else r

/-- The inverse modulo a prime. -/
def invMod (m a : Nat) : Nat := powMod m 256 (a % m) (m - 2)

/-- Addition of points; `none` is the point at infinity. -/
def ptAdd (a b : Option (Nat × Nat)) : Option (Nat × Nat) :=
  match a, b with
  | none, q => q
  | p, none => p
  | some (x1, y1), some (x2, y2) =>
    let p := p256P
    if x1 = x2 ∧ (y1 + y2) % p = 0 then none
    else
      let l := if x1 = x2 then 3 * (x1 * x1 + p - 1) * invMod p (2 * y1) % p
        else (y2 + p - y1) * invMod p (x2 + p - x1) % p
      let x3 := (l * l + 2 * p - x1 - x2) % p
      some (x3, (l * (x1 + p - x3) + p - y1) % p)

/-- A multiple of a point, over `n` bits of `k`. -/
def ptMul : Nat → Nat → Option (Nat × Nat) → Option (Nat × Nat)
  | 0, _, _ => none
  | n + 1, k, q => let r := ptMul n (k / 2) (ptAdd q q); if k % 2 = 1 then ptAdd r q else r

/-- X ‖ Y of a point. -/
def ptBytes (q : Option (Nat × Nat)) : List Byte :=
  match q with
  | some (x, y) => beBytes 32 x ++ beBytes 32 y
  | none => List.replicate 64 0

/-- The point of X ‖ Y, when it is on the curve. -/
def ptOf (bs : List Byte) : Option (Nat × Nat) :=
  let x := beVal (bs.take 32)
  let y := beVal ((bs.drop 32).take 32)
  if x < p256P ∧ y < p256P ∧ y * y % p256P = (x * x * x + (p256P - 3) * x + p256B) % p256P then some (x, y) else none

/-- A private key from a number. -/
def privOf (n : Nat) : Nat := 1 + n % (p256N - 1)

/-- The public point of a private key. -/
def p256Public (d : Nat) : List Byte := ptBytes (ptMul 256 d p256G)

/-- The ECDSA signature r ‖ s of a digest under private key `d` with nonce `k`. -/
def ecdsaSign (d k : Nat) (digest : List Byte) : List Byte :=
  let r := match ptMul 256 k p256G with | some (x, _) => x % p256N | none => 0
  let s := invMod p256N k * (beVal digest + r * d) % p256N
  beBytes 32 r ++ beBytes 32 s

/-- Does the signature r ‖ s of a digest verify under the public key X ‖ Y? -/
def ecdsaVerify (pub digest sig : List Byte) : Bool :=
  match ptOf pub with
  | none => false
  | some q =>
    let r := beVal (sig.take 32)
    let s := beVal ((sig.drop 32).take 32)
    if 0 < r ∧ r < p256N ∧ 0 < s ∧ s < p256N then
      let w := invMod p256N s
      match ptAdd (ptMul 256 (beVal digest * w % p256N) p256G) (ptMul 256 (r * w % p256N) (some q)) with
      | some (x, _) => x % p256N == r
      | none => false
    else false

end Sys2Proof.Machine
end

