-- ==== Sys2Proof/Machine/RegMap.lean ====
section
/-! DEFINITION. The control-space register map: for every register of the spec's offset tables its
address (namespace `R`), and for every field of its bits tables its place (namespace `F`).
A page that exists once has absolute addresses; a page that exists several times takes its base `p`.
`i` and `j` are the indices the table names. Transcribed from the tables of the chapters cited. -/

namespace Sys2Proof.Machine

/-! ### HDR (R35-R45) -/

/-- `PG_ID` at 0x000. -/
def R.HDR.PG_ID (p : Nat) : Nat := p + 0x0
/-- `PG_CAP` at 0x008. -/
def R.HDR.PG_CAP (p : Nat) : Nat := p + 0x8
/-- `PG_CTRL` at 0x010. -/
def R.HDR.PG_CTRL (p : Nat) : Nat := p + 0x10
/-- `PG_STATUS` at 0x018. -/
def R.HDR.PG_STATUS (p : Nat) : Nat := p + 0x18
/-- `PG_INT_STATUS` at 0x020. -/
def R.HDR.PG_INT_STATUS (p : Nat) : Nat := p + 0x20
/-- `PG_INT_ENABLE` at 0x028. -/
def R.HDR.PG_INT_ENABLE (p : Nat) : Nat := p + 0x28
/-- `PG_ERR_SYNDROME` at 0x030. -/
def R.HDR.PG_ERR_SYNDROME (p : Nat) : Nat := p + 0x30
/-- `PG_LOCK` at 0x038. -/
def R.HDR.PG_LOCK (p : Nat) : Nat := p + 0x38
def F.HDR.PG_ID.VERSION (p : Nat) : Fld := ⟨R.HDR.PG_ID p, 0, 8⟩
def F.HDR.PG_ID.INSTANCE (p : Nat) : Fld := ⟨R.HDR.PG_ID p, 8, 8⟩
def F.HDR.PG_ID.TYPE (p : Nat) : Fld := ⟨R.HDR.PG_ID p, 16, 16⟩
def F.HDR.PG_CAP.EXPERT_PRESENT (p : Nat) : Fld := ⟨R.HDR.PG_CAP p, 0, 1⟩
def F.HDR.PG_CAP.RESTART_PRESENT (p : Nat) : Fld := ⟨R.HDR.PG_CAP p, 1, 1⟩
def F.HDR.PG_CAP.INT_PRESENT (p : Nat) : Fld := ⟨R.HDR.PG_CAP p, 2, 1⟩
def F.HDR.PG_CAP.PAGES (p : Nat) : Fld := ⟨R.HDR.PG_CAP p, 8, 8⟩
def F.HDR.PG_CAP.BLOCK_CAP (p : Nat) : Fld := ⟨R.HDR.PG_CAP p, 16, 24⟩
def F.HDR.PG_CTRL.ENABLE (p : Nat) : Fld := ⟨R.HDR.PG_CTRL p, 0, 1⟩
def F.HDR.PG_CTRL.EXPERT (p : Nat) : Fld := ⟨R.HDR.PG_CTRL p, 1, 1⟩
def F.HDR.PG_CTRL.BLOCK_RESET (p : Nat) : Fld := ⟨R.HDR.PG_CTRL p, 2, 1⟩
def F.HDR.PG_STATUS.RUNNING (p : Nat) : Fld := ⟨R.HDR.PG_STATUS p, 0, 1⟩
def F.HDR.PG_STATUS.RESTARTING (p : Nat) : Fld := ⟨R.HDR.PG_STATUS p, 1, 1⟩
def F.HDR.PG_STATUS.LOCKED (p : Nat) : Fld := ⟨R.HDR.PG_STATUS p, 2, 1⟩
def F.HDR.PG_STATUS.BLOCK_STATUS (p : Nat) : Fld := ⟨R.HDR.PG_STATUS p, 8, 32⟩
def F.HDR.PG_LOCK.KEY (p : Nat) : Fld := ⟨R.HDR.PG_LOCK p, 0, 4⟩
def F.HDR.PG_LOCK.LOCK (p : Nat) : Fld := ⟨R.HDR.PG_LOCK p, 8, 1⟩
def F.HDR.PG_ERR_SYNDROME.CODE (p : Nat) : Fld := ⟨R.HDR.PG_ERR_SYNDROME p, 0, 8⟩
def F.HDR.PG_ERR_SYNDROME.OFFSET (p : Nat) : Fld := ⟨R.HDR.PG_ERR_SYNDROME p, 8, 12⟩
def F.HDR.PG_ERR_SYNDROME.PL (p : Nat) : Fld := ⟨R.HDR.PG_ERR_SYNDROME p, 20, 2⟩
def F.HDR.PG_ERR_SYNDROME.WRITE (p : Nat) : Fld := ⟨R.HDR.PG_ERR_SYNDROME p, 22, 1⟩
def F.HDR.PG_ERR_SYNDROME.INTERNAL (p : Nat) : Fld := ⟨R.HDR.PG_ERR_SYNDROME p, 23, 1⟩
def F.HDR.PG_ERR_SYNDROME.OVF (p : Nat) : Fld := ⟨R.HDR.PG_ERR_SYNDROME p, 39, 1⟩
def F.HDR.PG_INT_STATUS.ERR (p : Nat) : Fld := ⟨R.HDR.PG_INT_STATUS p, 0, 1⟩
def F.HDR.PG_INT_STATUS.EVENT (p k : Nat) : Fld := ⟨R.HDR.PG_INT_STATUS p, 1 * k, 1⟩
def F.HDR.PG_INT_ENABLE.EVENT (p k : Nat) : Fld := ⟨R.HDR.PG_INT_ENABLE p, 1 * k, 1⟩

/-! ### CLU (R109) -/

/-- `CORE_MAP` at 0x040. -/
def R.CLU.CORE_MAP (p : Nat) : Nat := p + 0x40
/-- `CONJ_CTRL` at 0x048. -/
def R.CLU.CONJ_CTRL (p : Nat) : Nat := p + 0x48
/-- `CONJ_STATUS` at 0x050. -/
def R.CLU.CONJ_STATUS (p : Nat) : Nat := p + 0x50
/-- `CLK_STATUS` at 0x058. -/
def R.CLU.CLK_STATUS (p : Nat) : Nat := p + 0x58
def F.CLU.CONJ_CTRL.REQ (p : Nat) : Fld := ⟨R.CLU.CONJ_CTRL p, 0, 4⟩
def F.CLU.CORE_MAP.LC (p k : Nat) : Fld := ⟨R.CLU.CORE_MAP p, 4 * k, 4⟩
def F.CLU.CORE_MAP.SPARE (p : Nat) : Fld := ⟨R.CLU.CORE_MAP p, 32, 4⟩
def F.CLU.CONJ_STATUS.JOINED (p k : Nat) : Fld := ⟨R.CLU.CONJ_STATUS p, 1 * k, 1⟩
def F.CLU.CONJ_STATUS.BUSY (p k : Nat) : Fld := ⟨R.CLU.CONJ_STATUS p, 4 + 1 * k, 1⟩
def F.CLU.CONJ_STATUS.RESULT (p k : Nat) : Fld := ⟨R.CLU.CONJ_STATUS p, 8 + 4 * k, 4⟩
def F.CLU.CLK_STATUS.STEP (p : Nat) : Fld := ⟨R.CLU.CLK_STATUS p, 0, 2⟩
def F.CLU.CLK_STATUS.CHANGES (p : Nat) : Fld := ⟨R.CLU.CLK_STATUS p, 8, 32⟩

/-! ### CORE (R300, R304) -/

/-- `CORE_STATUS` at 0x040. -/
def R.CORE.CORE_STATUS (p : Nat) : Nat := p + 0x40
/-- `CTX_STATE` at 0x048. -/
def R.CORE.CTX_STATE (p : Nat) : Nat := p + 0x48
/-- `CTX_CTRL` at 0x050. -/
def R.CORE.CTX_CTRL (p : Nat) : Nat := p + 0x50
/-- `CTX_PC` at 0x100. -/
def R.CORE.CTX_PC (p i : Nat) : Nat := p + 0x100 + 0x20 * i
/-- `CTX_CFG` at 0x108. -/
def R.CORE.CTX_CFG (p i : Nat) : Nat := p + 0x108 + 0x20 * i
/-- `CTX_RESCUE` at 0x110. -/
def R.CORE.CTX_RESCUE (p i : Nat) : Nat := p + 0x110 + 0x20 * i
/-- `CTX_HALT` at 0x118. -/
def R.CORE.CTX_HALT (p i : Nat) : Nat := p + 0x118 + 0x20 * i
/-- `CE_COUNT` at 0x058. -/
def R.CORE.CE_COUNT (p : Nat) : Nat := p + 0x58
/-- `TEST` at 0x060. -/
def R.CORE.TEST (p : Nat) : Nat := p + 0x60
/-- `CTX_ROLESLOT` at 0x200. -/
def R.CORE.CTX_ROLESLOT (p i : Nat) : Nat := p + 0x200 + 0x8 * i
def F.CORE.CORE_STATUS.LOGICAL (p : Nat) : Fld := ⟨R.CORE.CORE_STATUS p, 0, 3⟩
def F.CORE.CORE_STATUS.SERVING (p : Nat) : Fld := ⟨R.CORE.CORE_STATUS p, 3, 1⟩
def F.CORE.CORE_STATUS.MOVING (p : Nat) : Fld := ⟨R.CORE.CORE_STATUS p, 4, 1⟩
def F.CORE.CORE_STATUS.FB_HELD (p : Nat) : Fld := ⟨R.CORE.CORE_STATUS p, 5, 1⟩
def F.CORE.CORE_STATUS.FB_CTX (p : Nat) : Fld := ⟨R.CORE.CORE_STATUS p, 6, 3⟩
def F.CORE.CTX_STATE.ST (p k : Nat) : Fld := ⟨R.CORE.CTX_STATE p, 2 * k, 2⟩
def F.CORE.CTX_CTRL.START (p : Nat) : Fld := ⟨R.CORE.CTX_CTRL p, 0, 8⟩
def F.CORE.CTX_CTRL.HALT (p : Nat) : Fld := ⟨R.CORE.CTX_CTRL p, 8, 8⟩
def F.CORE.CTX_CTRL.ROLE_INC (p : Nat) : Fld := ⟨R.CORE.CTX_CTRL p, 16, 8⟩
def F.CORE.CTX_PC.PC (p i : Nat) : Fld := ⟨R.CORE.CTX_PC p i, 0, 40⟩
def F.CORE.CTX_CFG.PRIO (p i : Nat) : Fld := ⟨R.CORE.CTX_CFG p i, 0, 3⟩
def F.CORE.CTX_CFG.RBUSY (p i : Nat) : Fld := ⟨R.CORE.CTX_CFG p i, 8, 1⟩
def F.CORE.CTX_RESCUE.VALID (p i : Nat) : Fld := ⟨R.CORE.CTX_RESCUE p i, 0, 1⟩
def F.CORE.CTX_RESCUE.BASE (p i : Nat) : Fld := ⟨R.CORE.CTX_RESCUE p i, 9, 31⟩
def F.CORE.CTX_HALT.REASON (p i : Nat) : Fld := ⟨R.CORE.CTX_HALT p i, 0, 3⟩
def F.CORE.CTX_HALT.VECTOR (p i : Nat) : Fld := ⟨R.CORE.CTX_HALT p i, 3, 6⟩
def F.CORE.CE_COUNT.WINDOW (p : Nat) : Fld := ⟨R.CORE.CE_COUNT p, 0, 16⟩
def F.CORE.CE_COUNT.TOTAL (p : Nat) : Fld := ⟨R.CORE.CE_COUNT p, 16, 24⟩
def F.CORE.TEST.RESULT (p : Nat) : Fld := ⟨R.CORE.TEST p, 0, 2⟩
def F.CORE.TEST.PASSES (p : Nat) : Fld := ⟨R.CORE.TEST p, 8, 32⟩
def F.CORE.CTX_ROLESLOT.SLOT (p i : Nat) : Fld := ⟨R.CORE.CTX_ROLESLOT p i, 0, 8⟩
def F.CORE.CTX_ROLESLOT.VALID (p i : Nat) : Fld := ⟨R.CORE.CTX_ROLESLOT p i, 8, 1⟩
def F.CORE.CTX_ROLESLOT.DONE (p i : Nat) : Fld := ⟨R.CORE.CTX_ROLESLOT p i, 9, 1⟩
def F.CORE.CTX_ROLESLOT.NOENTRY (p i : Nat) : Fld := ⟨R.CORE.CTX_ROLESLOT p i, 10, 1⟩

/-! ### SYS (R300, R304) -/

/-- `IRT_WRITE` at 0x048. -/
def R.SYS.IRT_WRITE : Nat := 0xFFF0000048
/-- `IRT_SELECT` at 0x050. -/
def R.SYS.IRT_SELECT : Nat := 0xFFF0000050
/-- `IRT_READ` at 0x058. -/
def R.SYS.IRT_READ : Nat := 0xFFF0000058
/-- `HALT_QUEUE` at 0x060. -/
def R.SYS.HALT_QUEUE : Nat := 0xFFF0000060
/-- `SWI` at 0x068. -/
def R.SYS.SWI : Nat := 0xFFF0000068
/-- `EXPERT_GRANT` at 0x040. -/
def R.SYS.EXPERT_GRANT : Nat := 0xFFF0000040
def F.SYS.EXPERT_GRANT.CLU : Fld := ⟨R.SYS.EXPERT_GRANT, 0, 8⟩
def F.SYS.EXPERT_GRANT.TLY : Fld := ⟨R.SYS.EXPERT_GRANT, 8, 1⟩
def F.SYS.EXPERT_GRANT.QMG : Fld := ⟨R.SYS.EXPERT_GRANT, 9, 1⟩
def F.SYS.EXPERT_GRANT.JRN : Fld := ⟨R.SYS.EXPERT_GRANT, 10, 1⟩
def F.SYS.EXPERT_GRANT.WGH : Fld := ⟨R.SYS.EXPERT_GRANT, 11, 1⟩
def F.SYS.EXPERT_GRANT.LIO : Fld := ⟨R.SYS.EXPERT_GRANT, 12, 1⟩
def F.SYS.EXPERT_GRANT.NET : Fld := ⟨R.SYS.EXPERT_GRANT, 13, 1⟩
def F.SYS.EXPERT_GRANT.PCI : Fld := ⟨R.SYS.EXPERT_GRANT, 14, 1⟩
def F.SYS.EXPERT_GRANT.IXL : Fld := ⟨R.SYS.EXPERT_GRANT, 15, 1⟩
def F.SYS.EXPERT_GRANT.DDR : Fld := ⟨R.SYS.EXPERT_GRANT, 16, 1⟩
def F.SYS.EXPERT_GRANT.CST : Fld := ⟨R.SYS.EXPERT_GRANT, 17, 1⟩
def F.SYS.EXPERT_GRANT.REC : Fld := ⟨R.SYS.EXPERT_GRANT, 18, 1⟩
def F.SYS.EXPERT_GRANT.GOV : Fld := ⟨R.SYS.EXPERT_GRANT, 19, 1⟩
def F.SYS.EXPERT_GRANT.CPR : Fld := ⟨R.SYS.EXPERT_GRANT, 20, 1⟩
def F.SYS.EXPERT_GRANT.DBG : Fld := ⟨R.SYS.EXPERT_GRANT, 21, 1⟩
def F.SYS.IRT_WRITE.SOURCE : Fld := ⟨R.SYS.IRT_WRITE, 0, 10⟩
def F.SYS.IRT_WRITE.TARGET : Fld := ⟨R.SYS.IRT_WRITE, 10, 12⟩
def F.SYS.IRT_WRITE.LEVEL : Fld := ⟨R.SYS.IRT_WRITE, 22, 4⟩
def F.SYS.IRT_WRITE.URGENT : Fld := ⟨R.SYS.IRT_WRITE, 26, 1⟩
def F.SYS.IRT_WRITE.ENABLE : Fld := ⟨R.SYS.IRT_WRITE, 27, 1⟩
def F.SYS.IRT_SELECT.SOURCE : Fld := ⟨R.SYS.IRT_SELECT, 0, 10⟩
def F.SYS.IRT_READ.TARGET : Fld := ⟨R.SYS.IRT_READ, 0, 12⟩
def F.SYS.IRT_READ.LEVEL : Fld := ⟨R.SYS.IRT_READ, 12, 4⟩
def F.SYS.IRT_READ.URGENT : Fld := ⟨R.SYS.IRT_READ, 16, 1⟩
def F.SYS.IRT_READ.ENABLE : Fld := ⟨R.SYS.IRT_READ, 17, 1⟩
def F.SYS.IRT_READ.ASSERTED : Fld := ⟨R.SYS.IRT_READ, 18, 1⟩
def F.SYS.HALT_QUEUE.QUEUE : Fld := ⟨R.SYS.HALT_QUEUE, 0, 13⟩
def F.SYS.HALT_QUEUE.VALID : Fld := ⟨R.SYS.HALT_QUEUE, 13, 1⟩
def F.SYS.SWI.SOURCE : Fld := ⟨R.SYS.SWI, 0, 10⟩
def F.SYS.SWI.SET : Fld := ⟨R.SYS.SWI, 10, 1⟩

/-! ### TLY (R397, R399) -/

/-- `SELF` at 0x040. -/
def R.TLY.SELF : Nat := 0xFFF00A0040
/-- `PSN_NEXT` at 0x048. -/
def R.TLY.PSN_NEXT : Nat := 0xFFF00A0048
/-- `DEV_MAP` at 0x050. -/
def R.TLY.DEV_MAP : Nat := 0xFFF00A0050
/-- `TICKET_LIMIT` at 0x058. -/
def R.TLY.TICKET_LIMIT : Nat := 0xFFF00A0058
/-- `TICKET_USE` at 0x060. -/
def R.TLY.TICKET_USE : Nat := 0xFFF00A0060
/-- `CUT_STATUS` at 0x068. -/
def R.TLY.CUT_STATUS : Nat := 0xFFF00A0068
/-- `FF_COUNT` at 0x070. -/
def R.TLY.FF_COUNT : Nat := 0xFFF00A0070
/-- `FF_LAST` at 0x078. -/
def R.TLY.FF_LAST : Nat := 0xFFF00A0078
/-- `TKT_FLUSH` at 0x080. -/
def R.TLY.TKT_FLUSH : Nat := 0xFFF00A0080
/-- `REPLAY_ADDR` at 0x088. -/
def R.TLY.REPLAY_ADDR : Nat := 0xFFF00A0088
/-- `REPLAY_LEN` at 0x090. -/
def R.TLY.REPLAY_LEN : Nat := 0xFFF00A0090
/-- `REPLAY_FROM` at 0x098. -/
def R.TLY.REPLAY_FROM : Nat := 0xFFF00A0098
/-- `REPLAY_CTRL` at 0x0A0. -/
def R.TLY.REPLAY_CTRL : Nat := 0xFFF00A00A0
/-- `REPLAY_STATUS` at 0x0A8. -/
def R.TLY.REPLAY_STATUS : Nat := 0xFFF00A00A8
/-- `REPLAY_APPLIED` at 0x0B0. -/
def R.TLY.REPLAY_APPLIED : Nat := 0xFFF00A00B0
/-- `REPLAY_SKIPPED` at 0x0B8. -/
def R.TLY.REPLAY_SKIPPED : Nat := 0xFFF00A00B8
/-- `CUT_BOUNDARY` at 0x0C0. -/
def R.TLY.CUT_BOUNDARY : Nat := 0xFFF00A00C0
/-- `RANGE_BOUNDS` at 0x100. -/
def R.TLY.RANGE_BOUNDS (i : Nat) : Nat := 0xFFF00A0100 + 0x10 * i
/-- `RANGE_ATTR` at 0x108. -/
def R.TLY.RANGE_ATTR (i : Nat) : Nat := 0xFFF00A0108 + 0x10 * i
/-- `SCRUB_PERIOD` at 0x800. -/
def R.TLY.SCRUB_PERIOD : Nat := 0xFFF00A0800
/-- `ECC_INJECT` at 0x808. -/
def R.TLY.ECC_INJECT : Nat := 0xFFF00A0808
def F.TLY.SELF.ID : Fld := ⟨R.TLY.SELF, 0, 3⟩
def F.TLY.PSN_NEXT.PSN : Fld := ⟨R.TLY.PSN_NEXT, 0, 40⟩
def F.TLY.DEV_MAP.KEY (k : Nat) : Fld := ⟨R.TLY.DEV_MAP, 5 * k, 4⟩
def F.TLY.DEV_MAP.PRESENT (k : Nat) : Fld := ⟨R.TLY.DEV_MAP, 4 + 5 * k, 1⟩
def F.TLY.TICKET_LIMIT.LIMIT : Fld := ⟨R.TLY.TICKET_LIMIT, 0, 16⟩
def F.TLY.TICKET_USE.IN_USE : Fld := ⟨R.TLY.TICKET_USE, 0, 16⟩
def F.TLY.TICKET_USE.HIGH : Fld := ⟨R.TLY.TICKET_USE, 16, 16⟩
def F.TLY.CUT_STATUS.HELD : Fld := ⟨R.TLY.CUT_STATUS, 0, 1⟩
def F.TLY.CUT_STATUS.READY : Fld := ⟨R.TLY.CUT_STATUS, 1, 1⟩
def F.TLY.CUT_STATUS.EPOCH : Fld := ⟨R.TLY.CUT_STATUS, 2, 1⟩
def F.TLY.CUT_STATUS.RELEASING : Fld := ⟨R.TLY.CUT_STATUS, 3, 1⟩
def F.TLY.CUT_STATUS.GLOBAL : Fld := ⟨R.TLY.CUT_STATUS, 4, 1⟩
def F.TLY.FF_COUNT.COUNT : Fld := ⟨R.TLY.FF_COUNT, 0, 40⟩
def F.TLY.FF_LAST.ACCOUNT : Fld := ⟨R.TLY.FF_LAST, 0, 21⟩
def F.TLY.FF_LAST.STATUS : Fld := ⟨R.TLY.FF_LAST, 21, 4⟩
def F.TLY.TKT_FLUSH.CID : Fld := ⟨R.TLY.TKT_FLUSH, 0, 12⟩
def F.TLY.TKT_FLUSH.GO : Fld := ⟨R.TLY.TKT_FLUSH, 12, 1⟩
def F.TLY.REPLAY_ADDR.ADDR : Fld := ⟨R.TLY.REPLAY_ADDR, 0, 40⟩
def F.TLY.REPLAY_LEN.LEN : Fld := ⟨R.TLY.REPLAY_LEN, 0, 40⟩
def F.TLY.REPLAY_FROM.PSN : Fld := ⟨R.TLY.REPLAY_FROM, 0, 40⟩
def F.TLY.REPLAY_CTRL.START : Fld := ⟨R.TLY.REPLAY_CTRL, 0, 1⟩
def F.TLY.REPLAY_CTRL.FILTER : Fld := ⟨R.TLY.REPLAY_CTRL, 1, 1⟩
def F.TLY.REPLAY_CTRL.FINISH : Fld := ⟨R.TLY.REPLAY_CTRL, 2, 1⟩
def F.TLY.REPLAY_STATUS.STATE : Fld := ⟨R.TLY.REPLAY_STATUS, 0, 2⟩
def F.TLY.REPLAY_APPLIED.COUNT : Fld := ⟨R.TLY.REPLAY_APPLIED, 0, 40⟩
def F.TLY.REPLAY_SKIPPED.COUNT : Fld := ⟨R.TLY.REPLAY_SKIPPED, 0, 40⟩
def F.TLY.CUT_BOUNDARY.B : Fld := ⟨R.TLY.CUT_BOUNDARY, 0, 40⟩
def F.TLY.RANGE_BOUNDS.FIRST (i : Nat) : Fld := ⟨R.TLY.RANGE_BOUNDS i, 0, 18⟩
def F.TLY.RANGE_BOUNDS.LAST (i : Nat) : Fld := ⟨R.TLY.RANGE_BOUNDS i, 18, 18⟩
def F.TLY.RANGE_ATTR.KEY (i : Nat) : Fld := ⟨R.TLY.RANGE_ATTR i, 0, 4⟩
def F.TLY.RANGE_ATTR.BIN (i : Nat) : Fld := ⟨R.TLY.RANGE_ATTR i, 4, 1⟩
def F.TLY.RANGE_ATTR.VALID (i : Nat) : Fld := ⟨R.TLY.RANGE_ATTR i, 5, 1⟩
def F.TLY.SCRUB_PERIOD.MS : Fld := ⟨R.TLY.SCRUB_PERIOD, 0, 16⟩
def F.TLY.ECC_INJECT.ACCOUNT : Fld := ⟨R.TLY.ECC_INJECT, 0, 18⟩
def F.TLY.ECC_INJECT.DOUBLE : Fld := ⟨R.TLY.ECC_INJECT, 18, 1⟩
def F.TLY.ECC_INJECT.GO : Fld := ⟨R.TLY.ECC_INJECT, 19, 1⟩

/-! ### BANK (R397, R399) -/

/-- `LEVEL` at 0x040. -/
def R.BANK.LEVEL (p : Nat) : Nat := p + 0x40
/-- `APPLIED` at 0x048. -/
def R.BANK.APPLIED (p : Nat) : Nat := p + 0x48
/-- `CE_COUNT` at 0x050. -/
def R.BANK.CE_COUNT (p : Nat) : Nat := p + 0x50
/-- `UE_COUNT` at 0x058. -/
def R.BANK.UE_COUNT (p : Nat) : Nat := p + 0x58
/-- `UE_LAST` at 0x060. -/
def R.BANK.UE_LAST (p : Nat) : Nat := p + 0x60
def F.BANK.LEVEL.NOW (p : Nat) : Fld := ⟨R.BANK.LEVEL p, 0, 7⟩
def F.BANK.LEVEL.HIGH (p : Nat) : Fld := ⟨R.BANK.LEVEL p, 8, 7⟩
def F.BANK.APPLIED.COUNT (p : Nat) : Fld := ⟨R.BANK.APPLIED p, 0, 40⟩
def F.BANK.CE_COUNT.COUNT (p : Nat) : Fld := ⟨R.BANK.CE_COUNT p, 0, 40⟩
def F.BANK.UE_COUNT.COUNT (p : Nat) : Fld := ⟨R.BANK.UE_COUNT p, 0, 16⟩
def F.BANK.UE_LAST.ACCOUNT (p : Nat) : Fld := ⟨R.BANK.UE_LAST p, 0, 18⟩

/-! ### QW (R404, R429) -/

/-- `QBASE` at 0x000. -/
def R.QW.QBASE (p : Nat) : Nat := p + 0x0
/-- `QCFG` at 0x008. -/
def R.QW.QCFG (p : Nat) : Nat := p + 0x8
/-- `QBIND` at 0x010. -/
def R.QW.QBIND (p : Nat) : Nat := p + 0x10
/-- `HEAD` at 0x018. -/
def R.QW.HEAD (p : Nat) : Nat := p + 0x18
/-- `TAIL` at 0x020. -/
def R.QW.TAIL (p : Nat) : Nat := p + 0x20
/-- `QSTATE` at 0x028. -/
def R.QW.QSTATE (p : Nat) : Nat := p + 0x28
/-- `QCMD` at 0x030. -/
def R.QW.QCMD (p : Nat) : Nat := p + 0x30
/-- `QCOUNTS` at 0x038. -/
def R.QW.QCOUNTS (p : Nat) : Nat := p + 0x38
def F.QW.QBASE.BASE (p : Nat) : Fld := ⟨R.QW.QBASE p, 6, 34⟩
def F.QW.QCFG.DEPTH (p : Nat) : Fld := ⟨R.QW.QCFG p, 0, 5⟩
def F.QW.QCFG.VALID (p : Nat) : Fld := ⟨R.QW.QCFG p, 5, 1⟩
def F.QW.QCFG.PMODE (p : Nat) : Fld := ⟨R.QW.QCFG p, 6, 1⟩
def F.QW.QCFG.CKIND (p : Nat) : Fld := ⟨R.QW.QCFG p, 7, 3⟩
def F.QW.QCFG.KEY (p : Nat) : Fld := ⟨R.QW.QCFG p, 10, 4⟩
def F.QW.QCFG.PRIO (p : Nat) : Fld := ⟨R.QW.QCFG p, 14, 3⟩
def F.QW.QCFG.WAKE (p : Nat) : Fld := ⟨R.QW.QCFG p, 17, 1⟩
def F.QW.QCFG.WLOCK (p : Nat) : Fld := ⟨R.QW.QCFG p, 18, 1⟩
def F.QW.QBIND.CID (p : Nat) : Fld := ⟨R.QW.QBIND p, 0, 12⟩
def F.QW.QBIND.EPOCH (p : Nat) : Fld := ⟨R.QW.QBIND p, 12, 12⟩
def F.QW.QBIND.BOUND (p : Nat) : Fld := ⟨R.QW.QBIND p, 24, 1⟩
def F.QW.HEAD.INDEX (p : Nat) : Fld := ⟨R.QW.HEAD p, 0, 17⟩
def F.QW.TAIL.INDEX (p : Nat) : Fld := ⟨R.QW.TAIL p, 0, 17⟩
def F.QW.QSTATE.STATE (p : Nat) : Fld := ⟨R.QW.QSTATE p, 0, 2⟩
def F.QW.QSTATE.COUNT (p : Nat) : Fld := ⟨R.QW.QSTATE p, 2, 17⟩
def F.QW.QSTATE.AGE (p : Nat) : Fld := ⟨R.QW.QSTATE p, 19, 4⟩
def F.QW.QCMD.INDEX (p : Nat) : Fld := ⟨R.QW.QCMD p, 0, 17⟩
def F.QW.QCMD.SIDE (p : Nat) : Fld := ⟨R.QW.QCMD p, 17, 1⟩
def F.QW.QCMD.RING (p : Nat) : Fld := ⟨R.QW.QCMD p, 18, 1⟩
def F.QW.QCMD.DISCARD (p : Nat) : Fld := ⟨R.QW.QCMD p, 19, 1⟩
def F.QW.QCOUNTS.FULLS (p : Nat) : Fld := ⟨R.QW.QCOUNTS p, 0, 20⟩
def F.QW.QCOUNTS.DISCARDED (p : Nat) : Fld := ⟨R.QW.QCOUNTS p, 20, 20⟩

/-! ### QMG (R404, R429) -/

/-- `ORPHAN_QUEUE` at 0x040. -/
def R.QMG.ORPHAN_QUEUE : Nat := 0xFFF00B0040
/-- `ORPHAN_LOST` at 0x048. -/
def R.QMG.ORPHAN_LOST : Nat := 0xFFF00B0048
/-- `TAGS` at 0x050. -/
def R.QMG.TAGS : Nat := 0xFFF00B0050
/-- `FULL_LAST` at 0x058. -/
def R.QMG.FULL_LAST : Nat := 0xFFF00B0058
/-- `WIN_ERR` at 0x060. -/
def R.QMG.WIN_ERR : Nat := 0xFFF00B0060
/-- `RING_ERRORS` at 0x068. -/
def R.QMG.RING_ERRORS : Nat := 0xFFF00B0068
/-- `TAG_SHARE` at 0x800. -/
def R.QMG.TAG_SHARE : Nat := 0xFFF00B0800
def F.QMG.ORPHAN_QUEUE.QUEUE : Fld := ⟨R.QMG.ORPHAN_QUEUE, 0, 13⟩
def F.QMG.ORPHAN_QUEUE.VALID : Fld := ⟨R.QMG.ORPHAN_QUEUE, 13, 1⟩
def F.QMG.ORPHAN_LOST.COUNT : Fld := ⟨R.QMG.ORPHAN_LOST, 0, 40⟩
def F.QMG.TAGS.IN_USE : Fld := ⟨R.QMG.TAGS, 0, 12⟩
def F.QMG.TAGS.HIGH : Fld := ⟨R.QMG.TAGS, 12, 12⟩
def F.QMG.FULL_LAST.QUEUE : Fld := ⟨R.QMG.FULL_LAST, 0, 13⟩
def F.QMG.FULL_LAST.PORT : Fld := ⟨R.QMG.FULL_LAST, 13, 4⟩
def F.QMG.WIN_ERR.QUEUE : Fld := ⟨R.QMG.WIN_ERR, 0, 13⟩
def F.QMG.RING_ERRORS.COUNT : Fld := ⟨R.QMG.RING_ERRORS, 0, 40⟩
def F.QMG.TAG_SHARE.LIMIT : Fld := ⟨R.QMG.TAG_SHARE, 0, 12⟩

/-! ### JRN (R473, R475) -/

/-- `CFG` at 0x040. -/
def R.JRN.CFG : Nat := 0xFFF00C0040
/-- `STATE` at 0x048. -/
def R.JRN.STATE : Nat := 0xFFF00C0048
/-- `NEXT_JSN` at 0x050. -/
def R.JRN.NEXT_JSN : Nat := 0xFFF00C0050
/-- `NEXT_BATCH` at 0x058. -/
def R.JRN.NEXT_BATCH : Nat := 0xFFF00C0058
/-- `COMMIT_BATCH` at 0x060. -/
def R.JRN.COMMIT_BATCH : Nat := 0xFFF00C0060
/-- `COMMIT_JSN` at 0x068. -/
def R.JRN.COMMIT_JSN : Nat := 0xFFF00C0068
/-- `ARCHIVED` at 0x070. -/
def R.JRN.ARCHIVED : Nat := 0xFFF00C0070
/-- `CTRL` at 0x078. -/
def R.JRN.CTRL : Nat := 0xFFF00C0078
/-- `REJECTS` at 0x080. -/
def R.JRN.REJECTS : Nat := 0xFFF00C0080
/-- `REJECT_LAST` at 0x088. -/
def R.JRN.REJECT_LAST : Nat := 0xFFF00C0088
/-- `SHADOW` at 0x090. -/
def R.JRN.SHADOW : Nat := 0xFFF00C0090
/-- `SCAN` at 0x098. -/
def R.JRN.SCAN : Nat := 0xFFF00C0098
/-- `RD_BATCH` at 0x0A0. -/
def R.JRN.RD_BATCH : Nat := 0xFFF00C00A0
/-- `RD_PSN` at 0x0A8. -/
def R.JRN.RD_PSN : Nat := 0xFFF00C00A8
/-- `RD_ADDR` at 0x0B0. -/
def R.JRN.RD_ADDR : Nat := 0xFFF00C00B0
/-- `RD_LEN` at 0x0B8. -/
def R.JRN.RD_LEN : Nat := 0xFFF00C00B8
/-- `RD_CTRL` at 0x0C0. -/
def R.JRN.RD_CTRL : Nat := 0xFFF00C00C0
/-- `RD_STATUS` at 0x0C8. -/
def R.JRN.RD_STATUS : Nat := 0xFFF00C00C8
/-- `INQ` at 0x100. -/
def R.JRN.INQ (i : Nat) : Nat := 0xFFF00C0100 + 0x8 * i
/-- `PSN_MAX` at 0x140. -/
def R.JRN.PSN_MAX (i : Nat) : Nat := 0xFFF00C0140 + 0x8 * i
/-- `ERASE_AHEAD` at 0x800. -/
def R.JRN.ERASE_AHEAD : Nat := 0xFFF00C0800
/-- `RETIRE_BITS` at 0x808. -/
def R.JRN.RETIRE_BITS : Nat := 0xFFF00C0808
def F.JRN.CFG.MODE : Fld := ⟨R.JRN.CFG, 0, 1⟩
def F.JRN.CFG.PREFER : Fld := ⟨R.JRN.CFG, 1, 1⟩
def F.JRN.CFG.SEED : Fld := ⟨R.JRN.CFG, 3, 1⟩
def F.JRN.CFG.REF_KEY : Fld := ⟨R.JRN.CFG, 4, 4⟩
def F.JRN.CFG.CLOSE_MS : Fld := ⟨R.JRN.CFG, 8, 10⟩
def F.JRN.CFG.SIGN_KEY : Fld := ⟨R.JRN.CFG, 18, 6⟩
def F.JRN.CFG.GRANT_SIZE : Fld := ⟨R.JRN.CFG, 24, 8⟩
def F.JRN.STATE.STATE : Fld := ⟨R.JRN.STATE, 0, 3⟩
def F.JRN.STATE.DEGRADED : Fld := ⟨R.JRN.STATE, 3, 1⟩
def F.JRN.STATE.COMMITTING : Fld := ⟨R.JRN.STATE, 4, 1⟩
def F.JRN.NEXT_JSN.JSN : Fld := ⟨R.JRN.NEXT_JSN, 0, 40⟩
def F.JRN.NEXT_BATCH.BATCH : Fld := ⟨R.JRN.NEXT_BATCH, 0, 40⟩
def F.JRN.COMMIT_BATCH.BATCH : Fld := ⟨R.JRN.COMMIT_BATCH, 0, 40⟩
def F.JRN.COMMIT_JSN.JSN : Fld := ⟨R.JRN.COMMIT_JSN, 0, 40⟩
def F.JRN.ARCHIVED.BATCH : Fld := ⟨R.JRN.ARCHIVED, 0, 40⟩
def F.JRN.CTRL.CLOSE : Fld := ⟨R.JRN.CTRL, 0, 1⟩
def F.JRN.CTRL.ROLL : Fld := ⟨R.JRN.CTRL, 1, 1⟩
def F.JRN.CTRL.ACCEPT : Fld := ⟨R.JRN.CTRL, 2, 1⟩
def F.JRN.CTRL.SLOT : Fld := ⟨R.JRN.CTRL, 3, 1⟩
def F.JRN.REJECTS.COUNT : Fld := ⟨R.JRN.REJECTS, 0, 40⟩
def F.JRN.REJECT_LAST.QUEUE : Fld := ⟨R.JRN.REJECT_LAST, 0, 13⟩
def F.JRN.REJECT_LAST.REASON : Fld := ⟨R.JRN.REJECT_LAST, 13, 3⟩
def F.JRN.REJECT_LAST.SOURCE : Fld := ⟨R.JRN.REJECT_LAST, 16, 16⟩
def F.JRN.SHADOW.BASE : Fld := ⟨R.JRN.SHADOW, 12, 28⟩
def F.JRN.SCAN.RESULT : Fld := ⟨R.JRN.SCAN, 0, 3⟩
def F.JRN.RD_CTRL.START : Fld := ⟨R.JRN.RD_CTRL, 0, 1⟩
def F.JRN.RD_CTRL.MODE : Fld := ⟨R.JRN.RD_CTRL, 1, 1⟩
def F.JRN.RD_CTRL.RAW : Fld := ⟨R.JRN.RD_CTRL, 2, 1⟩
def F.JRN.RD_CTRL.SLOT : Fld := ⟨R.JRN.RD_CTRL, 3, 1⟩
def F.JRN.RD_CTRL.DEV : Fld := ⟨R.JRN.RD_CTRL, 4, 3⟩
def F.JRN.RD_CTRL.COUNT : Fld := ⟨R.JRN.RD_CTRL, 7, 17⟩
def F.JRN.RD_STATUS.STOP : Fld := ⟨R.JRN.RD_STATUS, 0, 3⟩
def F.JRN.INQ.QUEUE (i : Nat) : Fld := ⟨R.JRN.INQ i, 0, 13⟩
def F.JRN.INQ.VALID (i : Nat) : Fld := ⟨R.JRN.INQ i, 13, 1⟩
def F.JRN.PSN_MAX.PSN (i : Nat) : Fld := ⟨R.JRN.PSN_MAX i, 0, 40⟩
def F.JRN.ERASE_AHEAD.STRIPES : Fld := ⟨R.JRN.ERASE_AHEAD, 0, 4⟩
def F.JRN.RETIRE_BITS.BITS : Fld := ⟨R.JRN.RETIRE_BITS, 0, 7⟩

/-! ### CRT (R473, R475) -/

/-- `STATUS` at 0x040. -/
def R.CRT.STATUS (p : Nat) : Nat := p + 0x40
/-- `CTRL` at 0x048. -/
def R.CRT.CTRL (p : Nat) : Nat := p + 0x48
/-- `ID` at 0x050. -/
def R.CRT.ID (p : Nat) : Nat := p + 0x50
/-- `ID_HI` at 0x058. -/
def R.CRT.ID_HI (p : Nat) : Nat := p + 0x58
/-- `GEOMETRY` at 0x060. -/
def R.CRT.GEOMETRY (p : Nat) : Nat := p + 0x60
/-- `ERASES` at 0x068. -/
def R.CRT.ERASES (p : Nat) : Nat := p + 0x68
/-- `BAD` at 0x070. -/
def R.CRT.BAD (p : Nat) : Nat := p + 0x70
/-- `WRITE_POS` at 0x078. -/
def R.CRT.WRITE_POS (p : Nat) : Nat := p + 0x78
/-- `CORRECTED` at 0x080. -/
def R.CRT.CORRECTED (p : Nat) : Nat := p + 0x80
def F.CRT.STATUS.STATE (p : Nat) : Fld := ⟨R.CRT.STATUS p, 0, 3⟩
def F.CRT.STATUS.PRESENT (p : Nat) : Fld := ⟨R.CRT.STATUS p, 3, 1⟩
def F.CRT.STATUS.LATCHED (p : Nat) : Fld := ⟨R.CRT.STATUS p, 4, 1⟩
def F.CRT.STATUS.CLOSED (p : Nat) : Fld := ⟨R.CRT.STATUS p, 5, 1⟩
def F.CRT.STATUS.REASON (p : Nat) : Fld := ⟨R.CRT.STATUS p, 6, 2⟩
def F.CRT.STATUS.LIFE (p : Nat) : Fld := ⟨R.CRT.STATUS p, 8, 7⟩
def F.CRT.CTRL.IDENTIFY (p : Nat) : Fld := ⟨R.CRT.CTRL p, 0, 1⟩
def F.CRT.CTRL.POWER_OFF (p : Nat) : Fld := ⟨R.CRT.CTRL p, 1, 1⟩
def F.CRT.CTRL.WIPE_OK (p : Nat) : Fld := ⟨R.CRT.CTRL p, 2, 1⟩
def F.CRT.ID.ID (p : Nat) : Fld := ⟨R.CRT.ID p, 0, 40⟩
def F.CRT.ID_HI.ID (p : Nat) : Fld := ⟨R.CRT.ID_HI p, 0, 24⟩
def F.CRT.ID_HI.MODEL (p : Nat) : Fld := ⟨R.CRT.ID_HI p, 24, 16⟩
def F.CRT.GEOMETRY.S (p : Nat) : Fld := ⟨R.CRT.GEOMETRY p, 0, 16⟩
def F.CRT.GEOMETRY.P (p : Nat) : Fld := ⟨R.CRT.GEOMETRY p, 16, 11⟩
def F.CRT.ERASES.COUNT (p : Nat) : Fld := ⟨R.CRT.ERASES p, 0, 40⟩
def F.CRT.BAD.FACTORY (p : Nat) : Fld := ⟨R.CRT.BAD p, 0, 16⟩
def F.CRT.BAD.GROWN (p : Nat) : Fld := ⟨R.CRT.BAD p, 16, 16⟩
def F.CRT.WRITE_POS.SEQ (p : Nat) : Fld := ⟨R.CRT.WRITE_POS p, 0, 32⟩
def F.CRT.CORRECTED.COUNT (p : Nat) : Fld := ⟨R.CRT.CORRECTED p, 0, 40⟩

/-! ### WGH (R513-R515) -/

/-- `CLK_CFG` at 0x040. -/
def R.WGH.CLK_CFG : Nat := 0xFFF00D0040
/-- `SEAL_OPEN` at 0x048. -/
def R.WGH.SEAL_OPEN : Nat := 0xFFF00D0048
/-- `DROPPED` at 0x050. -/
def R.WGH.DROPPED : Nat := 0xFFF00D0050
/-- `HELD` at 0x058. -/
def R.WGH.HELD : Nat := 0xFFF00D0058
def F.WGH.CLK_CFG.DIV (k : Nat) : Fld := ⟨R.WGH.CLK_CFG, 2 * k, 2⟩
def F.WGH.CLK_CFG.EN (k : Nat) : Fld := ⟨R.WGH.CLK_CFG, 16 + 1 * k, 1⟩
def F.WGH.SEAL_OPEN.CHANNEL : Fld := ⟨R.WGH.SEAL_OPEN, 0, 6⟩
def F.WGH.SEAL_OPEN.OPEN : Fld := ⟨R.WGH.SEAL_OPEN, 6, 1⟩
def F.WGH.SEAL_OPEN.CLOSE : Fld := ⟨R.WGH.SEAL_OPEN, 7, 1⟩
def F.WGH.SEAL_OPEN.SECONDS : Fld := ⟨R.WGH.SEAL_OPEN, 8, 12⟩
def F.WGH.DROPPED.COUNT : Fld := ⟨R.WGH.DROPPED, 0, 40⟩
def F.WGH.HELD.NOW : Fld := ⟨R.WGH.HELD, 0, 8⟩

/-! ### CH (R513-R515) -/

/-- `CH_CTRL` at 0x040. -/
def R.CH.CH_CTRL (p : Nat) : Nat := p + 0x40
/-- `CH_STATUS` at 0x048. -/
def R.CH.CH_STATUS (p : Nat) : Nat := p + 0x48
/-- `OUT_QUEUE` at 0x050. -/
def R.CH.OUT_QUEUE (p : Nat) : Nat := p + 0x50
/-- `CHK_QUEUE` at 0x058. -/
def R.CH.CHK_QUEUE (p : Nat) : Nat := p + 0x58
/-- `CMD` at 0x060. -/
def R.CH.CMD (p : Nat) : Nat := p + 0x60
/-- `CMD_STATUS` at 0x068. -/
def R.CH.CMD_STATUS (p : Nat) : Nat := p + 0x68
/-- `PRESET_TARE` at 0x070. -/
def R.CH.PRESET_TARE (p : Nat) : Nat := p + 0x70
/-- `RAW` at 0x078. -/
def R.CH.RAW (p : Nat) : Nat := p + 0x78
/-- `GROSS_BIN` at 0x080. -/
def R.CH.GROSS_BIN (p : Nat) : Nat := p + 0x80
/-- `NET_DISP` at 0x088. -/
def R.CH.NET_DISP (p : Nat) : Nat := p + 0x88
/-- `TARE_DISP` at 0x090. -/
def R.CH.TARE_DISP (p : Nat) : Nat := p + 0x90
/-- `ZERO_OFF` at 0x098. -/
def R.CH.ZERO_OFF (p : Nat) : Nat := p + 0x98
/-- `CHK_EXPECT` at 0x0A0. -/
def R.CH.CHK_EXPECT (p : Nat) : Nat := p + 0xA0
/-- `CHK_TOL` at 0x0A8. -/
def R.CH.CHK_TOL (p : Nat) : Nat := p + 0xA8
/-- `CHK_CTRL` at 0x0B0. -/
def R.CH.CHK_CTRL (p : Nat) : Nat := p + 0xB0
/-- `CHK_STATUS` at 0x0B8. -/
def R.CH.CHK_STATUS (p : Nat) : Nat := p + 0xB8
/-- `SEQ` at 0x0C0. -/
def R.CH.SEQ (p : Nat) : Nat := p + 0xC0
/-- `AUDIT` at 0x0C8. -/
def R.CH.AUDIT (p : Nat) : Nat := p + 0xC8
/-- `CHECKSUM` at 0x0D0. -/
def R.CH.CHECKSUM (p : Nat) : Nat := p + 0xD0
/-- `SEAL_STATUS` at 0x0D8. -/
def R.CH.SEAL_STATUS (p : Nat) : Nat := p + 0xD8
/-- `SEAL_CTRL` at 0x0E0. -/
def R.CH.SEAL_CTRL (p : Nat) : Nat := p + 0xE0
/-- `CAL_REF` at 0x150. -/
def R.CH.CAL_REF (p : Nat) : Nat := p + 0x150
/-- `IIR_K` at 0x800. -/
def R.CH.IIR_K (p : Nat) : Nat := p + 0x800
/-- `MOTION_WIN` at 0x808. -/
def R.CH.MOTION_WIN (p : Nat) : Nat := p + 0x808
/-- `NOISE` at 0x810. -/
def R.CH.NOISE (p : Nat) : Nat := p + 0x810
/-- `FGOV_SUGGEST` at 0x818. -/
def R.CH.FGOV_SUGGEST (p : Nat) : Nat := p + 0x818
/-- `SEAL_LINE` at 0x100. -/
def R.CH.SEAL_LINE (p : Nat) : Nat := p + 0x100
/-- `CAL_ZERO` at 0x108. -/
def R.CH.CAL_ZERO (p : Nat) : Nat := p + 0x108
/-- `SPAN` at 0x110. -/
def R.CH.SPAN (p : Nat) : Nat := p + 0x110
/-- `RANGE` at 0x118. -/
def R.CH.RANGE (p i : Nat) : Nat := p + 0x118 + 0x8 * i
/-- `METRO` at 0x130. -/
def R.CH.METRO (p : Nat) : Nat := p + 0x130
/-- `DECIM` at 0x138. -/
def R.CH.DECIM (p : Nat) : Nat := p + 0x138
/-- `FIR_INDEX` at 0x140. -/
def R.CH.FIR_INDEX (p : Nat) : Nat := p + 0x140
/-- `FIR_DATA` at 0x148. -/
def R.CH.FIR_DATA (p : Nat) : Nat := p + 0x148
def F.CH.CH_CTRL.ENABLE (p : Nat) : Fld := ⟨R.CH.CH_CTRL p, 0, 1⟩
def F.CH.CH_CTRL.WATCH (p : Nat) : Fld := ⟨R.CH.CH_CTRL p, 1, 1⟩
def F.CH.CH_CTRL.STREAM (p : Nat) : Fld := ⟨R.CH.CH_CTRL p, 2, 8⟩
def F.CH.CH_CTRL.CMD_WAIT (p : Nat) : Fld := ⟨R.CH.CH_CTRL p, 10, 6⟩
def F.CH.CH_STATUS.STATE (p : Nat) : Fld := ⟨R.CH.CH_STATUS p, 0, 3⟩
def F.CH.CH_STATUS.STABLE (p : Nat) : Fld := ⟨R.CH.CH_STATUS p, 3, 1⟩
def F.CH.CH_STATUS.ZERO_CENTRE (p : Nat) : Fld := ⟨R.CH.CH_STATUS p, 4, 1⟩
def F.CH.CH_STATUS.NET (p : Nat) : Fld := ⟨R.CH.CH_STATUS p, 5, 1⟩
def F.CH.CH_STATUS.OVERLOAD (p : Nat) : Fld := ⟨R.CH.CH_STATUS p, 6, 1⟩
def F.CH.CH_STATUS.UNDERLOAD (p : Nat) : Fld := ⟨R.CH.CH_STATUS p, 7, 1⟩
def F.CH.CH_STATUS.MODFAULT (p : Nat) : Fld := ⟨R.CH.CH_STATUS p, 8, 1⟩
def F.CH.CH_STATUS.SATURATED (p : Nat) : Fld := ⟨R.CH.CH_STATUS p, 9, 1⟩
def F.CH.CH_STATUS.ZERO_ERR (p : Nat) : Fld := ⟨R.CH.CH_STATUS p, 10, 1⟩
def F.CH.CH_STATUS.RANGE (p : Nat) : Fld := ⟨R.CH.CH_STATUS p, 11, 2⟩
def F.CH.OUT_QUEUE.QUEUE (p : Nat) : Fld := ⟨R.CH.OUT_QUEUE p, 0, 13⟩
def F.CH.CHK_QUEUE.QUEUE (p : Nat) : Fld := ⟨R.CH.CHK_QUEUE p, 0, 13⟩
def F.CH.OUT_QUEUE.VALID (p : Nat) : Fld := ⟨R.CH.OUT_QUEUE p, 13, 1⟩
def F.CH.CHK_QUEUE.VALID (p : Nat) : Fld := ⟨R.CH.CHK_QUEUE p, 13, 1⟩
def F.CH.CMD.ZERO (p : Nat) : Fld := ⟨R.CH.CMD p, 0, 1⟩
def F.CH.CMD.TARE (p : Nat) : Fld := ⟨R.CH.CMD p, 1, 1⟩
def F.CH.CMD.TARE_CLR (p : Nat) : Fld := ⟨R.CH.CMD p, 2, 1⟩
def F.CH.CMD.TARE_PRESET (p : Nat) : Fld := ⟨R.CH.CMD p, 3, 1⟩
def F.CH.CMD.SNAP (p : Nat) : Fld := ⟨R.CH.CMD p, 4, 1⟩
def F.CH.CMD_STATUS.RESULT (p : Nat) : Fld := ⟨R.CH.CMD_STATUS p, 0, 4⟩
def F.CH.CMD_STATUS.BUSY (p : Nat) : Fld := ⟨R.CH.CMD_STATUS p, 4, 1⟩
def F.CH.CMD_STATUS.LAST (p : Nat) : Fld := ⟨R.CH.CMD_STATUS p, 5, 3⟩
def F.CH.PRESET_TARE.VALUE (p : Nat) : Fld := ⟨R.CH.PRESET_TARE p, 0, 40⟩
def F.CH.CHK_EXPECT.VALUE (p : Nat) : Fld := ⟨R.CH.CHK_EXPECT p, 0, 40⟩
def F.CH.CHK_TOL.VALUE (p : Nat) : Fld := ⟨R.CH.CHK_TOL p, 0, 40⟩
def F.CH.RAW.VALUE (p : Nat) : Fld := ⟨R.CH.RAW p, 0, 40⟩
def F.CH.GROSS_BIN.VALUE (p : Nat) : Fld := ⟨R.CH.GROSS_BIN p, 0, 40⟩
def F.CH.ZERO_OFF.VALUE (p : Nat) : Fld := ⟨R.CH.ZERO_OFF p, 0, 40⟩
def F.CH.NET_DISP.VALUE (p : Nat) : Fld := ⟨R.CH.NET_DISP p, 0, 40⟩
def F.CH.TARE_DISP.VALUE (p : Nat) : Fld := ⟨R.CH.TARE_DISP p, 0, 40⟩
def F.CH.CHK_CTRL.TAG (p : Nat) : Fld := ⟨R.CH.CHK_CTRL p, 0, 16⟩
def F.CH.CHK_CTRL.ARM (p : Nat) : Fld := ⟨R.CH.CHK_CTRL p, 16, 1⟩
def F.CH.CHK_CTRL.CANCEL (p : Nat) : Fld := ⟨R.CH.CHK_CTRL p, 17, 1⟩
def F.CH.CHK_CTRL.TIMEOUT (p : Nat) : Fld := ⟨R.CH.CHK_CTRL p, 18, 12⟩
def F.CH.CHK_STATUS.STATE (p : Nat) : Fld := ⟨R.CH.CHK_STATUS p, 0, 2⟩
def F.CH.CHK_STATUS.LAST (p : Nat) : Fld := ⟨R.CH.CHK_STATUS p, 2, 3⟩
def F.CH.CHK_STATUS.LAST_TAG (p : Nat) : Fld := ⟨R.CH.CHK_STATUS p, 5, 16⟩
def F.CH.SEQ.SEQ (p : Nat) : Fld := ⟨R.CH.SEQ p, 0, 24⟩
def F.CH.AUDIT.COUNT (p : Nat) : Fld := ⟨R.CH.AUDIT p, 0, 24⟩
def F.CH.CHECKSUM.CRC (p : Nat) : Fld := ⟨R.CH.CHECKSUM p, 0, 32⟩
def F.CH.SEAL_STATUS.OPEN (p : Nat) : Fld := ⟨R.CH.SEAL_STATUS p, 0, 1⟩
def F.CH.SEAL_STATUS.LINE (p : Nat) : Fld := ⟨R.CH.SEAL_STATUS p, 1, 1⟩
def F.CH.SEAL_STATUS.STAGED (p : Nat) : Fld := ⟨R.CH.SEAL_STATUS p, 2, 1⟩
def F.CH.SEAL_STATUS.CAL_VALID (p : Nat) : Fld := ⟨R.CH.SEAL_STATUS p, 3, 1⟩
def F.CH.SEAL_STATUS.RESULT (p : Nat) : Fld := ⟨R.CH.SEAL_STATUS p, 4, 4⟩
def F.CH.SEAL_STATUS.LEFT (p : Nat) : Fld := ⟨R.CH.SEAL_STATUS p, 8, 12⟩
def F.CH.SEAL_CTRL.COMMIT (p : Nat) : Fld := ⟨R.CH.SEAL_CTRL p, 0, 1⟩
def F.CH.SEAL_CTRL.DISCARD (p : Nat) : Fld := ⟨R.CH.SEAL_CTRL p, 1, 1⟩
def F.CH.SEAL_CTRL.CAL_ZERO (p : Nat) : Fld := ⟨R.CH.SEAL_CTRL p, 2, 1⟩
def F.CH.SEAL_CTRL.CAL_SPAN (p : Nat) : Fld := ⟨R.CH.SEAL_CTRL p, 3, 1⟩
def F.CH.IIR_K.K (p : Nat) : Fld := ⟨R.CH.IIR_K p, 0, 4⟩
def F.CH.MOTION_WIN.MW (p : Nat) : Fld := ⟨R.CH.MOTION_WIN p, 0, 8⟩
def F.CH.NOISE.VALUE (p : Nat) : Fld := ⟨R.CH.NOISE p, 0, 40⟩
def F.CH.FGOV_SUGGEST.K (p : Nat) : Fld := ⟨R.CH.FGOV_SUGGEST p, 0, 4⟩
def F.CH.FGOV_SUGGEST.MW (p : Nat) : Fld := ⟨R.CH.FGOV_SUGGEST p, 4, 8⟩
def F.CH.FGOV_SUGGEST.VALID (p : Nat) : Fld := ⟨R.CH.FGOV_SUGGEST p, 12, 1⟩
def F.CH.SEAL_LINE.LINE (p : Nat) : Fld := ⟨R.CH.SEAL_LINE p, 0, 8⟩
def F.CH.SEAL_LINE.POL (p : Nat) : Fld := ⟨R.CH.SEAL_LINE p, 8, 1⟩
def F.CH.SEAL_LINE.VALID (p : Nat) : Fld := ⟨R.CH.SEAL_LINE p, 9, 1⟩
def F.CH.CAL_ZERO.RAW (p : Nat) : Fld := ⟨R.CH.CAL_ZERO p, 0, 40⟩
def F.CH.SPAN.GAIN (p : Nat) : Fld := ⟨R.CH.SPAN p, 0, 40⟩
def F.CH.RANGE.MAX (p i : Nat) : Fld := ⟨R.CH.RANGE p i, 0, 24⟩
def F.CH.RANGE.E (p i : Nat) : Fld := ⟨R.CH.RANGE p i, 24, 16⟩
def F.CH.METRO.DP (p : Nat) : Fld := ⟨R.CH.METRO p, 0, 3⟩
def F.CH.METRO.NRANGES (p : Nat) : Fld := ⟨R.CH.METRO p, 3, 2⟩
def F.CH.METRO.ZT_EN (p : Nat) : Fld := ⟨R.CH.METRO p, 5, 1⟩
def F.CH.METRO.BAND (p : Nat) : Fld := ⟨R.CH.METRO p, 6, 4⟩
def F.CH.METRO.K_MIN (p : Nat) : Fld := ⟨R.CH.METRO p, 10, 4⟩
def F.CH.METRO.K_MAX (p : Nat) : Fld := ⟨R.CH.METRO p, 14, 4⟩
def F.CH.METRO.MW_MIN (p : Nat) : Fld := ⟨R.CH.METRO p, 18, 8⟩
def F.CH.METRO.MW_MAX (p : Nat) : Fld := ⟨R.CH.METRO p, 26, 8⟩
def F.CH.DECIM.CLKSEL (p : Nat) : Fld := ⟨R.CH.DECIM p, 0, 3⟩
def F.CH.DECIM.EDGE (p : Nat) : Fld := ⟨R.CH.DECIM p, 3, 1⟩
def F.CH.DECIM.DEC (p : Nat) : Fld := ⟨R.CH.DECIM p, 4, 13⟩
def F.CH.DECIM.FDEC (p : Nat) : Fld := ⟨R.CH.DECIM p, 17, 2⟩
def F.CH.DECIM.RDIV (p : Nat) : Fld := ⟨R.CH.DECIM p, 19, 3⟩
def F.CH.FIR_INDEX.TAP (p : Nat) : Fld := ⟨R.CH.FIR_INDEX p, 0, 6⟩
def F.CH.FIR_DATA.COEF (p : Nat) : Fld := ⟨R.CH.FIR_DATA p, 0, 24⟩
def F.CH.CAL_REF.REF (p : Nat) : Fld := ⟨R.CH.CAL_REF p, 0, 24⟩

/-! ### LIO (R550-R552) -/

/-- `CFG` at 0x040. -/
def R.LIO.CFG : Nat := 0xFFF00E0040
/-- `POOL` at 0x048. -/
def R.LIO.POOL : Nat := 0xFFF00E0048
/-- `DROP_LAST` at 0x050. -/
def R.LIO.DROP_LAST : Nat := 0xFFF00E0050
/-- `EV_DROPS` at 0x058. -/
def R.LIO.EV_DROPS : Nat := 0xFFF00E0058
/-- `AREA_BASE` at 0x100. -/
def R.LIO.AREA_BASE (i : Nat) : Nat := 0xFFF00E0100 + 0x10 * i
/-- `AREA_QUEUE` at 0x108. -/
def R.LIO.AREA_QUEUE (i : Nat) : Nat := 0xFFF00E0108 + 0x10 * i
def F.LIO.CFG.TX_KEY : Fld := ⟨R.LIO.CFG, 0, 4⟩
def F.LIO.POOL.FREE : Fld := ⟨R.LIO.POOL, 0, 12⟩
def F.LIO.POOL.LOW : Fld := ⟨R.LIO.POOL, 12, 12⟩
def F.LIO.DROP_LAST.PORT : Fld := ⟨R.LIO.DROP_LAST, 0, 7⟩
def F.LIO.DROP_LAST.REASON : Fld := ⟨R.LIO.DROP_LAST, 7, 3⟩
def F.LIO.DROP_LAST.QUEUE : Fld := ⟨R.LIO.DROP_LAST, 10, 13⟩
def F.LIO.EV_DROPS.COUNT : Fld := ⟨R.LIO.EV_DROPS, 0, 40⟩
def F.LIO.AREA_BASE.SIZE (i : Nat) : Fld := ⟨R.LIO.AREA_BASE i, 0, 3⟩
def F.LIO.AREA_BASE.VALID (i : Nat) : Fld := ⟨R.LIO.AREA_BASE i, 3, 1⟩
def F.LIO.AREA_BASE.BASE (i : Nat) : Fld := ⟨R.LIO.AREA_BASE i, 12, 28⟩
def F.LIO.AREA_QUEUE.QUEUE (i : Nat) : Fld := ⟨R.LIO.AREA_QUEUE i, 0, 13⟩
def F.LIO.AREA_QUEUE.NEXT (i : Nat) : Fld := ⟨R.LIO.AREA_QUEUE i, 13, 17⟩

/-! ### OWN (R550-R552) -/

/-- `CLAIM` at 0x040. -/
def R.OWN.CLAIM : Nat := 0xFFF00EF040
/-- `CLAIM_RESULT` at 0x048. -/
def R.OWN.CLAIM_RESULT : Nat := 0xFFF00EF048
/-- `OWN_SELECT` at 0x050. -/
def R.OWN.OWN_SELECT : Nat := 0xFFF00EF050
/-- `OWN_READ` at 0x058. -/
def R.OWN.OWN_READ : Nat := 0xFFF00EF058
def F.OWN.CLAIM.KIND : Fld := ⟨R.OWN.CLAIM, 0, 2⟩
def F.OWN.OWN_SELECT.KIND : Fld := ⟨R.OWN.OWN_SELECT, 0, 2⟩
def F.OWN.CLAIM.INDEX : Fld := ⟨R.OWN.CLAIM, 2, 8⟩
def F.OWN.OWN_SELECT.INDEX : Fld := ⟨R.OWN.OWN_SELECT, 2, 8⟩
def F.OWN.CLAIM.RELEASE : Fld := ⟨R.OWN.CLAIM, 10, 1⟩
def F.OWN.CLAIM.UNITS : Fld := ⟨R.OWN.CLAIM, 11, 12⟩
def F.OWN.CLAIM_RESULT.STATUS : Fld := ⟨R.OWN.CLAIM_RESULT, 0, 3⟩
def F.OWN.OWN_READ.OWNER : Fld := ⟨R.OWN.OWN_READ, 0, 12⟩
def F.OWN.OWN_READ.CLAIMED : Fld := ⟨R.OWN.OWN_READ, 12, 1⟩
def F.OWN.OWN_READ.UNITS : Fld := ⟨R.OWN.OWN_READ, 13, 12⟩
def F.OWN.OWN_READ.USED : Fld := ⟨R.OWN.OWN_READ, 25, 12⟩

/-! ### USBP (R550-R552) -/

/-- `PORT_CTRL` at 0x040. -/
def R.USBP.PORT_CTRL (p i : Nat) : Nat := p + 0x40 + 0x1C0 * i
/-- `PORT_STATUS` at 0x048. -/
def R.USBP.PORT_STATUS (p i : Nat) : Nat := p + 0x48 + 0x1C0 * i
/-- `CTLQ` at 0x050. -/
def R.USBP.CTLQ (p i : Nat) : Nat := p + 0x50 + 0x1C0 * i
/-- `PIPE_CFG` at 0x080. -/
def R.USBP.PIPE_CFG (p i j : Nat) : Nat := p + 0x80 + 0x1C0 * i + 0x18 * j
/-- `PIPE_BIND` at 0x088. -/
def R.USBP.PIPE_BIND (p i j : Nat) : Nat := p + 0x88 + 0x1C0 * i + 0x18 * j
/-- `PIPE_STATS` at 0x090. -/
def R.USBP.PIPE_STATS (p i j : Nat) : Nat := p + 0x90 + 0x1C0 * i + 0x18 * j
def F.USBP.PIPE_BIND.QUEUE (p i j : Nat) : Fld := ⟨R.USBP.PIPE_BIND p i j, 0, 13⟩
def F.USBP.PIPE_BIND.ENABLE (p i j : Nat) : Fld := ⟨R.USBP.PIPE_BIND p i j, 13, 1⟩
def F.USBP.PIPE_BIND.PROFILE (p i j : Nat) : Fld := ⟨R.USBP.PIPE_BIND p i j, 14, 6⟩
def F.USBP.PIPE_BIND.REF (p i j : Nat) : Fld := ⟨R.USBP.PIPE_BIND p i j, 20, 1⟩
def F.USBP.PIPE_BIND.AREA (p i j : Nat) : Fld := ⟨R.USBP.PIPE_BIND p i j, 21, 5⟩
def F.USBP.PIPE_BIND.SPEED (p i j : Nat) : Fld := ⟨R.USBP.PIPE_BIND p i j, 26, 2⟩
def F.USBP.PIPE_BIND.HALTED (p i j : Nat) : Fld := ⟨R.USBP.PIPE_BIND p i j, 28, 1⟩
def F.USBP.PIPE_STATS.QFULL (p i j : Nat) : Fld := ⟨R.USBP.PIPE_STATS p i j, 0, 8⟩
def F.USBP.PIPE_STATS.POOL (p i j : Nat) : Fld := ⟨R.USBP.PIPE_STATS p i j, 8, 8⟩
def F.USBP.PIPE_STATS.CHECK (p i j : Nat) : Fld := ⟨R.USBP.PIPE_STATS p i j, 16, 8⟩
def F.USBP.PIPE_STATS.FORM (p i j : Nat) : Fld := ⟨R.USBP.PIPE_STATS p i j, 24, 8⟩
def F.USBP.PIPE_STATS.TXERR (p i j : Nat) : Fld := ⟨R.USBP.PIPE_STATS p i j, 32, 8⟩
def F.USBP.PORT_CTRL.ENABLE (p i : Nat) : Fld := ⟨R.USBP.PORT_CTRL p i, 0, 1⟩
def F.USBP.PORT_CTRL.RESET (p i : Nat) : Fld := ⟨R.USBP.PORT_CTRL p i, 1, 1⟩
def F.USBP.PORT_STATUS.CONNECT (p i : Nat) : Fld := ⟨R.USBP.PORT_STATUS p i, 0, 1⟩
def F.USBP.PORT_STATUS.SPEED (p i : Nat) : Fld := ⟨R.USBP.PORT_STATUS p i, 1, 2⟩
def F.USBP.PORT_STATUS.ENABLED (p i : Nat) : Fld := ⟨R.USBP.PORT_STATUS p i, 3, 1⟩
def F.USBP.CTLQ.QUEUE (p i : Nat) : Fld := ⟨R.USBP.CTLQ p i, 0, 13⟩
def F.USBP.CTLQ.VALID (p i : Nat) : Fld := ⟨R.USBP.CTLQ p i, 13, 1⟩
def F.USBP.PIPE_CFG.ADDR (p i j : Nat) : Fld := ⟨R.USBP.PIPE_CFG p i j, 0, 7⟩
def F.USBP.PIPE_CFG.EP (p i j : Nat) : Fld := ⟨R.USBP.PIPE_CFG p i j, 7, 4⟩
def F.USBP.PIPE_CFG.DIR (p i j : Nat) : Fld := ⟨R.USBP.PIPE_CFG p i j, 11, 1⟩
def F.USBP.PIPE_CFG.TYPE (p i j : Nat) : Fld := ⟨R.USBP.PIPE_CFG p i j, 12, 2⟩
def F.USBP.PIPE_CFG.MPS (p i j : Nat) : Fld := ⟨R.USBP.PIPE_CFG p i j, 14, 11⟩
def F.USBP.PIPE_CFG.INTERVAL (p i j : Nat) : Fld := ⟨R.USBP.PIPE_CFG p i j, 25, 4⟩
def F.USBP.PIPE_CFG.HUB (p i j : Nat) : Fld := ⟨R.USBP.PIPE_CFG p i j, 29, 7⟩
def F.USBP.PIPE_CFG.HPORT (p i j : Nat) : Fld := ⟨R.USBP.PIPE_CFG p i j, 36, 4⟩

/-! ### UARTP (R550-R552) -/

/-- `UA_CFG` at 0x040. -/
def R.UARTP.UA_CFG (p i : Nat) : Nat := p + 0x40 + 0x40 * i
/-- `UA_MODE` at 0x048. -/
def R.UARTP.UA_MODE (p i : Nat) : Nat := p + 0x48 + 0x40 * i
/-- `UA_BIND` at 0x050. -/
def R.UARTP.UA_BIND (p i : Nat) : Nat := p + 0x50 + 0x40 * i
/-- `UA_TXQ` at 0x058. -/
def R.UARTP.UA_TXQ (p i : Nat) : Nat := p + 0x58 + 0x40 * i
/-- `UA_STATS` at 0x060. -/
def R.UARTP.UA_STATS (p i : Nat) : Nat := p + 0x60 + 0x40 * i
/-- `UA_STATUS` at 0x068. -/
def R.UARTP.UA_STATUS (p i : Nat) : Nat := p + 0x68 + 0x40 * i
def F.UARTP.UA_BIND.QUEUE (p i : Nat) : Fld := ⟨R.UARTP.UA_BIND p i, 0, 13⟩
def F.UARTP.UA_BIND.ENABLE (p i : Nat) : Fld := ⟨R.UARTP.UA_BIND p i, 13, 1⟩
def F.UARTP.UA_BIND.PROFILE (p i : Nat) : Fld := ⟨R.UARTP.UA_BIND p i, 14, 6⟩
def F.UARTP.UA_BIND.REF (p i : Nat) : Fld := ⟨R.UARTP.UA_BIND p i, 20, 1⟩
def F.UARTP.UA_BIND.AREA (p i : Nat) : Fld := ⟨R.UARTP.UA_BIND p i, 21, 5⟩
def F.UARTP.UA_BIND.SPEED (p i : Nat) : Fld := ⟨R.UARTP.UA_BIND p i, 26, 2⟩
def F.UARTP.UA_BIND.HALTED (p i : Nat) : Fld := ⟨R.UARTP.UA_BIND p i, 28, 1⟩
def F.UARTP.UA_TXQ.QUEUE (p i : Nat) : Fld := ⟨R.UARTP.UA_TXQ p i, 0, 13⟩
def F.UARTP.UA_TXQ.ENABLE (p i : Nat) : Fld := ⟨R.UARTP.UA_TXQ p i, 13, 1⟩
def F.UARTP.UA_TXQ.PROFILE (p i : Nat) : Fld := ⟨R.UARTP.UA_TXQ p i, 14, 6⟩
def F.UARTP.UA_STATS.QFULL (p i : Nat) : Fld := ⟨R.UARTP.UA_STATS p i, 0, 8⟩
def F.UARTP.UA_STATS.POOL (p i : Nat) : Fld := ⟨R.UARTP.UA_STATS p i, 8, 8⟩
def F.UARTP.UA_STATS.CHECK (p i : Nat) : Fld := ⟨R.UARTP.UA_STATS p i, 16, 8⟩
def F.UARTP.UA_STATS.FORM (p i : Nat) : Fld := ⟨R.UARTP.UA_STATS p i, 24, 8⟩
def F.UARTP.UA_STATS.TXERR (p i : Nat) : Fld := ⟨R.UARTP.UA_STATS p i, 32, 8⟩
def F.UARTP.UA_CFG.DIV (p i : Nat) : Fld := ⟨R.UARTP.UA_CFG p i, 0, 24⟩
def F.UARTP.UA_CFG.DATA (p i : Nat) : Fld := ⟨R.UARTP.UA_CFG p i, 24, 2⟩
def F.UARTP.UA_CFG.PARITY (p i : Nat) : Fld := ⟨R.UARTP.UA_CFG p i, 26, 2⟩
def F.UARTP.UA_CFG.STOP2 (p i : Nat) : Fld := ⟨R.UARTP.UA_CFG p i, 28, 1⟩
def F.UARTP.UA_CFG.ENABLE (p i : Nat) : Fld := ⟨R.UARTP.UA_CFG p i, 29, 1⟩
def F.UARTP.UA_MODE.RTSCTS (p i : Nat) : Fld := ⟨R.UARTP.UA_MODE p i, 0, 1⟩
def F.UARTP.UA_MODE.RS485 (p i : Nat) : Fld := ⟨R.UARTP.UA_MODE p i, 1, 1⟩
def F.UARTP.UA_MODE.ECHO_IGN (p i : Nat) : Fld := ⟨R.UARTP.UA_MODE p i, 2, 1⟩
def F.UARTP.UA_MODE.TX_LEAD (p i : Nat) : Fld := ⟨R.UARTP.UA_MODE p i, 3, 5⟩
def F.UARTP.UA_MODE.TX_LAG (p i : Nat) : Fld := ⟨R.UARTP.UA_MODE p i, 8, 5⟩
def F.UARTP.UA_STATUS.CTS (p i : Nat) : Fld := ⟨R.UARTP.UA_STATUS p i, 0, 1⟩
def F.UARTP.UA_STATUS.TXBUSY (p i : Nat) : Fld := ⟨R.UARTP.UA_STATUS p i, 1, 1⟩
def F.UARTP.UA_STATUS.RXACTIVE (p i : Nat) : Fld := ⟨R.UARTP.UA_STATUS p i, 2, 1⟩

/-! ### CANP (R550-R552) -/

/-- `CAN_CFG` at 0x040. -/
def R.CANP.CAN_CFG (i : Nat) : Nat := 0xFFF00E8040 + 0xF0 * i
/-- `NTIME` at 0x048. -/
def R.CANP.NTIME (i : Nat) : Nat := 0xFFF00E8048 + 0xF0 * i
/-- `DTIME` at 0x050. -/
def R.CANP.DTIME (i : Nat) : Nat := 0xFFF00E8050 + 0xF0 * i
/-- `CAN_TXQ` at 0x058. -/
def R.CANP.CAN_TXQ (i : Nat) : Nat := 0xFFF00E8058 + 0xF0 * i
/-- `CAN_STATS` at 0x060. -/
def R.CANP.CAN_STATS (i : Nat) : Nat := 0xFFF00E8060 + 0xF0 * i
/-- `CAN_STATUS` at 0x068. -/
def R.CANP.CAN_STATUS (i : Nat) : Nat := 0xFFF00E8068 + 0xF0 * i
/-- `FILT_ID` at 0x070. -/
def R.CANP.FILT_ID (i j : Nat) : Nat := 0xFFF00E8070 + 0xF0 * i + 0x18 * j
/-- `FILT_MASK` at 0x078. -/
def R.CANP.FILT_MASK (i j : Nat) : Nat := 0xFFF00E8078 + 0xF0 * i + 0x18 * j
/-- `FILT_BIND` at 0x080. -/
def R.CANP.FILT_BIND (i j : Nat) : Nat := 0xFFF00E8080 + 0xF0 * i + 0x18 * j
def F.CANP.FILT_BIND.QUEUE (i j : Nat) : Fld := ⟨R.CANP.FILT_BIND i j, 0, 13⟩
def F.CANP.FILT_BIND.ENABLE (i j : Nat) : Fld := ⟨R.CANP.FILT_BIND i j, 13, 1⟩
def F.CANP.FILT_BIND.PROFILE (i j : Nat) : Fld := ⟨R.CANP.FILT_BIND i j, 14, 6⟩
def F.CANP.FILT_BIND.REF (i j : Nat) : Fld := ⟨R.CANP.FILT_BIND i j, 20, 1⟩
def F.CANP.FILT_BIND.AREA (i j : Nat) : Fld := ⟨R.CANP.FILT_BIND i j, 21, 5⟩
def F.CANP.FILT_BIND.SPEED (i j : Nat) : Fld := ⟨R.CANP.FILT_BIND i j, 26, 2⟩
def F.CANP.FILT_BIND.HALTED (i j : Nat) : Fld := ⟨R.CANP.FILT_BIND i j, 28, 1⟩
def F.CANP.CAN_TXQ.QUEUE (i : Nat) : Fld := ⟨R.CANP.CAN_TXQ i, 0, 13⟩
def F.CANP.CAN_TXQ.ENABLE (i : Nat) : Fld := ⟨R.CANP.CAN_TXQ i, 13, 1⟩
def F.CANP.CAN_TXQ.PROFILE (i : Nat) : Fld := ⟨R.CANP.CAN_TXQ i, 14, 6⟩
def F.CANP.CAN_STATS.QFULL (i : Nat) : Fld := ⟨R.CANP.CAN_STATS i, 0, 8⟩
def F.CANP.CAN_STATS.POOL (i : Nat) : Fld := ⟨R.CANP.CAN_STATS i, 8, 8⟩
def F.CANP.CAN_STATS.CHECK (i : Nat) : Fld := ⟨R.CANP.CAN_STATS i, 16, 8⟩
def F.CANP.CAN_STATS.FORM (i : Nat) : Fld := ⟨R.CANP.CAN_STATS i, 24, 8⟩
def F.CANP.CAN_STATS.TXERR (i : Nat) : Fld := ⟨R.CANP.CAN_STATS i, 32, 8⟩
def F.CANP.CAN_CFG.ENABLE (i : Nat) : Fld := ⟨R.CANP.CAN_CFG i, 0, 1⟩
def F.CANP.CAN_CFG.FD (i : Nat) : Fld := ⟨R.CANP.CAN_CFG i, 1, 1⟩
def F.CANP.CAN_CFG.LISTEN (i : Nat) : Fld := ⟨R.CANP.CAN_CFG i, 2, 1⟩
def F.CANP.CAN_CFG.AUTO (i : Nat) : Fld := ⟨R.CANP.CAN_CFG i, 3, 1⟩
def F.CANP.NTIME.BRP (i : Nat) : Fld := ⟨R.CANP.NTIME i, 0, 5⟩
def F.CANP.NTIME.TSEG1 (i : Nat) : Fld := ⟨R.CANP.NTIME i, 5, 8⟩
def F.CANP.NTIME.TSEG2 (i : Nat) : Fld := ⟨R.CANP.NTIME i, 13, 7⟩
def F.CANP.NTIME.SJW (i : Nat) : Fld := ⟨R.CANP.NTIME i, 20, 7⟩
def F.CANP.DTIME.BRP (i : Nat) : Fld := ⟨R.CANP.DTIME i, 0, 5⟩
def F.CANP.DTIME.TSEG1 (i : Nat) : Fld := ⟨R.CANP.DTIME i, 5, 5⟩
def F.CANP.DTIME.TSEG2 (i : Nat) : Fld := ⟨R.CANP.DTIME i, 10, 4⟩
def F.CANP.DTIME.SJW (i : Nat) : Fld := ⟨R.CANP.DTIME i, 14, 4⟩
def F.CANP.DTIME.TDC (i : Nat) : Fld := ⟨R.CANP.DTIME i, 18, 1⟩
def F.CANP.DTIME.TDCO (i : Nat) : Fld := ⟨R.CANP.DTIME i, 19, 7⟩
def F.CANP.CAN_STATUS.TEC (i : Nat) : Fld := ⟨R.CANP.CAN_STATUS i, 0, 8⟩
def F.CANP.CAN_STATUS.REC (i : Nat) : Fld := ⟨R.CANP.CAN_STATUS i, 8, 8⟩
def F.CANP.CAN_STATUS.STATE (i : Nat) : Fld := ⟨R.CANP.CAN_STATUS i, 16, 2⟩
def F.CANP.FILT_ID.ID (i j : Nat) : Fld := ⟨R.CANP.FILT_ID i j, 0, 29⟩
def F.CANP.FILT_MASK.MASK (i j : Nat) : Fld := ⟨R.CANP.FILT_MASK i j, 0, 29⟩
def F.CANP.FILT_ID.IDE (i j : Nat) : Fld := ⟨R.CANP.FILT_ID i j, 29, 1⟩
def F.CANP.FILT_ID.VALID (i j : Nat) : Fld := ⟨R.CANP.FILT_ID i j, 30, 1⟩

/-! ### NET (R586-R588) -/

/-- `CFG` at 0x040. -/
def R.NET.CFG : Nat := 0xFFF00F0040
/-- `TS_QUEUE` at 0x048. -/
def R.NET.TS_QUEUE : Nat := 0xFFF00F0048
/-- `DROP_LAST` at 0x050. -/
def R.NET.DROP_LAST : Nat := 0xFFF00F0050
/-- `RULE_MATCH` at 0x100. -/
def R.NET.RULE_MATCH (i : Nat) : Nat := 0xFFF00F0100 + 0x18 * i
/-- `RULE_PORTS` at 0x108. -/
def R.NET.RULE_PORTS (i : Nat) : Nat := 0xFFF00F0108 + 0x18 * i
/-- `RULE_ACTION` at 0x110. -/
def R.NET.RULE_ACTION (i : Nat) : Nat := 0xFFF00F0110 + 0x18 * i
/-- `AREA_BASE` at 0x700. -/
def R.NET.AREA_BASE (i : Nat) : Nat := 0xFFF00F0700 + 0x10 * i
/-- `AREA_QUEUE` at 0x708. -/
def R.NET.AREA_QUEUE (i : Nat) : Nat := 0xFFF00F0708 + 0x10 * i
def F.NET.CFG.TX_KEY : Fld := ⟨R.NET.CFG, 0, 4⟩
def F.NET.TS_QUEUE.QUEUE : Fld := ⟨R.NET.TS_QUEUE, 0, 13⟩
def F.NET.TS_QUEUE.VALID : Fld := ⟨R.NET.TS_QUEUE, 13, 1⟩
def F.NET.DROP_LAST.PORT : Fld := ⟨R.NET.DROP_LAST, 0, 5⟩
def F.NET.DROP_LAST.REASON : Fld := ⟨R.NET.DROP_LAST, 5, 3⟩
def F.NET.DROP_LAST.QUEUE : Fld := ⟨R.NET.DROP_LAST, 8, 13⟩
def F.NET.AREA_BASE.SIZE (i : Nat) : Fld := ⟨R.NET.AREA_BASE i, 0, 4⟩
def F.NET.AREA_BASE.VALID (i : Nat) : Fld := ⟨R.NET.AREA_BASE i, 4, 1⟩
def F.NET.AREA_BASE.BASE (i : Nat) : Fld := ⟨R.NET.AREA_BASE i, 12, 28⟩
def F.NET.AREA_QUEUE.QUEUE (i : Nat) : Fld := ⟨R.NET.AREA_QUEUE i, 0, 13⟩
def F.NET.AREA_QUEUE.NEXT (i : Nat) : Fld := ⟨R.NET.AREA_QUEUE i, 13, 17⟩
def F.NET.RULE_MATCH.VID (i : Nat) : Fld := ⟨R.NET.RULE_MATCH i, 0, 12⟩
def F.NET.RULE_MATCH.VID_EN (i : Nat) : Fld := ⟨R.NET.RULE_MATCH i, 12, 1⟩
def F.NET.RULE_MATCH.UNTAGGED (i : Nat) : Fld := ⟨R.NET.RULE_MATCH i, 13, 1⟩
def F.NET.RULE_MATCH.ETYPE (i : Nat) : Fld := ⟨R.NET.RULE_MATCH i, 14, 16⟩
def F.NET.RULE_MATCH.ETYPE_EN (i : Nat) : Fld := ⟨R.NET.RULE_MATCH i, 30, 1⟩
def F.NET.RULE_MATCH.GROUP (i : Nat) : Fld := ⟨R.NET.RULE_MATCH i, 31, 1⟩
def F.NET.RULE_PORTS.PORTS (i : Nat) : Fld := ⟨R.NET.RULE_PORTS i, 0, 18⟩
def F.NET.RULE_ACTION.AREA (i : Nat) : Fld := ⟨R.NET.RULE_ACTION i, 0, 4⟩
def F.NET.RULE_ACTION.DROP (i : Nat) : Fld := ⟨R.NET.RULE_ACTION i, 4, 1⟩
def F.NET.RULE_ACTION.VALID (i : Nat) : Fld := ⟨R.NET.RULE_ACTION i, 5, 1⟩

/-! ### NPORT (R586-R588) -/

/-- `PCFG` at 0x040. -/
def R.NPORT.PCFG (p i : Nat) : Nat := p + 0x40 + 0x40 * i
/-- `MAC_LO` at 0x048. -/
def R.NPORT.MAC_LO (p i : Nat) : Nat := p + 0x48 + 0x40 * i
/-- `MAC_HI` at 0x050. -/
def R.NPORT.MAC_HI (p i : Nat) : Nat := p + 0x50 + 0x40 * i
/-- `TXQ` at 0x058. -/
def R.NPORT.TXQ (p i : Nat) : Nat := p + 0x58 + 0x40 * i
/-- `PSTATUS` at 0x060. -/
def R.NPORT.PSTATUS (p i : Nat) : Nat := p + 0x60 + 0x40 * i
/-- `RX_FRAMES` at 0x068. -/
def R.NPORT.RX_FRAMES (p i : Nat) : Nat := p + 0x68 + 0x40 * i
/-- `TX_FRAMES` at 0x070. -/
def R.NPORT.TX_FRAMES (p i : Nat) : Nat := p + 0x70 + 0x40 * i
/-- `DROPS` at 0x078. -/
def R.NPORT.DROPS (p i : Nat) : Nat := p + 0x78 + 0x40 * i
def F.NPORT.PCFG.ENABLE (p i : Nat) : Fld := ⟨R.NPORT.PCFG p i, 0, 1⟩
def F.NPORT.PCFG.PROMISC (p i : Nat) : Fld := ⟨R.NPORT.PCFG p i, 1, 1⟩
def F.NPORT.PCFG.MCAST (p i : Nat) : Fld := ⟨R.NPORT.PCFG p i, 2, 1⟩
def F.NPORT.PCFG.PAUSE_RX (p i : Nat) : Fld := ⟨R.NPORT.PCFG p i, 3, 1⟩
def F.NPORT.PCFG.PAUSE_TX (p i : Nat) : Fld := ⟨R.NPORT.PCFG p i, 4, 1⟩
def F.NPORT.PCFG.AN (p i : Nat) : Fld := ⟨R.NPORT.PCFG p i, 5, 1⟩
def F.NPORT.PCFG.SPEED (p i : Nat) : Fld := ⟨R.NPORT.PCFG p i, 6, 2⟩
def F.NPORT.PCFG.MAXLEN (p i : Nat) : Fld := ⟨R.NPORT.PCFG p i, 8, 14⟩
def F.NPORT.MAC_LO.ADDR (p i : Nat) : Fld := ⟨R.NPORT.MAC_LO p i, 0, 32⟩
def F.NPORT.MAC_HI.ADDR (p i : Nat) : Fld := ⟨R.NPORT.MAC_HI p i, 0, 16⟩
def F.NPORT.TXQ.QUEUE (p i : Nat) : Fld := ⟨R.NPORT.TXQ p i, 0, 13⟩
def F.NPORT.TXQ.ENABLE (p i : Nat) : Fld := ⟨R.NPORT.TXQ p i, 13, 1⟩
def F.NPORT.PSTATUS.LINK (p i : Nat) : Fld := ⟨R.NPORT.PSTATUS p i, 0, 1⟩
def F.NPORT.PSTATUS.SPEED (p i : Nat) : Fld := ⟨R.NPORT.PSTATUS p i, 1, 2⟩
def F.NPORT.PSTATUS.PAUSED (p i : Nat) : Fld := ⟨R.NPORT.PSTATUS p i, 3, 1⟩
def F.NPORT.RX_FRAMES.COUNT (p i : Nat) : Fld := ⟨R.NPORT.RX_FRAMES p i, 0, 40⟩
def F.NPORT.TX_FRAMES.COUNT (p i : Nat) : Fld := ⟨R.NPORT.TX_FRAMES p i, 0, 40⟩
def F.NPORT.DROPS.FCS (p i : Nat) : Fld := ⟨R.NPORT.DROPS p i, 0, 8⟩
def F.NPORT.DROPS.NOMATCH (p i : Nat) : Fld := ⟨R.NPORT.DROPS p i, 8, 8⟩
def F.NPORT.DROPS.QFULL (p i : Nat) : Fld := ⟨R.NPORT.DROPS p i, 16, 8⟩
def F.NPORT.DROPS.FIFO (p i : Nat) : Fld := ⟨R.NPORT.DROPS p i, 24, 8⟩
def F.NPORT.DROPS.TXERR (p i : Nat) : Fld := ⟨R.NPORT.DROPS p i, 32, 8⟩

/-! ### TB (R586-R588) -/

/-- `TB_CTRL` at 0x040. -/
def R.TB.TB_CTRL : Nat := 0xFFF00F3040
/-- `TB_NS` at 0x048. -/
def R.TB.TB_NS : Nat := 0xFFF00F3048
/-- `TB_SEC` at 0x050. -/
def R.TB.TB_SEC : Nat := 0xFFF00F3050
/-- `TB_SEC_HI` at 0x058. -/
def R.TB.TB_SEC_HI : Nat := 0xFFF00F3058
/-- `TB_RATE` at 0x060. -/
def R.TB.TB_RATE : Nat := 0xFFF00F3060
/-- `TB_OFFSET` at 0x068. -/
def R.TB.TB_OFFSET : Nat := 0xFFF00F3068
/-- `TB_SET_SEC` at 0x070. -/
def R.TB.TB_SET_SEC : Nat := 0xFFF00F3070
def F.TB.TB_CTRL.SNAP : Fld := ⟨R.TB.TB_CTRL, 0, 1⟩
def F.TB.TB_CTRL.STEP : Fld := ⟨R.TB.TB_CTRL, 1, 1⟩
def F.TB.TB_CTRL.SET : Fld := ⟨R.TB.TB_CTRL, 2, 1⟩
def F.TB.TB_CTRL.SOURCE : Fld := ⟨R.TB.TB_CTRL, 3, 1⟩
def F.TB.TB_RATE.RATE : Fld := ⟨R.TB.TB_RATE, 0, 28⟩
def F.TB.TB_OFFSET.NS : Fld := ⟨R.TB.TB_OFFSET, 0, 40⟩
def F.TB.TB_SET_SEC.SEC : Fld := ⟨R.TB.TB_SET_SEC, 0, 40⟩

/-! ### PCI (R586-R588) -/

/-- `PCFG` at 0x040. -/
def R.PCI.PCFG : Nat := 0xFFF0100040
/-- `PSTATUS` at 0x048. -/
def R.PCI.PSTATUS : Nat := 0xFFF0100048
/-- `BAR2` at 0x050. -/
def R.PCI.BAR2 : Nat := 0xFFF0100050
/-- `HOST_KRR` at 0x058. -/
def R.PCI.HOST_KRR : Nat := 0xFFF0100058
/-- `ID` at 0x060. -/
def R.PCI.ID : Nat := 0xFFF0100060
/-- `MSI_STATUS` at 0x068. -/
def R.PCI.MSI_STATUS : Nat := 0xFFF0100068
/-- `MSI_DOORBELL` at 0x070. -/
def R.PCI.MSI_DOORBELL : Nat := 0xFFF0100070
/-- `ERR_LAST` at 0x078. -/
def R.PCI.ERR_LAST : Nat := 0xFFF0100078
/-- `CPL_TIMEOUT` at 0x080. -/
def R.PCI.CPL_TIMEOUT : Nat := 0xFFF0100080
/-- `OUT_CFG` at 0x100. -/
def R.PCI.OUT_CFG (i : Nat) : Nat := 0xFFF0100100 + 0x18 * i
/-- `OUT_ADDR_LO` at 0x108. -/
def R.PCI.OUT_ADDR_LO (i : Nat) : Nat := 0xFFF0100108 + 0x18 * i
/-- `OUT_ADDR_HI` at 0x110. -/
def R.PCI.OUT_ADDR_HI (i : Nat) : Nat := 0xFFF0100110 + 0x18 * i
/-- `MSIX` at 0x200. -/
def R.PCI.MSIX (i : Nat) : Nat := 0xFFF0100200 + 0x8 * i
def F.PCI.PCFG.ROLE : Fld := ⟨R.PCI.PCFG, 0, 1⟩
def F.PCI.PCFG.MAXGEN : Fld := ⟨R.PCI.PCFG, 1, 2⟩
def F.PCI.PCFG.MAXWIDTH : Fld := ⟨R.PCI.PCFG, 3, 2⟩
def F.PCI.PSTATUS.LINK : Fld := ⟨R.PCI.PSTATUS, 0, 1⟩
def F.PCI.PSTATUS.GEN : Fld := ⟨R.PCI.PSTATUS, 1, 2⟩
def F.PCI.PSTATUS.WIDTH : Fld := ⟨R.PCI.PSTATUS, 3, 2⟩
def F.PCI.PSTATUS.MASTER : Fld := ⟨R.PCI.PSTATUS, 5, 1⟩
def F.PCI.BAR2.SIZE : Fld := ⟨R.PCI.BAR2, 0, 4⟩
def F.PCI.BAR2.BASE : Fld := ⟨R.PCI.BAR2, 4, 10⟩
def F.PCI.HOST_KRR.RIGHTS : Fld := ⟨R.PCI.HOST_KRR, 0, 32⟩
def F.PCI.ID.VENDOR : Fld := ⟨R.PCI.ID, 0, 16⟩
def F.PCI.ID.DEVICE : Fld := ⟨R.PCI.ID, 16, 16⟩
def F.PCI.MSI_STATUS.MSI : Fld := ⟨R.PCI.MSI_STATUS, 0, 40⟩
def F.PCI.ERR_LAST.CAUSE : Fld := ⟨R.PCI.ERR_LAST, 0, 3⟩
def F.PCI.CPL_TIMEOUT.MS : Fld := ⟨R.PCI.CPL_TIMEOUT, 0, 10⟩
def F.PCI.OUT_CFG.VALID (i : Nat) : Fld := ⟨R.PCI.OUT_CFG i, 0, 1⟩
def F.PCI.OUT_CFG.SIZE (i : Nat) : Fld := ⟨R.PCI.OUT_CFG i, 1, 6⟩
def F.PCI.OUT_CFG.OFFSET (i : Nat) : Fld := ⟨R.PCI.OUT_CFG i, 7, 21⟩
def F.PCI.OUT_ADDR_LO.ADDR (i : Nat) : Fld := ⟨R.PCI.OUT_ADDR_LO i, 0, 40⟩
def F.PCI.OUT_ADDR_HI.ADDR (i : Nat) : Fld := ⟨R.PCI.OUT_ADDR_HI i, 0, 24⟩
def F.PCI.MSIX.QUEUE (i : Nat) : Fld := ⟨R.PCI.MSIX i, 0, 13⟩
def F.PCI.MSIX.VALID (i : Nat) : Fld := ⟨R.PCI.MSIX i, 13, 1⟩
def F.PCI.MSI_DOORBELL.VALUE : Fld := ⟨R.PCI.MSI_DOORBELL, 0, 40⟩

/-! ### IXL (R586-R588) -/

/-- `ROLE` at 0x040. -/
def R.IXL.ROLE : Nat := 0xFFF0110040
/-- `SITE` at 0x048. -/
def R.IXL.SITE : Nat := 0xFFF0110048
/-- `HB_CFG` at 0x050. -/
def R.IXL.HB_CFG : Nat := 0xFFF0110050
/-- `LIVE` at 0x058. -/
def R.IXL.LIVE : Nat := 0xFFF0110058
/-- `JSN_NEXT` at 0x060. -/
def R.IXL.JSN_NEXT : Nat := 0xFFF0110060
/-- `JSN_HIGH` at 0x068. -/
def R.IXL.JSN_HIGH : Nat := 0xFFF0110068
/-- `JSN_CFG` at 0x070. -/
def R.IXL.JSN_CFG : Nat := 0xFFF0110070
/-- `RT_CTRL` at 0x078. -/
def R.IXL.RT_CTRL : Nat := 0xFFF0110078
/-- `HANDOVER` at 0x080. -/
def R.IXL.HANDOVER : Nat := 0xFFF0110080
/-- `GCUT_CTRL` at 0x088. -/
def R.IXL.GCUT_CTRL : Nat := 0xFFF0110088
/-- `GCUT_STATUS` at 0x090. -/
def R.IXL.GCUT_STATUS : Nat := 0xFFF0110090
/-- `REMOTE_KRR` at 0x098. -/
def R.IXL.REMOTE_KRR : Nat := 0xFFF0110098
/-- `INBOUND` at 0x0A0. -/
def R.IXL.INBOUND : Nat := 0xFFF01100A0
/-- `DROPS` at 0x0A8. -/
def R.IXL.DROPS : Nat := 0xFFF01100A8
/-- `FORWARD_ERR` at 0x0B0. -/
def R.IXL.FORWARD_ERR : Nat := 0xFFF01100B0
/-- `GCUT_B` at 0x0C0. -/
def R.IXL.GCUT_B (i : Nat) : Nat := 0xFFF01100C0 + 0x8 * i
/-- `RT_ENTRY` at 0x100. -/
def R.IXL.RT_ENTRY (i : Nat) : Nat := 0xFFF0110100 + 0x8 * i
def F.IXL.ROLE.IS_PRIMARY : Fld := ⟨R.IXL.ROLE, 0, 1⟩
def F.IXL.ROLE.PRIMARY_ID : Fld := ⟨R.IXL.ROLE, 1, 3⟩
def F.IXL.ROLE.KNOWN : Fld := ⟨R.IXL.ROLE, 4, 1⟩
def F.IXL.ROLE.EPOCH : Fld := ⟨R.IXL.ROLE, 5, 16⟩
def F.IXL.ROLE.STRAP : Fld := ⟨R.IXL.ROLE, 21, 1⟩
def F.IXL.ROLE.ID : Fld := ⟨R.IXL.ROLE, 22, 3⟩
def F.IXL.SITE.SITE_ID : Fld := ⟨R.IXL.SITE, 0, 16⟩
def F.IXL.SITE.SIZE : Fld := ⟨R.IXL.SITE, 16, 3⟩
def F.IXL.HB_CFG.PERIOD : Fld := ⟨R.IXL.HB_CFG, 0, 8⟩
def F.IXL.HB_CFG.TIMEOUT : Fld := ⟨R.IXL.HB_CFG, 8, 8⟩
def F.IXL.HB_CFG.AUTO_PRUNE : Fld := ⟨R.IXL.HB_CFG, 16, 1⟩
def F.IXL.LIVE.LIVE : Fld := ⟨R.IXL.LIVE, 0, 8⟩
def F.IXL.JSN_NEXT.JSN : Fld := ⟨R.IXL.JSN_NEXT, 0, 40⟩
def F.IXL.JSN_HIGH.JSN : Fld := ⟨R.IXL.JSN_HIGH, 0, 40⟩
def F.IXL.JSN_CFG.GAP_LOG : Fld := ⟨R.IXL.JSN_CFG, 0, 5⟩
def F.IXL.RT_CTRL.SEND : Fld := ⟨R.IXL.RT_CTRL, 0, 1⟩
def F.IXL.RT_CTRL.RT_EPOCH : Fld := ⟨R.IXL.RT_CTRL, 1, 8⟩
def F.IXL.HANDOVER.TARGET : Fld := ⟨R.IXL.HANDOVER, 0, 3⟩
def F.IXL.HANDOVER.GO : Fld := ⟨R.IXL.HANDOVER, 3, 1⟩
def F.IXL.GCUT_CTRL.START : Fld := ⟨R.IXL.GCUT_CTRL, 0, 1⟩
def F.IXL.GCUT_CTRL.RELEASE : Fld := ⟨R.IXL.GCUT_CTRL, 1, 1⟩
def F.IXL.GCUT_CTRL.LEAD : Fld := ⟨R.IXL.GCUT_CTRL, 2, 14⟩
def F.IXL.GCUT_CTRL.NUMBER : Fld := ⟨R.IXL.GCUT_CTRL, 16, 8⟩
def F.IXL.GCUT_STATUS.RESULT (k : Nat) : Fld := ⟨R.IXL.GCUT_STATUS, 3 * k, 3⟩
def F.IXL.GCUT_STATUS.DONE : Fld := ⟨R.IXL.GCUT_STATUS, 24, 1⟩
def F.IXL.REMOTE_KRR.RIGHTS : Fld := ⟨R.IXL.REMOTE_KRR, 0, 32⟩
def F.IXL.INBOUND.BASE : Fld := ⟨R.IXL.INBOUND, 0, 10⟩
def F.IXL.DROPS.QMSG : Fld := ⟨R.IXL.DROPS, 0, 20⟩
def F.IXL.DROPS.TX : Fld := ⟨R.IXL.DROPS, 20, 20⟩
def F.IXL.FORWARD_ERR.COUNT : Fld := ⟨R.IXL.FORWARD_ERR, 0, 40⟩
def F.IXL.GCUT_B.B (i : Nat) : Fld := ⟨R.IXL.GCUT_B i, 0, 40⟩
def F.IXL.RT_ENTRY.PRESENT (i : Nat) : Fld := ⟨R.IXL.RT_ENTRY i, 0, 1⟩
def F.IXL.RT_ENTRY.KEY (i : Nat) : Fld := ⟨R.IXL.RT_ENTRY i, 1, 4⟩
def F.IXL.RT_ENTRY.PORT (i : Nat) : Fld := ⟨R.IXL.RT_ENTRY i, 5, 1⟩
def F.IXL.RT_ENTRY.HOPS (i : Nat) : Fld := ⟨R.IXL.RT_ENTRY i, 6, 4⟩
def F.IXL.RT_ENTRY.LIVE (i : Nat) : Fld := ⟨R.IXL.RT_ENTRY i, 10, 1⟩

/-! ### IXP (R586-R588) -/

/-- `XCTRL` at 0x040. -/
def R.IXP.XCTRL (p : Nat) : Nat := p + 0x40
/-- `XSTATUS` at 0x048. -/
def R.IXP.XSTATUS (p : Nat) : Nat := p + 0x48
/-- `DELAY` at 0x050. -/
def R.IXP.DELAY (p : Nat) : Nat := p + 0x50
/-- `CRC_ERRORS` at 0x058. -/
def R.IXP.CRC_ERRORS (p : Nat) : Nat := p + 0x58
/-- `REPLAYS` at 0x060. -/
def R.IXP.REPLAYS (p : Nat) : Nat := p + 0x60
/-- `RECOVERIES` at 0x068. -/
def R.IXP.RECOVERIES (p : Nat) : Nat := p + 0x68
def F.IXP.XCTRL.ENABLE (p : Nat) : Fld := ⟨R.IXP.XCTRL p, 0, 1⟩
def F.IXP.XCTRL.RETRAIN (p : Nat) : Fld := ⟨R.IXP.XCTRL p, 1, 1⟩
def F.IXP.XCTRL.MAXW (p : Nat) : Fld := ⟨R.IXP.XCTRL p, 2, 2⟩
def F.IXP.XSTATUS.STATE (p : Nat) : Fld := ⟨R.IXP.XSTATUS p, 0, 3⟩
def F.IXP.XSTATUS.WIDTH (p : Nat) : Fld := ⟨R.IXP.XSTATUS p, 3, 2⟩
def F.IXP.XSTATUS.PEER_ID (p : Nat) : Fld := ⟨R.IXP.XSTATUS p, 5, 3⟩
def F.IXP.XSTATUS.PEER_PORT (p : Nat) : Fld := ⟨R.IXP.XSTATUS p, 8, 1⟩
def F.IXP.XSTATUS.REFUSE (p : Nat) : Fld := ⟨R.IXP.XSTATUS p, 9, 3⟩
def F.IXP.DELAY.NS (p : Nat) : Fld := ⟨R.IXP.DELAY p, 0, 16⟩
def F.IXP.CRC_ERRORS.COUNT (p : Nat) : Fld := ⟨R.IXP.CRC_ERRORS p, 0, 40⟩
def F.IXP.REPLAYS.COUNT (p : Nat) : Fld := ⟨R.IXP.REPLAYS p, 0, 40⟩
def F.IXP.RECOVERIES.COUNT (p : Nat) : Fld := ⟨R.IXP.RECOVERIES p, 0, 40⟩

/-! ### WRD (R616-R619) -/

/-- `WDOG_CFG` at 0x040. -/
def R.WRD.WDOG_CFG : Nat := 0xFFF0090040
/-- `WDOG_KICK` at 0x048. -/
def R.WRD.WDOG_KICK : Nat := 0xFFF0090048
/-- `WDOG_STATUS` at 0x050. -/
def R.WRD.WDOG_STATUS : Nat := 0xFFF0090050
/-- `WDOG_PC` at 0x058. -/
def R.WRD.WDOG_PC : Nat := 0xFFF0090058
/-- `GRANT_EXPIRE` at 0x060. -/
def R.WRD.GRANT_EXPIRE : Nat := 0xFFF0090060
def F.WRD.WDOG_CFG.PERIOD : Fld := ⟨R.WRD.WDOG_CFG, 0, 16⟩
def F.WRD.WDOG_CFG.EN : Fld := ⟨R.WRD.WDOG_CFG, 16, 4⟩
def F.WRD.WDOG_KICK.KICK : Fld := ⟨R.WRD.WDOG_KICK, 0, 1⟩
def F.WRD.WDOG_STATUS.EXPIRED : Fld := ⟨R.WRD.WDOG_STATUS, 0, 4⟩
def F.WRD.WDOG_STATUS.RESTARTED : Fld := ⟨R.WRD.WDOG_STATUS, 4, 4⟩
def F.WRD.WDOG_PC.PC : Fld := ⟨R.WRD.WDOG_PC, 0, 40⟩
def F.WRD.GRANT_EXPIRE.SECONDS : Fld := ⟨R.WRD.GRANT_EXPIRE, 0, 16⟩
def F.WRD.GRANT_EXPIRE.LEFT : Fld := ⟨R.WRD.GRANT_EXPIRE, 16, 16⟩

/-! ### SEC (R616-R619) -/

/-- `DEV_ID_LO` at 0x040. -/
def R.SEC.DEV_ID_LO : Nat := 0xFFF0180040
/-- `DEV_ID_HI` at 0x048. -/
def R.SEC.DEV_ID_HI : Nat := 0xFFF0180048
/-- `BOOT_STATUS` at 0x050. -/
def R.SEC.BOOT_STATUS : Nat := 0xFFF0180050
/-- `REVOKE` at 0x058. -/
def R.SEC.REVOKE : Nat := 0xFFF0180058
/-- `DEFECT_LO` at 0x060. -/
def R.SEC.DEFECT_LO : Nat := 0xFFF0180060
/-- `DEFECT_HI` at 0x068. -/
def R.SEC.DEFECT_HI : Nat := 0xFFF0180068
/-- `RNG_STATUS` at 0x070. -/
def R.SEC.RNG_STATUS : Nat := 0xFFF0180070
/-- `RNG_CTRL` at 0x078. -/
def R.SEC.RNG_CTRL : Nat := 0xFFF0180078
/-- `JOB_ADDR` at 0x080. -/
def R.SEC.JOB_ADDR (i : Nat) : Nat := 0xFFF0180080 + 0x10 * i
/-- `JOB_CTRL` at 0x088. -/
def R.SEC.JOB_CTRL (i : Nat) : Nat := 0xFFF0180088 + 0x10 * i
/-- `RNG_RESEED` at 0x800. -/
def R.SEC.RNG_RESEED : Nat := 0xFFF0180800
/-- `RNG_NOISE` at 0x808. -/
def R.SEC.RNG_NOISE : Nat := 0xFFF0180808
def F.SEC.DEV_ID_LO.ID : Fld := ⟨R.SEC.DEV_ID_LO, 0, 40⟩
def F.SEC.DEV_ID_HI.ID : Fld := ⟨R.SEC.DEV_ID_HI, 0, 24⟩
def F.SEC.BOOT_STATUS.PROG : Fld := ⟨R.SEC.BOOT_STATUS, 0, 4⟩
def F.SEC.BOOT_STATUS.REVOKED : Fld := ⟨R.SEC.BOOT_STATUS, 4, 4⟩
def F.SEC.BOOT_STATUS.KEY : Fld := ⟨R.SEC.BOOT_STATUS, 8, 2⟩
def F.SEC.BOOT_STATUS.ENFORCE : Fld := ⟨R.SEC.BOOT_STATUS, 10, 1⟩
def F.SEC.BOOT_STATUS.VERIFIED : Fld := ⟨R.SEC.BOOT_STATUS, 11, 1⟩
def F.SEC.BOOT_STATUS.HALF : Fld := ⟨R.SEC.BOOT_STATUS, 12, 1⟩
def F.SEC.REVOKE.KEY : Fld := ⟨R.SEC.REVOKE, 0, 2⟩
def F.SEC.REVOKE.GO : Fld := ⟨R.SEC.REVOKE, 2, 1⟩
def F.SEC.DEFECT_LO.CLU (k : Nat) : Fld := ⟨R.SEC.DEFECT_LO, 9 * k, 9⟩
def F.SEC.DEFECT_HI.CLU (k : Nat) : Fld := ⟨R.SEC.DEFECT_HI, 9 * k, 9⟩
def F.SEC.RNG_STATUS.READY : Fld := ⟨R.SEC.RNG_STATUS, 0, 1⟩
def F.SEC.RNG_STATUS.FAIL : Fld := ⟨R.SEC.RNG_STATUS, 1, 1⟩
def F.SEC.RNG_STATUS.RCT : Fld := ⟨R.SEC.RNG_STATUS, 2, 1⟩
def F.SEC.RNG_STATUS.APT : Fld := ⟨R.SEC.RNG_STATUS, 3, 1⟩
def F.SEC.RNG_STATUS.RESEEDS : Fld := ⟨R.SEC.RNG_STATUS, 8, 32⟩
def F.SEC.RNG_CTRL.RESTART : Fld := ⟨R.SEC.RNG_CTRL, 0, 1⟩
def F.SEC.JOB_ADDR.ADDR (i : Nat) : Fld := ⟨R.SEC.JOB_ADDR i, 6, 34⟩
def F.SEC.JOB_CTRL.GO (i : Nat) : Fld := ⟨R.SEC.JOB_CTRL i, 0, 1⟩
def F.SEC.JOB_CTRL.STATUS (i : Nat) : Fld := ⟨R.SEC.JOB_CTRL i, 1, 4⟩
def F.SEC.JOB_CTRL.KEY (i : Nat) : Fld := ⟨R.SEC.JOB_CTRL i, 5, 4⟩
def F.SEC.RNG_RESEED.JOBS : Fld := ⟨R.SEC.RNG_RESEED, 0, 16⟩
def F.SEC.RNG_NOISE.SAMPLE : Fld := ⟨R.SEC.RNG_NOISE, 0, 8⟩
def F.SEC.RNG_NOISE.VALID : Fld := ⟨R.SEC.RNG_NOISE, 8, 1⟩

/-! ### REC (R616-R619) -/

/-- `STATUS` at 0x040. -/
def R.REC.STATUS : Nat := 0xFFF0140040
/-- `NEXT_SEQ` at 0x048. -/
def R.REC.NEXT_SEQ : Nat := 0xFFF0140048
/-- `GEN_HEAD` at 0x050. -/
def R.REC.GEN_HEAD : Nat := 0xFFF0140050
/-- `COUNTS` at 0x058. -/
def R.REC.COUNTS : Nat := 0xFFF0140058
/-- `LOST` at 0x060. -/
def R.REC.LOST : Nat := 0xFFF0140060
/-- `OPTIME` at 0x068. -/
def R.REC.OPTIME : Nat := 0xFFF0140068
/-- `PCYCLES` at 0x070. -/
def R.REC.PCYCLES : Nat := 0xFFF0140070
/-- `RD_SLOT` at 0x078. -/
def R.REC.RD_SLOT : Nat := 0xFFF0140078
/-- `RD_W` at 0x080. -/
def R.REC.RD_W (i : Nat) : Nat := 0xFFF0140080 + 0x8 * i
/-- `SW_CODE` at 0x0C0. -/
def R.REC.SW_CODE : Nat := 0xFFF01400C0
/-- `SW_P0` at 0x0C8. -/
def R.REC.SW_P0 : Nat := 0xFFF01400C8
/-- `SW_P1` at 0x0D0. -/
def R.REC.SW_P1 : Nat := 0xFFF01400D0
/-- `SW_P2` at 0x0D8. -/
def R.REC.SW_P2 : Nat := 0xFFF01400D8
/-- `SW_CTRL` at 0x0E0. -/
def R.REC.SW_CTRL : Nat := 0xFFF01400E0
/-- `NONCE` at 0x0E8. -/
def R.REC.NONCE : Nat := 0xFFF01400E8
/-- `CLEAR_CFG` at 0x0F0. -/
def R.REC.CLEAR_CFG : Nat := 0xFFF01400F0
/-- `CLEAR_ADDR` at 0x0F8. -/
def R.REC.CLEAR_ADDR : Nat := 0xFFF01400F8
/-- `CLEAR_CTRL` at 0x100. -/
def R.REC.CLEAR_CTRL : Nat := 0xFFF0140100
/-- `CLEAR_STATUS` at 0x108. -/
def R.REC.CLEAR_STATUS : Nat := 0xFFF0140108
/-- `ALERT` at 0x110. -/
def R.REC.ALERT : Nat := 0xFFF0140110
def F.REC.STATUS.PROT_FULL : Fld := ⟨R.REC.STATUS, 0, 1⟩
def F.REC.STATUS.CLEAR_FULL : Fld := ⟨R.REC.STATUS, 1, 1⟩
def F.REC.STATUS.ERASING : Fld := ⟨R.REC.STATUS, 2, 1⟩
def F.REC.NEXT_SEQ.SEQ : Fld := ⟨R.REC.NEXT_SEQ, 0, 32⟩
def F.REC.GEN_HEAD.SLOT : Fld := ⟨R.REC.GEN_HEAD, 0, 16⟩
def F.REC.COUNTS.GEN : Fld := ⟨R.REC.COUNTS, 0, 16⟩
def F.REC.COUNTS.PROT : Fld := ⟨R.REC.COUNTS, 16, 12⟩
def F.REC.COUNTS.CLEAR : Fld := ⟨R.REC.COUNTS, 28, 9⟩
def F.REC.LOST.INTAKE : Fld := ⟨R.REC.LOST, 0, 20⟩
def F.REC.LOST.PROT : Fld := ⟨R.REC.LOST, 20, 20⟩
def F.REC.OPTIME.TIME : Fld := ⟨R.REC.OPTIME, 0, 40⟩
def F.REC.PCYCLES.COUNT : Fld := ⟨R.REC.PCYCLES, 0, 32⟩
def F.REC.RD_SLOT.SLOT : Fld := ⟨R.REC.RD_SLOT, 0, 16⟩
def F.REC.RD_W.BYTES (i : Nat) : Fld := ⟨R.REC.RD_W i, 0, 40⟩
def F.REC.SW_CODE.CODE : Fld := ⟨R.REC.SW_CODE, 0, 16⟩
def F.REC.SW_CODE.SEV : Fld := ⟨R.REC.SW_CODE, 16, 3⟩
def F.REC.SW_CODE.PROT : Fld := ⟨R.REC.SW_CODE, 19, 1⟩
def F.REC.SW_P0.P : Fld := ⟨R.REC.SW_P0, 0, 40⟩
def F.REC.SW_P1.P : Fld := ⟨R.REC.SW_P1, 0, 40⟩
def F.REC.SW_P2.P : Fld := ⟨R.REC.SW_P2, 0, 40⟩
def F.REC.SW_CTRL.GO : Fld := ⟨R.REC.SW_CTRL, 0, 1⟩
def F.REC.NONCE.NONCE : Fld := ⟨R.REC.NONCE, 0, 40⟩
def F.REC.CLEAR_CFG.SLOT : Fld := ⟨R.REC.CLEAR_CFG, 0, 6⟩
def F.REC.CLEAR_ADDR.ADDR : Fld := ⟨R.REC.CLEAR_ADDR, 0, 40⟩
def F.REC.CLEAR_CTRL.GO : Fld := ⟨R.REC.CLEAR_CTRL, 0, 1⟩
def F.REC.CLEAR_STATUS.RESULT : Fld := ⟨R.REC.CLEAR_STATUS, 0, 4⟩
def F.REC.CLEAR_STATUS.ERASING : Fld := ⟨R.REC.CLEAR_STATUS, 4, 1⟩
def F.REC.ALERT.SEVERITY : Fld := ⟨R.REC.ALERT, 0, 3⟩

/-! ### GALL (R623, R647-R651) -/

/-- `GCTRL` at 0x040. -/
def R.GALL.GCTRL (p : Nat) : Nat := p + 0x40
/-- `GSTATUS` at 0x048. -/
def R.GALL.GSTATUS (p : Nat) : Nat := p + 0x48
/-- `SUGGEST` at 0x050. -/
def R.GALL.SUGGEST (p : Nat) : Nat := p + 0x50
def F.GALL.GCTRL.MODE (p : Nat) : Fld := ⟨R.GALL.GCTRL p, 0, 2⟩
def F.GALL.GCTRL.APPLY (p : Nat) : Fld := ⟨R.GALL.GCTRL p, 2, 1⟩
def F.GALL.GSTATUS.ACTIONS (p : Nat) : Fld := ⟨R.GALL.GSTATUS p, 0, 32⟩
def F.GALL.GSTATUS.LAST (p : Nat) : Fld := ⟨R.GALL.GSTATUS p, 32, 8⟩
def F.GALL.SUGGEST.ACTION (p : Nat) : Fld := ⟨R.GALL.SUGGEST p, 0, 8⟩
def F.GALL.SUGGEST.TARGET (p : Nat) : Fld := ⟨R.GALL.SUGGEST p, 8, 28⟩
def F.GALL.SUGGEST.VALUE (p : Nat) : Fld := ⟨R.GALL.SUGGEST p, 36, 4⟩

/-! ### GOV (R623, R647-R651) -/

/-- `UPD_CTRL` at 0x040. -/
def R.GOV.UPD_CTRL : Nat := 0xFFF0150040
/-- `UPD_STATUS` at 0x048. -/
def R.GOV.UPD_STATUS : Nat := 0xFFF0150048
/-- `UPD_TIMEOUT` at 0x050. -/
def R.GOV.UPD_TIMEOUT : Nat := 0xFFF0150050
def F.GOV.UPD_CTRL.START : Fld := ⟨R.GOV.UPD_CTRL, 0, 1⟩
def F.GOV.UPD_CTRL.ABORT : Fld := ⟨R.GOV.UPD_CTRL, 1, 1⟩
def F.GOV.UPD_CTRL.HALF : Fld := ⟨R.GOV.UPD_CTRL, 2, 1⟩
def F.GOV.UPD_STATUS.STATE : Fld := ⟨R.GOV.UPD_STATUS, 0, 2⟩
def F.GOV.UPD_STATUS.REFUSE : Fld := ⟨R.GOV.UPD_STATUS, 2, 3⟩
def F.GOV.UPD_STATUS.PENDING : Fld := ⟨R.GOV.UPD_STATUS, 5, 10⟩
def F.GOV.UPD_TIMEOUT.SECONDS : Fld := ⟨R.GOV.UPD_TIMEOUT, 0, 16⟩

/-! ### GPWR (R623, R647-R651) -/

/-- `BUDGET` at 0x060. -/
def R.GPWR.BUDGET : Nat := 0xFFF0151060
/-- `POWER_NOW` at 0x068. -/
def R.GPWR.POWER_NOW : Nat := 0xFFF0151068
/-- `TEMP` at 0x070. -/
def R.GPWR.TEMP : Nat := 0xFFF0151070
/-- `TJ_LIMIT` at 0x078. -/
def R.GPWR.TJ_LIMIT : Nat := 0xFFF0151078
/-- `HYST` at 0x080. -/
def R.GPWR.HYST : Nat := 0xFFF0151080
/-- `CLU_PRIO` at 0x088. -/
def R.GPWR.CLU_PRIO : Nat := 0xFFF0151088
/-- `CLU_LIMITS` at 0x090. -/
def R.GPWR.CLU_LIMITS : Nat := 0xFFF0151090
/-- `PMB_CFG` at 0x098. -/
def R.GPWR.PMB_CFG : Nat := 0xFFF0151098
/-- `VDD_TABLE` at 0x800. -/
def R.GPWR.VDD_TABLE : Nat := 0xFFF0151800
def F.GPWR.BUDGET.MW : Fld := ⟨R.GPWR.BUDGET, 0, 17⟩
def F.GPWR.POWER_NOW.MW : Fld := ⟨R.GPWR.POWER_NOW, 0, 20⟩
def F.GPWR.POWER_NOW.PEAK : Fld := ⟨R.GPWR.POWER_NOW, 20, 20⟩
def F.GPWR.TEMP.HOT : Fld := ⟨R.GPWR.TEMP, 0, 8⟩
def F.GPWR.TEMP.SENSOR : Fld := ⟨R.GPWR.TEMP, 8, 4⟩
def F.GPWR.TEMP.PEAK : Fld := ⟨R.GPWR.TEMP, 12, 8⟩
def F.GPWR.TEMP.TRIP : Fld := ⟨R.GPWR.TEMP, 20, 1⟩
def F.GPWR.TJ_LIMIT.C : Fld := ⟨R.GPWR.TJ_LIMIT, 0, 8⟩
def F.GPWR.HYST.MW : Fld := ⟨R.GPWR.HYST, 0, 16⟩
def F.GPWR.CLU_PRIO.PRIO (k : Nat) : Fld := ⟨R.GPWR.CLU_PRIO, 3 * k, 3⟩
def F.GPWR.CLU_LIMITS.MINSTEP (k : Nat) : Fld := ⟨R.GPWR.CLU_LIMITS, 4 * k, 2⟩
def F.GPWR.CLU_LIMITS.MAXSTEP (k : Nat) : Fld := ⟨R.GPWR.CLU_LIMITS, 2 + 4 * k, 2⟩
def F.GPWR.PMB_CFG.ADDR : Fld := ⟨R.GPWR.PMB_CFG, 0, 7⟩
def F.GPWR.PMB_CFG.AVS : Fld := ⟨R.GPWR.PMB_CFG, 7, 1⟩
def F.GPWR.VDD_TABLE.MV (k : Nat) : Fld := ⟨R.GPWR.VDD_TABLE, 10 * k, 10⟩

/-! ### GHEA (R623, R647-R651) -/

/-- `CORE_THRESH` at 0x060. -/
def R.GHEA.CORE_THRESH : Nat := 0xFFF0152060
/-- `COMET_CFG` at 0x068. -/
def R.GHEA.COMET_CFG : Nat := 0xFFF0152068
/-- `COMET_CTRL` at 0x070. -/
def R.GHEA.COMET_CTRL : Nat := 0xFFF0152070
/-- `COMET_STATUS` at 0x078. -/
def R.GHEA.COMET_STATUS : Nat := 0xFFF0152078
/-- `FAILED_LO` at 0x080. -/
def R.GHEA.FAILED_LO : Nat := 0xFFF0152080
/-- `FAILED_HI` at 0x088. -/
def R.GHEA.FAILED_HI : Nat := 0xFFF0152088
/-- `RETIRE_REQ` at 0x090. -/
def R.GHEA.RETIRE_REQ : Nat := 0xFFF0152090
/-- `RETIRE_CTRL` at 0x098. -/
def R.GHEA.RETIRE_CTRL : Nat := 0xFFF0152098
/-- `RETIRE_GRACE` at 0x0A0. -/
def R.GHEA.RETIRE_GRACE : Nat := 0xFFF01520A0
/-- `FRAME_THRESH` at 0x0A8. -/
def R.GHEA.FRAME_THRESH : Nat := 0xFFF01520A8
/-- `LIST_COUNT` at 0x0B0. -/
def R.GHEA.LIST_COUNT : Nat := 0xFFF01520B0
/-- `LIST_SEL` at 0x0B8. -/
def R.GHEA.LIST_SEL : Nat := 0xFFF01520B8
/-- `LIST_READ` at 0x0C0. -/
def R.GHEA.LIST_READ : Nat := 0xFFF01520C0
/-- `SCRUB_CFG` at 0x0C8. -/
def R.GHEA.SCRUB_CFG : Nat := 0xFFF01520C8
/-- `LIST_CLEAR` at 0x0D0. -/
def R.GHEA.LIST_CLEAR : Nat := 0xFFF01520D0
def F.GHEA.CORE_THRESH.COUNT : Fld := ⟨R.GHEA.CORE_THRESH, 0, 16⟩
def F.GHEA.CORE_THRESH.HOURS : Fld := ⟨R.GHEA.CORE_THRESH, 16, 8⟩
def F.GHEA.COMET_CFG.EN : Fld := ⟨R.GHEA.COMET_CFG, 0, 1⟩
def F.GHEA.COMET_CFG.PERIOD : Fld := ⟨R.GHEA.COMET_CFG, 1, 16⟩
def F.GHEA.COMET_CTRL.RUN : Fld := ⟨R.GHEA.COMET_CTRL, 0, 1⟩
def F.GHEA.COMET_CTRL.RETEST : Fld := ⟨R.GHEA.COMET_CTRL, 1, 1⟩
def F.GHEA.COMET_CTRL.CLUSTER : Fld := ⟨R.GHEA.COMET_CTRL, 2, 3⟩
def F.GHEA.COMET_CTRL.PHYS : Fld := ⟨R.GHEA.COMET_CTRL, 5, 4⟩
def F.GHEA.COMET_STATUS.ACTIVE : Fld := ⟨R.GHEA.COMET_STATUS, 0, 1⟩
def F.GHEA.COMET_STATUS.CLUSTER : Fld := ⟨R.GHEA.COMET_STATUS, 1, 3⟩
def F.GHEA.COMET_STATUS.PHYS : Fld := ⟨R.GHEA.COMET_STATUS, 4, 4⟩
def F.GHEA.COMET_STATUS.LOGICAL : Fld := ⟨R.GHEA.COMET_STATUS, 8, 3⟩
def F.GHEA.COMET_STATUS.STEPS : Fld := ⟨R.GHEA.COMET_STATUS, 11, 29⟩
def F.GHEA.FAILED_LO.CLU (k : Nat) : Fld := ⟨R.GHEA.FAILED_LO, 9 * k, 9⟩
def F.GHEA.FAILED_HI.CLU (k : Nat) : Fld := ⟨R.GHEA.FAILED_HI, 9 * k, 9⟩
def F.GHEA.RETIRE_REQ.FRAME : Fld := ⟨R.GHEA.RETIRE_REQ, 0, 28⟩
def F.GHEA.RETIRE_REQ.VALID : Fld := ⟨R.GHEA.RETIRE_REQ, 28, 1⟩
def F.GHEA.RETIRE_REQ.CAUSE : Fld := ⟨R.GHEA.RETIRE_REQ, 29, 2⟩
def F.GHEA.RETIRE_REQ.LOST : Fld := ⟨R.GHEA.RETIRE_REQ, 31, 8⟩
def F.GHEA.RETIRE_CTRL.OP : Fld := ⟨R.GHEA.RETIRE_CTRL, 0, 2⟩
def F.GHEA.RETIRE_CTRL.FRAME : Fld := ⟨R.GHEA.RETIRE_CTRL, 2, 28⟩
def F.GHEA.RETIRE_GRACE.SECONDS : Fld := ⟨R.GHEA.RETIRE_GRACE, 0, 12⟩
def F.GHEA.FRAME_THRESH.COUNT : Fld := ⟨R.GHEA.FRAME_THRESH, 0, 8⟩
def F.GHEA.LIST_COUNT.COUNT : Fld := ⟨R.GHEA.LIST_COUNT, 0, 9⟩
def F.GHEA.LIST_SEL.ENTRY : Fld := ⟨R.GHEA.LIST_SEL, 0, 8⟩
def F.GHEA.LIST_READ.FRAME : Fld := ⟨R.GHEA.LIST_READ, 0, 28⟩
def F.GHEA.LIST_READ.VALID : Fld := ⟨R.GHEA.LIST_READ, 28, 1⟩
def F.GHEA.SCRUB_CFG.HOURS : Fld := ⟨R.GHEA.SCRUB_CFG, 0, 8⟩
def F.GHEA.SCRUB_CFG.EN : Fld := ⟨R.GHEA.SCRUB_CFG, 8, 1⟩
def F.GHEA.LIST_CLEAR.GO : Fld := ⟨R.GHEA.LIST_CLEAR, 0, 1⟩

/-! ### CPR (R680, R681) -/

/-- `STRAPS` at 0x040. -/
def R.CPR.STRAPS : Nat := 0xFFF0160040
/-- `CLK_STATUS` at 0x048. -/
def R.CPR.CLK_STATUS : Nat := 0xFFF0160048
/-- `PD_CTRL` at 0x050. -/
def R.CPR.PD_CTRL : Nat := 0xFFF0160050
/-- `PD_STATUS` at 0x058. -/
def R.CPR.PD_STATUS : Nat := 0xFFF0160058
/-- `RST_CAUSE` at 0x060. -/
def R.CPR.RST_CAUSE : Nat := 0xFFF0160060
/-- `RST_CTRL` at 0x068. -/
def R.CPR.RST_CTRL : Nat := 0xFFF0160068
/-- `PFAIL` at 0x070. -/
def R.CPR.PFAIL : Nat := 0xFFF0160070
/-- `BOOT_TIME` at 0x078. -/
def R.CPR.BOOT_TIME : Nat := 0xFFF0160078
def F.CPR.STRAPS.CHIPID : Fld := ⟨R.CPR.STRAPS, 0, 3⟩
def F.CPR.STRAPS.BOOTSRC : Fld := ⟨R.CPR.STRAPS, 3, 2⟩
def F.CPR.STRAPS.PRIMARY_EN : Fld := ⟨R.CPR.STRAPS, 5, 1⟩
def F.CPR.CLK_STATUS.LOCKED : Fld := ⟨R.CPR.CLK_STATUS, 0, 1⟩
def F.CPR.CLK_STATUS.HOLDOVER : Fld := ⟨R.CPR.CLK_STATUS, 1, 1⟩
def F.CPR.CLK_STATUS.REF_OK : Fld := ⟨R.CPR.CLK_STATUS, 2, 4⟩
def F.CPR.PD_CTRL.ON : Fld := ⟨R.CPR.PD_CTRL, 0, 20⟩
def F.CPR.PD_STATUS.POWERED : Fld := ⟨R.CPR.PD_STATUS, 0, 20⟩
def F.CPR.RST_CAUSE.CAUSE : Fld := ⟨R.CPR.RST_CAUSE, 0, 3⟩
def F.CPR.RST_CAUSE.LG_DONE : Fld := ⟨R.CPR.RST_CAUSE, 3, 1⟩
def F.CPR.RST_CAUSE.LG_CUT : Fld := ⟨R.CPR.RST_CAUSE, 4, 1⟩
def F.CPR.RST_CTRL.WARM : Fld := ⟨R.CPR.RST_CTRL, 0, 1⟩
def F.CPR.PFAIL.LEVEL : Fld := ⟨R.CPR.PFAIL, 0, 1⟩
def F.CPR.BOOT_TIME.MS : Fld := ⟨R.CPR.BOOT_TIME, 0, 20⟩

/-! ### CST (R680, R681) -/

/-- `WR_SRC` at 0x040. -/
def R.CST.WR_SRC : Nat := 0xFFF0130040
/-- `WR_DST` at 0x048. -/
def R.CST.WR_DST : Nat := 0xFFF0130048
/-- `WR_LEN` at 0x050. -/
def R.CST.WR_LEN : Nat := 0xFFF0130050
/-- `WR_CTRL` at 0x058. -/
def R.CST.WR_CTRL : Nat := 0xFFF0130058
/-- `WR_STATUS` at 0x060. -/
def R.CST.WR_STATUS : Nat := 0xFFF0130060
/-- `HALFA_STATUS` at 0x068. -/
def R.CST.HALFA_STATUS : Nat := 0xFFF0130068
/-- `HALFB_STATUS` at 0x070. -/
def R.CST.HALFB_STATUS : Nat := 0xFFF0130070
/-- `BOOT_STATUS` at 0x078. -/
def R.CST.BOOT_STATUS : Nat := 0xFFF0130078
def F.CST.WR_SRC.ADDR : Fld := ⟨R.CST.WR_SRC, 0, 40⟩
def F.CST.WR_DST.OFFSET : Fld := ⟨R.CST.WR_DST, 0, 24⟩
def F.CST.WR_DST.HALF : Fld := ⟨R.CST.WR_DST, 24, 1⟩
def F.CST.WR_LEN.BYTES : Fld := ⟨R.CST.WR_LEN, 0, 25⟩
def F.CST.WR_CTRL.START : Fld := ⟨R.CST.WR_CTRL, 0, 1⟩
def F.CST.WR_CTRL.COMMIT : Fld := ⟨R.CST.WR_CTRL, 1, 1⟩
def F.CST.WR_CTRL.HALF : Fld := ⟨R.CST.WR_CTRL, 2, 1⟩
def F.CST.WR_CTRL.SRC : Fld := ⟨R.CST.WR_CTRL, 3, 1⟩
def F.CST.WR_STATUS.RESULT : Fld := ⟨R.CST.WR_STATUS, 0, 3⟩
def F.CST.WR_STATUS.BUSY : Fld := ⟨R.CST.WR_STATUS, 3, 1⟩
def F.CST.HALFA_STATUS.COMMITTED : Fld := ⟨R.CST.HALFA_STATUS, 0, 1⟩
def F.CST.HALFB_STATUS.COMMITTED : Fld := ⟨R.CST.HALFB_STATUS, 0, 1⟩
def F.CST.HALFA_STATUS.VERIFIED : Fld := ⟨R.CST.HALFA_STATUS, 1, 1⟩
def F.CST.HALFB_STATUS.VERIFIED : Fld := ⟨R.CST.HALFB_STATUS, 1, 1⟩
def F.CST.HALFA_STATUS.RUNNING : Fld := ⟨R.CST.HALFA_STATUS, 2, 1⟩
def F.CST.HALFB_STATUS.RUNNING : Fld := ⟨R.CST.HALFB_STATUS, 2, 1⟩
def F.CST.HALFA_STATUS.KEY : Fld := ⟨R.CST.HALFA_STATUS, 3, 2⟩
def F.CST.HALFB_STATUS.KEY : Fld := ⟨R.CST.HALFB_STATUS, 3, 2⟩
def F.CST.HALFA_STATUS.GEN : Fld := ⟨R.CST.HALFA_STATUS, 8, 32⟩
def F.CST.HALFB_STATUS.GEN : Fld := ⟨R.CST.HALFB_STATUS, 8, 32⟩
def F.CST.BOOT_STATUS.SOURCE : Fld := ⟨R.CST.BOOT_STATUS, 0, 2⟩
def F.CST.BOOT_STATUS.RECOVERY : Fld := ⟨R.CST.BOOT_STATUS, 2, 1⟩
def F.CST.BOOT_STATUS.FLASHED : Fld := ⟨R.CST.BOOT_STATUS, 3, 1⟩
def F.CST.BOOT_STATUS.CFG_ERRS : Fld := ⟨R.CST.BOOT_STATUS, 4, 16⟩

/-! ### DBG (R703) -/

/-- `ECL_CFG` at 0x040. -/
def R.DBG.ECL_CFG : Nat := 0xFFF0170040
/-- `ECL_CTRL` at 0x048. -/
def R.DBG.ECL_CTRL : Nat := 0xFFF0170048
/-- `ECL_STATUS` at 0x050. -/
def R.DBG.ECL_STATUS : Nat := 0xFFF0170050
/-- `AUTH` at 0x058. -/
def R.DBG.AUTH : Nat := 0xFFF0170058
/-- `DUMP_SEL` at 0x060. -/
def R.DBG.DUMP_SEL : Nat := 0xFFF0170060
/-- `PDUMP_PTR` at 0x068. -/
def R.DBG.PDUMP_PTR : Nat := 0xFFF0170068
/-- `PDUMP_DATA` at 0x070. -/
def R.DBG.PDUMP_DATA : Nat := 0xFFF0170070
/-- `SKIP` at 0x078. -/
def R.DBG.SKIP : Nat := 0xFFF0170078
/-- `BP_ADDR` at 0x100. -/
def R.DBG.BP_ADDR (i : Nat) : Nat := 0xFFF0170100 + 0x10 * i
/-- `BP_CFG` at 0x108. -/
def R.DBG.BP_CFG (i : Nat) : Nat := 0xFFF0170108 + 0x10 * i
/-- `WP_ADDR` at 0x200. -/
def R.DBG.WP_ADDR (i : Nat) : Nat := 0xFFF0170200 + 0x18 * i
/-- `WP_LEN` at 0x208. -/
def R.DBG.WP_LEN (i : Nat) : Nat := 0xFFF0170208 + 0x18 * i
/-- `WP_CFG` at 0x210. -/
def R.DBG.WP_CFG (i : Nat) : Nat := 0xFFF0170210 + 0x18 * i
/-- `TR_BASE` at 0x300. -/
def R.DBG.TR_BASE : Nat := 0xFFF0170300
/-- `TR_SIZE` at 0x308. -/
def R.DBG.TR_SIZE : Nat := 0xFFF0170308
/-- `TR_CTRL` at 0x310. -/
def R.DBG.TR_CTRL : Nat := 0xFFF0170310
/-- `TR_FILT` at 0x318. -/
def R.DBG.TR_FILT : Nat := 0xFFF0170318
/-- `TR_PTR` at 0x320. -/
def R.DBG.TR_PTR : Nat := 0xFFF0170320
/-- `TR_STATUS` at 0x328. -/
def R.DBG.TR_STATUS : Nat := 0xFFF0170328
/-- `PMC_SEL` at 0x400. -/
def R.DBG.PMC_SEL (i : Nat) : Nat := 0xFFF0170400 + 0x10 * i
/-- `PMC_COUNT` at 0x408. -/
def R.DBG.PMC_COUNT (i : Nat) : Nat := 0xFFF0170408 + 0x10 * i
def F.DBG.ECL_CFG.PIN_EN : Fld := ⟨R.DBG.ECL_CFG, 0, 1⟩
def F.DBG.ECL_CFG.OUT_EN : Fld := ⟨R.DBG.ECL_CFG, 1, 1⟩
def F.DBG.ECL_CFG.REC_EN : Fld := ⟨R.DBG.ECL_CFG, 2, 1⟩
def F.DBG.ECL_CFG.REC_SEV : Fld := ⟨R.DBG.ECL_CFG, 3, 3⟩
def F.DBG.ECL_CFG.REC_CODE : Fld := ⟨R.DBG.ECL_CFG, 6, 16⟩
def F.DBG.ECL_CTRL.FREEZE : Fld := ⟨R.DBG.ECL_CTRL, 0, 1⟩
def F.DBG.ECL_CTRL.PARTIAL : Fld := ⟨R.DBG.ECL_CTRL, 1, 1⟩
def F.DBG.ECL_CTRL.CLUSTER : Fld := ⟨R.DBG.ECL_CTRL, 2, 3⟩
def F.DBG.ECL_CTRL.THAW : Fld := ⟨R.DBG.ECL_CTRL, 5, 1⟩
def F.DBG.ECL_STATUS.STATE : Fld := ⟨R.DBG.ECL_STATUS, 0, 2⟩
def F.DBG.ECL_STATUS.PCLUSTER : Fld := ⟨R.DBG.ECL_STATUS, 2, 3⟩
def F.DBG.ECL_STATUS.CAUSE : Fld := ⟨R.DBG.ECL_STATUS, 5, 3⟩
def F.DBG.ECL_STATUS.FORCED : Fld := ⟨R.DBG.ECL_STATUS, 8, 1⟩
def F.DBG.ECL_STATUS.FREEZES : Fld := ⟨R.DBG.ECL_STATUS, 24, 16⟩
def F.DBG.AUTH.TAP_OPEN : Fld := ⟨R.DBG.AUTH, 0, 1⟩
def F.DBG.AUTH.WARDEN : Fld := ⟨R.DBG.AUTH, 1, 1⟩
def F.DBG.DUMP_SEL.REG : Fld := ⟨R.DBG.DUMP_SEL, 0, 1⟩
def F.DBG.DUMP_SEL.PIPE : Fld := ⟨R.DBG.DUMP_SEL, 1, 1⟩
def F.DBG.DUMP_SEL.ARRAY : Fld := ⟨R.DBG.DUMP_SEL, 2, 1⟩
def F.DBG.SKIP.CID : Fld := ⟨R.DBG.SKIP, 0, 12⟩
def F.DBG.SKIP.GO : Fld := ⟨R.DBG.SKIP, 12, 1⟩
def F.DBG.BP_ADDR.ADDR (i : Nat) : Fld := ⟨R.DBG.BP_ADDR i, 0, 40⟩
def F.DBG.BP_CFG.EN (i : Nat) : Fld := ⟨R.DBG.BP_CFG i, 0, 1⟩
def F.DBG.WP_CFG.EN (i : Nat) : Fld := ⟨R.DBG.WP_CFG i, 0, 1⟩
def F.DBG.BP_CFG.ACTION (i : Nat) : Fld := ⟨R.DBG.BP_CFG i, 1, 3⟩
def F.DBG.WP_CFG.ACTION (i : Nat) : Fld := ⟨R.DBG.WP_CFG i, 1, 3⟩
def F.DBG.BP_CFG.CID (i : Nat) : Fld := ⟨R.DBG.BP_CFG i, 4, 12⟩
def F.DBG.BP_CFG.CIDMASK (i : Nat) : Fld := ⟨R.DBG.BP_CFG i, 16, 12⟩
def F.DBG.BP_CFG.HITS (i : Nat) : Fld := ⟨R.DBG.BP_CFG i, 28, 12⟩
def F.DBG.WP_CFG.KIND (i : Nat) : Fld := ⟨R.DBG.WP_CFG i, 4, 2⟩
def F.DBG.WP_CFG.CID (i : Nat) : Fld := ⟨R.DBG.WP_CFG i, 6, 12⟩
def F.DBG.WP_CFG.CIDMASK (i : Nat) : Fld := ⟨R.DBG.WP_CFG i, 18, 12⟩
def F.DBG.WP_CFG.HITS (i : Nat) : Fld := ⟨R.DBG.WP_CFG i, 30, 10⟩
def F.DBG.WP_ADDR.ADDR (i : Nat) : Fld := ⟨R.DBG.WP_ADDR i, 0, 40⟩
def F.DBG.WP_LEN.LEN (i : Nat) : Fld := ⟨R.DBG.WP_LEN i, 0, 24⟩
def F.DBG.WP_LEN.STAG (i : Nat) : Fld := ⟨R.DBG.WP_LEN i, 24, 12⟩
def F.DBG.WP_LEN.STAG_EN (i : Nat) : Fld := ⟨R.DBG.WP_LEN i, 36, 1⟩
def F.DBG.TR_BASE.BASE : Fld := ⟨R.DBG.TR_BASE, 12, 28⟩
def F.DBG.TR_SIZE.LOG2 : Fld := ⟨R.DBG.TR_SIZE, 0, 5⟩
def F.DBG.TR_CTRL.EN : Fld := ⟨R.DBG.TR_CTRL, 0, 1⟩
def F.DBG.TR_CTRL.ITRACE : Fld := ⟨R.DBG.TR_CTRL, 1, 1⟩
def F.DBG.TR_CTRL.PTRACE : Fld := ⟨R.DBG.TR_CTRL, 2, 1⟩
def F.DBG.TR_CTRL.STOP_FULL : Fld := ⟨R.DBG.TR_CTRL, 3, 1⟩
def F.DBG.TR_CTRL.CID : Fld := ⟨R.DBG.TR_CTRL, 4, 12⟩
def F.DBG.TR_CTRL.CIDMASK : Fld := ⟨R.DBG.TR_CTRL, 16, 12⟩
def F.DBG.TR_FILT.PORTS : Fld := ⟨R.DBG.TR_FILT, 0, 11⟩
def F.DBG.TR_PTR.BYTES : Fld := ⟨R.DBG.TR_PTR, 0, 40⟩
def F.DBG.TR_STATUS.FULL : Fld := ⟨R.DBG.TR_STATUS, 0, 1⟩
def F.DBG.TR_STATUS.LOST : Fld := ⟨R.DBG.TR_STATUS, 8, 32⟩
def F.DBG.PMC_SEL.EVENT (i : Nat) : Fld := ⟨R.DBG.PMC_SEL i, 0, 6⟩
def F.DBG.PMC_SEL.EN (i : Nat) : Fld := ⟨R.DBG.PMC_SEL i, 18, 1⟩
def F.DBG.PMC_SEL.CLUSTER (i : Nat) : Fld := ⟨R.DBG.PMC_SEL i, 6, 3⟩
def F.DBG.PMC_SEL.ALLCLU (i : Nat) : Fld := ⟨R.DBG.PMC_SEL i, 9, 1⟩
def F.DBG.PMC_SEL.CORE (i : Nat) : Fld := ⟨R.DBG.PMC_SEL i, 10, 3⟩
def F.DBG.PMC_SEL.ALLCORE (i : Nat) : Fld := ⟨R.DBG.PMC_SEL i, 13, 1⟩
def F.DBG.PMC_SEL.CTX (i : Nat) : Fld := ⟨R.DBG.PMC_SEL i, 14, 3⟩
def F.DBG.PMC_SEL.ALLCTX (i : Nat) : Fld := ⟨R.DBG.PMC_SEL i, 17, 1⟩
def F.DBG.PMC_COUNT.COUNT (i : Nat) : Fld := ⟨R.DBG.PMC_COUNT i, 0, 40⟩

/-! ### GPIO (R550-R552) -/

/-- `GP` at 0x040. -/
def R.GPIO.GP (i : Nat) : Nat := 0xFFF00E9040 + 0x8 * i
/-- `GP_BANK` at 0x700. -/
def R.GPIO.GP_BANK : Nat := 0xFFF00E9700
def F.GPIO.GP.FUNC (i : Nat) : Fld := ⟨R.GPIO.GP i, 0, 3⟩
def F.GPIO.GP.OUT (i : Nat) : Fld := ⟨R.GPIO.GP i, 3, 1⟩
def F.GPIO.GP.IN (i : Nat) : Fld := ⟨R.GPIO.GP i, 4, 1⟩
def F.GPIO.GP.COND (i : Nat) : Fld := ⟨R.GPIO.GP i, 5, 3⟩
def F.GPIO.GP.FLAG (i : Nat) : Fld := ⟨R.GPIO.GP i, 8, 1⟩
def F.GPIO.GP.IE (i : Nat) : Fld := ⟨R.GPIO.GP i, 9, 1⟩
def F.GPIO.GP.DEB (i : Nat) : Fld := ⟨R.GPIO.GP i, 10, 4⟩
def F.GPIO.GP.PULL (i : Nat) : Fld := ⟨R.GPIO.GP i, 14, 2⟩
def F.GPIO.GP.CLAIMED (i : Nat) : Fld := ⟨R.GPIO.GP i, 16, 1⟩
def F.GPIO.GP.EVQUEUE (i : Nat) : Fld := ⟨R.GPIO.GP i, 17, 13⟩
def F.GPIO.GP.EVEN (i : Nat) : Fld := ⟨R.GPIO.GP i, 30, 1⟩
def F.GPIO.GP_BANK.V33 (k : Nat) : Fld := ⟨R.GPIO.GP_BANK, 2 * k, 1⟩
def F.GPIO.GP_BANK.FAULT (k : Nat) : Fld := ⟨R.GPIO.GP_BANK, 1 + 2 * k, 1⟩

/-! ### TIMER (R550-R552) -/

/-- `TM_CFG` at 0x040. -/
def R.TIMER.TM_CFG (i : Nat) : Nat := 0xFFF00EA040 + 0x18 * i
/-- `TM_PERIOD` at 0x048. -/
def R.TIMER.TM_PERIOD (i : Nat) : Nat := 0xFFF00EA048 + 0x18 * i
/-- `TM_MATCH` at 0x050. -/
def R.TIMER.TM_MATCH (i : Nat) : Nat := 0xFFF00EA050 + 0x18 * i
/-- `TM_FLAG0` at 0x700. -/
def R.TIMER.TM_FLAG0 : Nat := 0xFFF00EA700
/-- `TM_FLAG1` at 0x708. -/
def R.TIMER.TM_FLAG1 : Nat := 0xFFF00EA708
def F.TIMER.TM_CFG.MODE (i : Nat) : Fld := ⟨R.TIMER.TM_CFG i, 0, 3⟩
def F.TIMER.TM_CFG.LINE (i : Nat) : Fld := ⟨R.TIMER.TM_CFG i, 3, 8⟩
def F.TIMER.TM_CFG.LVALID (i : Nat) : Fld := ⟨R.TIMER.TM_CFG i, 11, 1⟩
def F.TIMER.TM_CFG.POL (i : Nat) : Fld := ⟨R.TIMER.TM_CFG i, 12, 1⟩
def F.TIMER.TM_CFG.IE (i : Nat) : Fld := ⟨R.TIMER.TM_CFG i, 13, 1⟩
def F.TIMER.TM_CFG.GO (i : Nat) : Fld := ⟨R.TIMER.TM_CFG i, 14, 1⟩
def F.TIMER.TM_CFG.EVQUEUE (i : Nat) : Fld := ⟨R.TIMER.TM_CFG i, 15, 13⟩
def F.TIMER.TM_CFG.EVEN (i : Nat) : Fld := ⟨R.TIMER.TM_CFG i, 28, 1⟩
def F.TIMER.TM_PERIOD.COUNT (i : Nat) : Fld := ⟨R.TIMER.TM_PERIOD i, 0, 40⟩
def F.TIMER.TM_MATCH.COUNT (i : Nat) : Fld := ⟨R.TIMER.TM_MATCH i, 0, 40⟩
def F.TIMER.TM_FLAG0.FLAG : Fld := ⟨R.TIMER.TM_FLAG0, 0, 40⟩
def F.TIMER.TM_FLAG1.FLAG : Fld := ⟨R.TIMER.TM_FLAG1, 0, 24⟩

/-! ### PROFP (R550-R552) -/

/-- `FRAME` at 0x040. -/
def R.PROFP.FRAME (p i : Nat) : Nat := p + 0x40 + 0x40 * i
/-- `PREFIX` at 0x048. -/
def R.PROFP.PREFIX (p i : Nat) : Nat := p + 0x48 + 0x40 * i
/-- `SUFFIX` at 0x050. -/
def R.PROFP.SUFFIX (p i : Nat) : Nat := p + 0x50 + 0x40 * i
/-- `CHECK` at 0x058. -/
def R.PROFP.CHECK (p i : Nat) : Nat := p + 0x58 + 0x40 * i
/-- `LIMITS` at 0x060. -/
def R.PROFP.LIMITS (p i : Nat) : Nat := p + 0x60 + 0x40 * i
def F.PROFP.FRAME.END (p i : Nat) : Fld := ⟨R.PROFP.FRAME p i, 0, 3⟩
def F.PROFP.FRAME.NPRE (p i : Nat) : Fld := ⟨R.PROFP.FRAME p i, 3, 3⟩
def F.PROFP.FRAME.NSUF (p i : Nat) : Fld := ⟨R.PROFP.FRAME p i, 6, 3⟩
def F.PROFP.FRAME.LOFF (p i : Nat) : Fld := ⟨R.PROFP.FRAME p i, 9, 4⟩
def F.PROFP.FRAME.LSIZE (p i : Nat) : Fld := ⟨R.PROFP.FRAME p i, 13, 2⟩
def F.PROFP.FRAME.LBE (p i : Nat) : Fld := ⟨R.PROFP.FRAME p i, 15, 1⟩
def F.PROFP.FRAME.LADJ (p i : Nat) : Fld := ⟨R.PROFP.FRAME p i, 16, 5⟩
def F.PROFP.FRAME.KEEP (p i : Nat) : Fld := ⟨R.PROFP.FRAME p i, 21, 3⟩
def F.PROFP.FRAME.VALID (p i : Nat) : Fld := ⟨R.PROFP.FRAME p i, 24, 1⟩
def F.PROFP.PREFIX.BYTES (p i : Nat) : Fld := ⟨R.PROFP.PREFIX p i, 0, 32⟩
def F.PROFP.SUFFIX.BYTES (p i : Nat) : Fld := ⟨R.PROFP.SUFFIX p i, 0, 32⟩
def F.PROFP.CHECK.KIND (p i : Nat) : Fld := ⟨R.PROFP.CHECK p i, 0, 4⟩
def F.PROFP.CHECK.CSTART (p i : Nat) : Fld := ⟨R.PROFP.CHECK p i, 4, 4⟩
def F.PROFP.CHECK.CPRE (p i : Nat) : Fld := ⟨R.PROFP.CHECK p i, 8, 1⟩
def F.PROFP.CHECK.CLE (p i : Nat) : Fld := ⟨R.PROFP.CHECK p i, 9, 1⟩
def F.PROFP.LIMITS.MAXLEN (p i : Nat) : Fld := ⟨R.PROFP.LIMITS p i, 0, 13⟩
def F.PROFP.LIMITS.ITO (p i : Nat) : Fld := ⟨R.PROFP.LIMITS p i, 13, 16⟩

/-! ### VAULT (R616-R619) -/

/-- `SLOT_ATTR` at 0x040. -/
def R.VAULT.SLOT_ATTR (i : Nat) : Nat := 0xFFF0181040 + 0x8 * i
def F.VAULT.SLOT_ATTR.TYPE (i : Nat) : Fld := ⟨R.VAULT.SLOT_ATTR i, 0, 3⟩
def F.VAULT.SLOT_ATTR.VALID (i : Nat) : Fld := ⟨R.VAULT.SLOT_ATTR i, 3, 1⟩
def F.VAULT.SLOT_ATTR.USAGE (i : Nat) : Fld := ⟨R.VAULT.SLOT_ATTR i, 4, 6⟩
def F.VAULT.SLOT_ATTR.SUP (i : Nat) : Fld := ⟨R.VAULT.SLOT_ATTR i, 10, 1⟩
def F.VAULT.SLOT_ATTR.PERSIST (i : Nat) : Fld := ⟨R.VAULT.SLOT_ATTR i, 11, 1⟩
def F.VAULT.SLOT_ATTR.FIXED (i : Nat) : Fld := ⟨R.VAULT.SLOT_ATTR i, 12, 1⟩
def F.VAULT.SLOT_ATTR.INUSE (i : Nat) : Fld := ⟨R.VAULT.SLOT_ATTR i, 13, 1⟩

/-! ### GWEA (R623, R647-R651) -/

/-- `ROLL_DAYS` at 0x060. -/
def R.GWEA.ROLL_DAYS : Nat := 0xFFF0153060
/-- `PROJ` at 0x068. -/
def R.GWEA.PROJ (i : Nat) : Nat := 0xFFF0153068 + 0x8 * i
/-- `RATE_DAYS` at 0x078. -/
def R.GWEA.RATE_DAYS : Nat := 0xFFF0153078
def F.GWEA.ROLL_DAYS.DAYS : Fld := ⟨R.GWEA.ROLL_DAYS, 0, 10⟩
def F.GWEA.PROJ.DAYS (i : Nat) : Fld := ⟨R.GWEA.PROJ i, 0, 16⟩
def F.GWEA.PROJ.RATE (i : Nat) : Fld := ⟨R.GWEA.PROJ i, 16, 24⟩
def F.GWEA.RATE_DAYS.DAYS : Fld := ⟨R.GWEA.RATE_DAYS, 0, 6⟩

/-! ### GFIL (R623, R647-R651) -/

/-- `FCFG` at 0x060. -/
def R.GFIL.FCFG : Nat := 0xFFF0154060
def F.GFIL.FCFG.MOTION_S : Fld := ⟨R.GFIL.FCFG, 0, 8⟩
def F.GFIL.FCFG.ZERO_S : Fld := ⟨R.GFIL.FCFG, 8, 8⟩
def F.GFIL.FCFG.NOISE_HI : Fld := ⟨R.GFIL.FCFG, 16, 4⟩
def F.GFIL.FCFG.NOISE_LO : Fld := ⟨R.GFIL.FCFG, 20, 4⟩

/-! ### GFLO (R623, R647-R651) -/

/-- `AGE_STEP` at 0x060. -/
def R.GFLO.AGE_STEP : Nat := 0xFFF0155060
def F.GFLO.AGE_STEP.US : Fld := ⟨R.GFLO.AGE_STEP, 0, 16⟩

end Sys2Proof.Machine
end

