-- ==== Sys2Proof/Machine/RegTable.lean ====
section
/-! DEFINITION. The access side of the register map: one row per register of the spec's tables with its
level, its access masks (rw, wc, ws, wo bits, R5), its reset-class masks (b, w, c; the rest of the
register is class n or reserved, R9) and its reset value. Generated from the same tables as
`RegMap.lean`. The write-once LOCK bits and the sealed set are handled by their own commands. -/

namespace Sys2Proof.Machine

/-- Registers of a `CLU` page beyond the header. -/
def rowsClu : List RegRow := [
  { off := 0x40, s1 := 0x0, n1 := 1, s2 := 0x0, n2 := 1, expert := false, reset := 0x0, rw := 0x0, wc := 0x0, ws := 0x0, wo := 0x0, clsB := 0x0, clsW := 0x0, clsC := 0xFFFFFFFFF } /- CORE_MAP -/,
  { off := 0x48, s1 := 0x0, n1 := 1, s2 := 0x0, n2 := 1, expert := false, reset := 0x0, rw := 0xF, wc := 0x0, ws := 0x0, wo := 0x0, clsB := 0x0, clsW := 0xF, clsC := 0x0 } /- CONJ_CTRL -/,
  { off := 0x50, s1 := 0x0, n1 := 1, s2 := 0x0, n2 := 1, expert := false, reset := 0x0, rw := 0x0, wc := 0x0, ws := 0x0, wo := 0x0, clsB := 0x0, clsW := 0xFFFFFF, clsC := 0x0 } /- CONJ_STATUS -/,
  { off := 0x58, s1 := 0x0, n1 := 1, s2 := 0x0, n2 := 1, expert := false, reset := 0x0, rw := 0x0, wc := 0x0, ws := 0x0, wo := 0x0, clsB := 0x0, clsW := 0xFFFFFFFF03, clsC := 0x0 } /- CLK_STATUS -/ ]

/-- Registers of a `CORE` page beyond the header. -/
def rowsCore : List RegRow := [
  { off := 0x40, s1 := 0x0, n1 := 1, s2 := 0x0, n2 := 1, expert := false, reset := 0x0, rw := 0x0, wc := 0x0, ws := 0x0, wo := 0x0, clsB := 0x0, clsW := 0x1E0, clsC := 0x1F } /- CORE_STATUS -/,
  { off := 0x48, s1 := 0x0, n1 := 1, s2 := 0x0, n2 := 1, expert := false, reset := 0x0, rw := 0x0, wc := 0x0, ws := 0x0, wo := 0x0, clsB := 0x0, clsW := 0xFFFF, clsC := 0x0 } /- CTX_STATE -/,
  { off := 0x50, s1 := 0x0, n1 := 1, s2 := 0x0, n2 := 1, expert := false, reset := 0x0, rw := 0x0, wc := 0x0, ws := 0xFFFFFF, wo := 0x0, clsB := 0x0, clsW := 0xFFFFFF, clsC := 0x0 } /- CTX_CTRL -/,
  { off := 0x100, s1 := 0x20, n1 := 8, s2 := 0x0, n2 := 1, expert := false, reset := 0x0, rw := 0xFFFFFFFFFF, wc := 0x0, ws := 0x0, wo := 0x0, clsB := 0x0, clsW := 0xFFFFFFFFFF, clsC := 0x0 } /- CTX_PC -/,
  { off := 0x108, s1 := 0x20, n1 := 8, s2 := 0x0, n2 := 1, expert := false, reset := 0x0, rw := 0x7, wc := 0x0, ws := 0x0, wo := 0x0, clsB := 0x0, clsW := 0x107, clsC := 0x0 } /- CTX_CFG -/,
  { off := 0x110, s1 := 0x20, n1 := 8, s2 := 0x0, n2 := 1, expert := false, reset := 0x0, rw := 0xFFFFFFFE01, wc := 0x0, ws := 0x0, wo := 0x0, clsB := 0x0, clsW := 0x0, clsC := 0xFFFFFFFE01 } /- CTX_RESCUE -/,
  { off := 0x118, s1 := 0x20, n1 := 8, s2 := 0x0, n2 := 1, expert := false, reset := 0x0, rw := 0x0, wc := 0x0, ws := 0x0, wo := 0x0, clsB := 0x0, clsW := 0x1FF, clsC := 0x0 } /- CTX_HALT -/,
  { off := 0x58, s1 := 0x0, n1 := 1, s2 := 0x0, n2 := 1, expert := false, reset := 0x0, rw := 0x0, wc := 0x0, ws := 0x0, wo := 0x0, clsB := 0x0, clsW := 0x0, clsC := 0xFFFFFFFFFF } /- CE_COUNT -/,
  { off := 0x60, s1 := 0x0, n1 := 1, s2 := 0x0, n2 := 1, expert := false, reset := 0x0, rw := 0x0, wc := 0x0, ws := 0x0, wo := 0x0, clsB := 0x0, clsW := 0x0, clsC := 0xFFFFFFFF03 } /- TEST -/,
  { off := 0x200, s1 := 0x8, n1 := 8, s2 := 0x0, n2 := 1, expert := false, reset := 0x0, rw := 0x1FF, wc := 0x0, ws := 0x0, wo := 0x0, clsB := 0x0, clsW := 0x7FF, clsC := 0x0 } /- CTX_ROLESLOT -/ ]

/-- Registers of a `SYS` page beyond the header. -/
def rowsSys : List RegRow := [
  { off := 0x48, s1 := 0x0, n1 := 1, s2 := 0x0, n2 := 1, expert := false, reset := 0x0, rw := 0x0, wc := 0x0, ws := 0x0, wo := 0xFFFFFFF, clsB := 0x0, clsW := 0xFFFFFFF, clsC := 0x0 } /- IRT_WRITE -/,
  { off := 0x50, s1 := 0x0, n1 := 1, s2 := 0x0, n2 := 1, expert := false, reset := 0x0, rw := 0x3FF, wc := 0x0, ws := 0x0, wo := 0x0, clsB := 0x0, clsW := 0x3FF, clsC := 0x0 } /- IRT_SELECT -/,
  { off := 0x58, s1 := 0x0, n1 := 1, s2 := 0x0, n2 := 1, expert := false, reset := 0x0, rw := 0x0, wc := 0x0, ws := 0x0, wo := 0x0, clsB := 0x0, clsW := 0x7FFFF, clsC := 0x0 } /- IRT_READ -/,
  { off := 0x60, s1 := 0x0, n1 := 1, s2 := 0x0, n2 := 1, expert := false, reset := 0x0, rw := 0x3FFF, wc := 0x0, ws := 0x0, wo := 0x0, clsB := 0x0, clsW := 0x3FFF, clsC := 0x0 } /- HALT_QUEUE -/,
  { off := 0x68, s1 := 0x0, n1 := 1, s2 := 0x0, n2 := 1, expert := false, reset := 0x0, rw := 0x0, wc := 0x0, ws := 0x0, wo := 0x7FF, clsB := 0x0, clsW := 0x7FF, clsC := 0x0 } /- SWI -/,
  { off := 0x40, s1 := 0x0, n1 := 1, s2 := 0x0, n2 := 1, expert := false, reset := 0x0, rw := 0x3FFFFF, wc := 0x0, ws := 0x0, wo := 0x0, clsB := 0x0, clsW := 0x0, clsC := 0x3FFFFF } /- EXPERT_GRANT -/ ]

/-- Registers of a `TLY` page beyond the header. -/
def rowsTly : List RegRow := [
  { off := 0x40, s1 := 0x0, n1 := 1, s2 := 0x0, n2 := 1, expert := false, reset := 0x0, rw := 0x0, wc := 0x0, ws := 0x0, wo := 0x0, clsB := 0x0, clsW := 0x0, clsC := 0x7 } /- SELF -/,
  { off := 0x48, s1 := 0x0, n1 := 1, s2 := 0x0, n2 := 1, expert := false, reset := 0x0, rw := 0xFFFFFFFFFF, wc := 0x0, ws := 0x0, wo := 0x0, clsB := 0x0, clsW := 0x0, clsC := 0xFFFFFFFFFF } /- PSN_NEXT -/,
  { off := 0x50, s1 := 0x0, n1 := 1, s2 := 0x0, n2 := 1, expert := false, reset := 0x0, rw := 0xFFFFFFFFFF, wc := 0x0, ws := 0x0, wo := 0x0, clsB := 0x0, clsW := 0x0, clsC := 0xFFFFFFFFFF } /- DEV_MAP -/,
  { off := 0x58, s1 := 0x0, n1 := 1, s2 := 0x0, n2 := 1, expert := false, reset := 0x40, rw := 0xFFFF, wc := 0x0, ws := 0x0, wo := 0x0, clsB := 0x0, clsW := 0xFFFF, clsC := 0x0 } /- TICKET_LIMIT -/,
  { off := 0x60, s1 := 0x0, n1 := 1, s2 := 0x0, n2 := 1, expert := false, reset := 0x0, rw := 0x0, wc := 0x0, ws := 0x0, wo := 0x0, clsB := 0xFFFF0000, clsW := 0xFFFF, clsC := 0x0 } /- TICKET_USE -/,
  { off := 0x68, s1 := 0x0, n1 := 1, s2 := 0x0, n2 := 1, expert := false, reset := 0x0, rw := 0x0, wc := 0x0, ws := 0x0, wo := 0x0, clsB := 0x0, clsW := 0x0, clsC := 0x1F } /- CUT_STATUS -/,
  { off := 0x70, s1 := 0x0, n1 := 1, s2 := 0x0, n2 := 1, expert := false, reset := 0x0, rw := 0x0, wc := 0x0, ws := 0x0, wo := 0x0, clsB := 0xFFFFFFFFFF, clsW := 0x0, clsC := 0x0 } /- FF_COUNT -/,
  { off := 0x78, s1 := 0x0, n1 := 1, s2 := 0x0, n2 := 1, expert := false, reset := 0x0, rw := 0x0, wc := 0x0, ws := 0x0, wo := 0x0, clsB := 0x1FFFFFF, clsW := 0x0, clsC := 0x0 } /- FF_LAST -/,
  { off := 0x80, s1 := 0x0, n1 := 1, s2 := 0x0, n2 := 1, expert := false, reset := 0x0, rw := 0x0, wc := 0x0, ws := 0x0, wo := 0x1FFF, clsB := 0x0, clsW := 0x1FFF, clsC := 0x0 } /- TKT_FLUSH -/,
  { off := 0x88, s1 := 0x0, n1 := 1, s2 := 0x0, n2 := 1, expert := false, reset := 0x0, rw := 0xFFFFFFFFFF, wc := 0x0, ws := 0x0, wo := 0x0, clsB := 0x0, clsW := 0x0, clsC := 0xFFFFFFFFFF } /- REPLAY_ADDR -/,
  { off := 0x90, s1 := 0x0, n1 := 1, s2 := 0x0, n2 := 1, expert := false, reset := 0x0, rw := 0xFFFFFFFFFF, wc := 0x0, ws := 0x0, wo := 0x0, clsB := 0x0, clsW := 0x0, clsC := 0xFFFFFFFFFF } /- REPLAY_LEN -/,
  { off := 0x98, s1 := 0x0, n1 := 1, s2 := 0x0, n2 := 1, expert := false, reset := 0x0, rw := 0xFFFFFFFFFF, wc := 0x0, ws := 0x0, wo := 0x0, clsB := 0x0, clsW := 0x0, clsC := 0xFFFFFFFFFF } /- REPLAY_FROM -/,
  { off := 0xA0, s1 := 0x0, n1 := 1, s2 := 0x0, n2 := 1, expert := false, reset := 0x0, rw := 0x2, wc := 0x0, ws := 0x5, wo := 0x0, clsB := 0x0, clsW := 0x1, clsC := 0x6 } /- REPLAY_CTRL -/,
  { off := 0xA8, s1 := 0x0, n1 := 1, s2 := 0x0, n2 := 1, expert := false, reset := 0x0, rw := 0x0, wc := 0x0, ws := 0x0, wo := 0x0, clsB := 0x0, clsW := 0x3, clsC := 0x0 } /- REPLAY_STATUS -/,
  { off := 0xB0, s1 := 0x0, n1 := 1, s2 := 0x0, n2 := 1, expert := false, reset := 0x0, rw := 0x0, wc := 0x0, ws := 0x0, wo := 0x0, clsB := 0x0, clsW := 0x0, clsC := 0xFFFFFFFFFF } /- REPLAY_APPLIED -/,
  { off := 0xB8, s1 := 0x0, n1 := 1, s2 := 0x0, n2 := 1, expert := false, reset := 0x0, rw := 0x0, wc := 0x0, ws := 0x0, wo := 0x0, clsB := 0x0, clsW := 0x0, clsC := 0xFFFFFFFFFF } /- REPLAY_SKIPPED -/,
  { off := 0xC0, s1 := 0x0, n1 := 1, s2 := 0x0, n2 := 1, expert := false, reset := 0x0, rw := 0x0, wc := 0x0, ws := 0x0, wo := 0x0, clsB := 0x0, clsW := 0x0, clsC := 0xFFFFFFFFFF } /- CUT_BOUNDARY -/,
  { off := 0x100, s1 := 0x10, n1 := 16, s2 := 0x0, n2 := 1, expert := false, reset := 0x0, rw := 0xFFFFFFFFF, wc := 0x0, ws := 0x0, wo := 0x0, clsB := 0x0, clsW := 0x0, clsC := 0xFFFFFFFFF } /- RANGE_BOUNDS -/,
  { off := 0x108, s1 := 0x10, n1 := 16, s2 := 0x0, n2 := 1, expert := false, reset := 0x0, rw := 0x3F, wc := 0x0, ws := 0x0, wo := 0x0, clsB := 0x0, clsW := 0x0, clsC := 0x3F } /- RANGE_ATTR -/,
  { off := 0x800, s1 := 0x0, n1 := 1, s2 := 0x0, n2 := 1, expert := true, reset := 0x3E8, rw := 0xFFFF, wc := 0x0, ws := 0x0, wo := 0x0, clsB := 0x0, clsW := 0x0, clsC := 0xFFFF } /- SCRUB_PERIOD -/,
  { off := 0x808, s1 := 0x0, n1 := 1, s2 := 0x0, n2 := 1, expert := true, reset := 0x0, rw := 0x0, wc := 0x0, ws := 0xFFFFF, wo := 0x0, clsB := 0xFFFFF, clsW := 0x0, clsC := 0x0 } /- ECC_INJECT -/ ]

/-- Registers of a `BANK` page beyond the header. -/
def rowsBank : List RegRow := [
  { off := 0x40, s1 := 0x0, n1 := 1, s2 := 0x0, n2 := 1, expert := false, reset := 0x0, rw := 0x0, wc := 0x0, ws := 0x0, wo := 0x0, clsB := 0x7F7F, clsW := 0x0, clsC := 0x0 } /- LEVEL -/,
  { off := 0x48, s1 := 0x0, n1 := 1, s2 := 0x0, n2 := 1, expert := false, reset := 0x0, rw := 0x0, wc := 0x0, ws := 0x0, wo := 0x0, clsB := 0xFFFFFFFFFF, clsW := 0x0, clsC := 0x0 } /- APPLIED -/,
  { off := 0x50, s1 := 0x0, n1 := 1, s2 := 0x0, n2 := 1, expert := false, reset := 0x0, rw := 0x0, wc := 0x0, ws := 0x0, wo := 0x0, clsB := 0x0, clsW := 0x0, clsC := 0xFFFFFFFFFF } /- CE_COUNT -/,
  { off := 0x58, s1 := 0x0, n1 := 1, s2 := 0x0, n2 := 1, expert := false, reset := 0x0, rw := 0x0, wc := 0x0, ws := 0x0, wo := 0x0, clsB := 0x0, clsW := 0x0, clsC := 0xFFFF } /- UE_COUNT -/,
  { off := 0x60, s1 := 0x0, n1 := 1, s2 := 0x0, n2 := 1, expert := false, reset := 0x0, rw := 0x0, wc := 0x0, ws := 0x0, wo := 0x0, clsB := 0x0, clsW := 0x0, clsC := 0x3FFFF } /- UE_LAST -/ ]

/-- Registers of a `QMG` page beyond the header. -/
def rowsQmg : List RegRow := [
  { off := 0x40, s1 := 0x0, n1 := 1, s2 := 0x0, n2 := 1, expert := false, reset := 0x0, rw := 0x3FFF, wc := 0x0, ws := 0x0, wo := 0x0, clsB := 0x0, clsW := 0x3FFF, clsC := 0x0 } /- ORPHAN_QUEUE -/,
  { off := 0x48, s1 := 0x0, n1 := 1, s2 := 0x0, n2 := 1, expert := false, reset := 0x0, rw := 0x0, wc := 0x0, ws := 0x0, wo := 0x0, clsB := 0x0, clsW := 0x0, clsC := 0xFFFFFFFFFF } /- ORPHAN_LOST -/,
  { off := 0x50, s1 := 0x0, n1 := 1, s2 := 0x0, n2 := 1, expert := false, reset := 0x0, rw := 0x0, wc := 0x0, ws := 0x0, wo := 0x0, clsB := 0xFFF000, clsW := 0xFFF, clsC := 0x0 } /- TAGS -/,
  { off := 0x58, s1 := 0x0, n1 := 1, s2 := 0x0, n2 := 1, expert := false, reset := 0x0, rw := 0x0, wc := 0x0, ws := 0x0, wo := 0x0, clsB := 0x1FFFF, clsW := 0x0, clsC := 0x0 } /- FULL_LAST -/,
  { off := 0x60, s1 := 0x0, n1 := 1, s2 := 0x0, n2 := 1, expert := false, reset := 0x0, rw := 0x0, wc := 0x0, ws := 0x0, wo := 0x0, clsB := 0x1FFF, clsW := 0x0, clsC := 0x0 } /- WIN_ERR -/,
  { off := 0x68, s1 := 0x0, n1 := 1, s2 := 0x0, n2 := 1, expert := false, reset := 0x0, rw := 0x0, wc := 0x0, ws := 0x0, wo := 0x0, clsB := 0x0, clsW := 0x0, clsC := 0xFFFFFFFFFF } /- RING_ERRORS -/,
  { off := 0x800, s1 := 0x0, n1 := 1, s2 := 0x0, n2 := 1, expert := true, reset := 0x600, rw := 0xFFF, wc := 0x0, ws := 0x0, wo := 0x0, clsB := 0x0, clsW := 0x0, clsC := 0xFFF } /- TAG_SHARE -/ ]

/-- Registers of a `JRN` page beyond the header. -/
def rowsJrn : List RegRow := [
  { off := 0x40, s1 := 0x0, n1 := 1, s2 := 0x0, n2 := 1, expert := false, reset := 0x1908, rw := 0xFFFFFFFB, wc := 0x0, ws := 0x0, wo := 0x0, clsB := 0x0, clsW := 0x0, clsC := 0xFFFFFFFB } /- CFG -/,
  { off := 0x48, s1 := 0x0, n1 := 1, s2 := 0x0, n2 := 1, expert := false, reset := 0x0, rw := 0x0, wc := 0x0, ws := 0x0, wo := 0x0, clsB := 0x1F, clsW := 0x0, clsC := 0x0 } /- STATE -/,
  { off := 0x50, s1 := 0x0, n1 := 1, s2 := 0x0, n2 := 1, expert := false, reset := 0x1, rw := 0x0, wc := 0x0, ws := 0x0, wo := 0x0, clsB := 0x0, clsW := 0x0, clsC := 0xFFFFFFFFFF } /- NEXT_JSN -/,
  { off := 0x58, s1 := 0x0, n1 := 1, s2 := 0x0, n2 := 1, expert := false, reset := 0x1, rw := 0x0, wc := 0x0, ws := 0x0, wo := 0x0, clsB := 0x0, clsW := 0x0, clsC := 0xFFFFFFFFFF } /- NEXT_BATCH -/,
  { off := 0x60, s1 := 0x0, n1 := 1, s2 := 0x0, n2 := 1, expert := false, reset := 0x0, rw := 0x0, wc := 0x0, ws := 0x0, wo := 0x0, clsB := 0x0, clsW := 0x0, clsC := 0xFFFFFFFFFF } /- COMMIT_BATCH -/,
  { off := 0x68, s1 := 0x0, n1 := 1, s2 := 0x0, n2 := 1, expert := false, reset := 0x0, rw := 0x0, wc := 0x0, ws := 0x0, wo := 0x0, clsB := 0x0, clsW := 0x0, clsC := 0xFFFFFFFFFF } /- COMMIT_JSN -/,
  { off := 0x70, s1 := 0x0, n1 := 1, s2 := 0x0, n2 := 1, expert := false, reset := 0x0, rw := 0xFFFFFFFFFF, wc := 0x0, ws := 0x0, wo := 0x0, clsB := 0x0, clsW := 0x0, clsC := 0xFFFFFFFFFF } /- ARCHIVED -/,
  { off := 0x78, s1 := 0x0, n1 := 1, s2 := 0x0, n2 := 1, expert := false, reset := 0x0, rw := 0x0, wc := 0x0, ws := 0x7, wo := 0x8, clsB := 0xF, clsW := 0x0, clsC := 0x0 } /- CTRL -/,
  { off := 0x80, s1 := 0x0, n1 := 1, s2 := 0x0, n2 := 1, expert := false, reset := 0x0, rw := 0x0, wc := 0x0, ws := 0x0, wo := 0x0, clsB := 0x0, clsW := 0x0, clsC := 0xFFFFFFFFFF } /- REJECTS -/,
  { off := 0x88, s1 := 0x0, n1 := 1, s2 := 0x0, n2 := 1, expert := false, reset := 0x0, rw := 0x0, wc := 0x0, ws := 0x0, wo := 0x0, clsB := 0xFFFFFFFF, clsW := 0x0, clsC := 0x0 } /- REJECT_LAST -/,
  { off := 0x90, s1 := 0x0, n1 := 1, s2 := 0x0, n2 := 1, expert := false, reset := 0x0, rw := 0xFFFFFFF000, wc := 0x0, ws := 0x0, wo := 0x0, clsB := 0x0, clsW := 0x0, clsC := 0xFFFFFFF000 } /- SHADOW -/,
  { off := 0x98, s1 := 0x0, n1 := 1, s2 := 0x0, n2 := 1, expert := false, reset := 0x0, rw := 0x0, wc := 0x0, ws := 0x0, wo := 0x0, clsB := 0x7, clsW := 0x0, clsC := 0x0 } /- SCAN -/,
  { off := 0xA0, s1 := 0x0, n1 := 1, s2 := 0x0, n2 := 1, expert := false, reset := 0x0, rw := 0xFFFFFFFFFF, wc := 0x0, ws := 0x0, wo := 0x0, clsB := 0xFFFFFFFFFF, clsW := 0x0, clsC := 0x0 } /- RD_BATCH -/,
  { off := 0xA8, s1 := 0x0, n1 := 1, s2 := 0x0, n2 := 1, expert := false, reset := 0x0, rw := 0xFFFFFFFFFF, wc := 0x0, ws := 0x0, wo := 0x0, clsB := 0xFFFFFFFFFF, clsW := 0x0, clsC := 0x0 } /- RD_PSN -/,
  { off := 0xB0, s1 := 0x0, n1 := 1, s2 := 0x0, n2 := 1, expert := false, reset := 0x0, rw := 0xFFFFFFFFFF, wc := 0x0, ws := 0x0, wo := 0x0, clsB := 0xFFFFFFFFFF, clsW := 0x0, clsC := 0x0 } /- RD_ADDR -/,
  { off := 0xB8, s1 := 0x0, n1 := 1, s2 := 0x0, n2 := 1, expert := false, reset := 0x0, rw := 0xFFFFFFFFFF, wc := 0x0, ws := 0x0, wo := 0x0, clsB := 0xFFFFFFFFFF, clsW := 0x0, clsC := 0x0 } /- RD_LEN -/,
  { off := 0xC0, s1 := 0x0, n1 := 1, s2 := 0x0, n2 := 1, expert := false, reset := 0x0, rw := 0xFFFFFE, wc := 0x0, ws := 0x1, wo := 0x0, clsB := 0xFFFFFF, clsW := 0x0, clsC := 0x0 } /- RD_CTRL -/,
  { off := 0xC8, s1 := 0x0, n1 := 1, s2 := 0x0, n2 := 1, expert := false, reset := 0x0, rw := 0x0, wc := 0x0, ws := 0x0, wo := 0x0, clsB := 0x7, clsW := 0x0, clsC := 0x0 } /- RD_STATUS -/,
  { off := 0x100, s1 := 0x8, n1 := 8, s2 := 0x0, n2 := 1, expert := false, reset := 0x0, rw := 0x3FFF, wc := 0x0, ws := 0x0, wo := 0x0, clsB := 0x0, clsW := 0x3FFF, clsC := 0x0 } /- INQ -/,
  { off := 0x140, s1 := 0x8, n1 := 8, s2 := 0x0, n2 := 1, expert := false, reset := 0x0, rw := 0x0, wc := 0x0, ws := 0x0, wo := 0x0, clsB := 0xFFFFFFFFFF, clsW := 0x0, clsC := 0x0 } /- PSN_MAX -/,
  { off := 0x800, s1 := 0x0, n1 := 1, s2 := 0x0, n2 := 1, expert := true, reset := 0x2, rw := 0xF, wc := 0x0, ws := 0x0, wo := 0x0, clsB := 0x0, clsW := 0x0, clsC := 0xF } /- ERASE_AHEAD -/,
  { off := 0x808, s1 := 0x0, n1 := 1, s2 := 0x0, n2 := 1, expert := true, reset := 0x38, rw := 0x7F, wc := 0x0, ws := 0x0, wo := 0x0, clsB := 0x0, clsW := 0x0, clsC := 0x7F } /- RETIRE_BITS -/ ]

/-- Registers of a `CRT` page beyond the header. -/
def rowsCrt : List RegRow := [
  { off := 0x40, s1 := 0x0, n1 := 1, s2 := 0x0, n2 := 1, expert := false, reset := 0x0, rw := 0x0, wc := 0x0, ws := 0x0, wo := 0x0, clsB := 0x7FFF, clsW := 0x0, clsC := 0x0 } /- STATUS -/,
  { off := 0x48, s1 := 0x0, n1 := 1, s2 := 0x0, n2 := 1, expert := false, reset := 0x0, rw := 0x0, wc := 0x0, ws := 0x7, wo := 0x0, clsB := 0x3, clsW := 0x0, clsC := 0x4 } /- CTRL -/,
  { off := 0x50, s1 := 0x0, n1 := 1, s2 := 0x0, n2 := 1, expert := false, reset := 0x0, rw := 0x0, wc := 0x0, ws := 0x0, wo := 0x0, clsB := 0xFFFFFFFFFF, clsW := 0x0, clsC := 0x0 } /- ID -/,
  { off := 0x58, s1 := 0x0, n1 := 1, s2 := 0x0, n2 := 1, expert := false, reset := 0x0, rw := 0x0, wc := 0x0, ws := 0x0, wo := 0x0, clsB := 0xFFFFFFFFFF, clsW := 0x0, clsC := 0x0 } /- ID_HI -/,
  { off := 0x60, s1 := 0x0, n1 := 1, s2 := 0x0, n2 := 1, expert := false, reset := 0x0, rw := 0x0, wc := 0x0, ws := 0x0, wo := 0x0, clsB := 0x7FFFFFF, clsW := 0x0, clsC := 0x0 } /- GEOMETRY -/,
  { off := 0x68, s1 := 0x0, n1 := 1, s2 := 0x0, n2 := 1, expert := false, reset := 0x0, rw := 0x0, wc := 0x0, ws := 0x0, wo := 0x0, clsB := 0x0, clsW := 0x0, clsC := 0x0 } /- ERASES -/,
  { off := 0x70, s1 := 0x0, n1 := 1, s2 := 0x0, n2 := 1, expert := false, reset := 0x0, rw := 0x0, wc := 0x0, ws := 0x0, wo := 0x0, clsB := 0xFFFF, clsW := 0x0, clsC := 0x0 } /- BAD -/,
  { off := 0x78, s1 := 0x0, n1 := 1, s2 := 0x0, n2 := 1, expert := false, reset := 0x0, rw := 0x0, wc := 0x0, ws := 0x0, wo := 0x0, clsB := 0xFFFFFFFF, clsW := 0x0, clsC := 0x0 } /- WRITE_POS -/,
  { off := 0x80, s1 := 0x0, n1 := 1, s2 := 0x0, n2 := 1, expert := false, reset := 0x0, rw := 0x0, wc := 0x0, ws := 0x0, wo := 0x0, clsB := 0x0, clsW := 0x0, clsC := 0xFFFFFFFFFF } /- CORRECTED -/ ]

/-- Registers of a `WGH` page beyond the header. -/
def rowsWgh : List RegRow := [
  { off := 0x40, s1 := 0x0, n1 := 1, s2 := 0x0, n2 := 1, expert := false, reset := 0x0, rw := 0xFFFFFF, wc := 0x0, ws := 0x0, wo := 0x0, clsB := 0x0, clsW := 0xFFFFFF, clsC := 0x0 } /- CLK_CFG -/,
  { off := 0x48, s1 := 0x0, n1 := 1, s2 := 0x0, n2 := 1, expert := false, reset := 0x0, rw := 0x0, wc := 0x0, ws := 0x0, wo := 0xFFFFF, clsB := 0x0, clsW := 0xFFFFF, clsC := 0x0 } /- SEAL_OPEN -/,
  { off := 0x50, s1 := 0x0, n1 := 1, s2 := 0x0, n2 := 1, expert := false, reset := 0x0, rw := 0x0, wc := 0x0, ws := 0x0, wo := 0x0, clsB := 0x0, clsW := 0x0, clsC := 0xFFFFFFFFFF } /- DROPPED -/,
  { off := 0x58, s1 := 0x0, n1 := 1, s2 := 0x0, n2 := 1, expert := false, reset := 0x0, rw := 0x0, wc := 0x0, ws := 0x0, wo := 0x0, clsB := 0xFF, clsW := 0x0, clsC := 0x0 } /- HELD -/ ]

/-- Registers of a `CH` page beyond the header. -/
def rowsCh : List RegRow := [
  { off := 0x40, s1 := 0x0, n1 := 1, s2 := 0x0, n2 := 1, expert := false, reset := 0x7800, rw := 0xFFFF, wc := 0x0, ws := 0x0, wo := 0x0, clsB := 0x0, clsW := 0xFFFF, clsC := 0x0 } /- CH_CTRL -/,
  { off := 0x48, s1 := 0x0, n1 := 1, s2 := 0x0, n2 := 1, expert := false, reset := 0x0, rw := 0x0, wc := 0x0, ws := 0x0, wo := 0x0, clsB := 0x1FFF, clsW := 0x0, clsC := 0x0 } /- CH_STATUS -/,
  { off := 0x50, s1 := 0x0, n1 := 1, s2 := 0x0, n2 := 1, expert := false, reset := 0x0, rw := 0x3FFF, wc := 0x0, ws := 0x0, wo := 0x0, clsB := 0x0, clsW := 0x3FFF, clsC := 0x0 } /- OUT_QUEUE -/,
  { off := 0x58, s1 := 0x0, n1 := 1, s2 := 0x0, n2 := 1, expert := false, reset := 0x0, rw := 0x3FFF, wc := 0x0, ws := 0x0, wo := 0x0, clsB := 0x0, clsW := 0x3FFF, clsC := 0x0 } /- CHK_QUEUE -/,
  { off := 0x60, s1 := 0x0, n1 := 1, s2 := 0x0, n2 := 1, expert := false, reset := 0x0, rw := 0x0, wc := 0x0, ws := 0x1F, wo := 0x0, clsB := 0x1F, clsW := 0x0, clsC := 0x0 } /- CMD -/,
  { off := 0x68, s1 := 0x0, n1 := 1, s2 := 0x0, n2 := 1, expert := false, reset := 0x0, rw := 0x0, wc := 0x0, ws := 0x0, wo := 0x0, clsB := 0xFF, clsW := 0x0, clsC := 0x0 } /- CMD_STATUS -/,
  { off := 0x70, s1 := 0x0, n1 := 1, s2 := 0x0, n2 := 1, expert := false, reset := 0x0, rw := 0xFFFFFFFFFF, wc := 0x0, ws := 0x0, wo := 0x0, clsB := 0x0, clsW := 0xFFFFFFFFFF, clsC := 0x0 } /- PRESET_TARE -/,
  { off := 0x78, s1 := 0x0, n1 := 1, s2 := 0x0, n2 := 1, expert := false, reset := 0x0, rw := 0x0, wc := 0x0, ws := 0x0, wo := 0x0, clsB := 0xFFFFFFFFFF, clsW := 0x0, clsC := 0x0 } /- RAW -/,
  { off := 0x80, s1 := 0x0, n1 := 1, s2 := 0x0, n2 := 1, expert := false, reset := 0x0, rw := 0x0, wc := 0x0, ws := 0x0, wo := 0x0, clsB := 0xFFFFFFFFFF, clsW := 0x0, clsC := 0x0 } /- GROSS_BIN -/,
  { off := 0x88, s1 := 0x0, n1 := 1, s2 := 0x0, n2 := 1, expert := false, reset := 0x0, rw := 0x0, wc := 0x0, ws := 0x0, wo := 0x0, clsB := 0xFFFFFFFFFF, clsW := 0x0, clsC := 0x0 } /- NET_DISP -/,
  { off := 0x90, s1 := 0x0, n1 := 1, s2 := 0x0, n2 := 1, expert := false, reset := 0x0, rw := 0x0, wc := 0x0, ws := 0x0, wo := 0x0, clsB := 0xFFFFFFFFFF, clsW := 0x0, clsC := 0x0 } /- TARE_DISP -/,
  { off := 0x98, s1 := 0x0, n1 := 1, s2 := 0x0, n2 := 1, expert := false, reset := 0x0, rw := 0x0, wc := 0x0, ws := 0x0, wo := 0x0, clsB := 0xFFFFFFFFFF, clsW := 0x0, clsC := 0x0 } /- ZERO_OFF -/,
  { off := 0xA0, s1 := 0x0, n1 := 1, s2 := 0x0, n2 := 1, expert := false, reset := 0x0, rw := 0xFFFFFFFFFF, wc := 0x0, ws := 0x0, wo := 0x0, clsB := 0x0, clsW := 0xFFFFFFFFFF, clsC := 0x0 } /- CHK_EXPECT -/,
  { off := 0xA8, s1 := 0x0, n1 := 1, s2 := 0x0, n2 := 1, expert := false, reset := 0x0, rw := 0xFFFFFFFFFF, wc := 0x0, ws := 0x0, wo := 0x0, clsB := 0x0, clsW := 0xFFFFFFFFFF, clsC := 0x0 } /- CHK_TOL -/,
  { off := 0xB0, s1 := 0x0, n1 := 1, s2 := 0x0, n2 := 1, expert := false, reset := 0x0, rw := 0x3FFCFFFF, wc := 0x0, ws := 0x30000, wo := 0x0, clsB := 0x30000, clsW := 0x3FFCFFFF, clsC := 0x0 } /- CHK_CTRL -/,
  { off := 0xB8, s1 := 0x0, n1 := 1, s2 := 0x0, n2 := 1, expert := false, reset := 0x0, rw := 0x0, wc := 0x0, ws := 0x0, wo := 0x0, clsB := 0x1FFFFF, clsW := 0x0, clsC := 0x0 } /- CHK_STATUS -/,
  { off := 0xC0, s1 := 0x0, n1 := 1, s2 := 0x0, n2 := 1, expert := false, reset := 0x0, rw := 0x0, wc := 0x0, ws := 0x0, wo := 0x0, clsB := 0xFFFFFF, clsW := 0x0, clsC := 0x0 } /- SEQ -/,
  { off := 0xC8, s1 := 0x0, n1 := 1, s2 := 0x0, n2 := 1, expert := false, reset := 0x0, rw := 0x0, wc := 0x0, ws := 0x0, wo := 0x0, clsB := 0x0, clsW := 0x0, clsC := 0x0 } /- AUDIT -/,
  { off := 0xD0, s1 := 0x0, n1 := 1, s2 := 0x0, n2 := 1, expert := false, reset := 0x0, rw := 0x0, wc := 0x0, ws := 0x0, wo := 0x0, clsB := 0x0, clsW := 0x0, clsC := 0x0 } /- CHECKSUM -/,
  { off := 0xD8, s1 := 0x0, n1 := 1, s2 := 0x0, n2 := 1, expert := false, reset := 0x0, rw := 0x0, wc := 0x0, ws := 0x0, wo := 0x0, clsB := 0xFFFF7, clsW := 0x0, clsC := 0x0 } /- SEAL_STATUS -/,
  { off := 0xE0, s1 := 0x0, n1 := 1, s2 := 0x0, n2 := 1, expert := false, reset := 0x0, rw := 0x0, wc := 0x0, ws := 0xF, wo := 0x0, clsB := 0xF, clsW := 0x0, clsC := 0x0 } /- SEAL_CTRL -/,
  { off := 0x150, s1 := 0x0, n1 := 1, s2 := 0x0, n2 := 1, expert := false, reset := 0x0, rw := 0x0, wc := 0x0, ws := 0x0, wo := 0x0, clsB := 0x0, clsW := 0x0, clsC := 0x0 } /- CAL_REF -/,
  { off := 0x800, s1 := 0x0, n1 := 1, s2 := 0x0, n2 := 1, expert := true, reset := 0x0, rw := 0xF, wc := 0x0, ws := 0x0, wo := 0x0, clsB := 0xF, clsW := 0x0, clsC := 0x0 } /- IIR_K -/,
  { off := 0x808, s1 := 0x0, n1 := 1, s2 := 0x0, n2 := 1, expert := true, reset := 0x0, rw := 0xFF, wc := 0x0, ws := 0x0, wo := 0x0, clsB := 0xFF, clsW := 0x0, clsC := 0x0 } /- MOTION_WIN -/,
  { off := 0x810, s1 := 0x0, n1 := 1, s2 := 0x0, n2 := 1, expert := true, reset := 0x0, rw := 0x0, wc := 0x0, ws := 0x0, wo := 0x0, clsB := 0xFFFFFFFFFF, clsW := 0x0, clsC := 0x0 } /- NOISE -/,
  { off := 0x818, s1 := 0x0, n1 := 1, s2 := 0x0, n2 := 1, expert := true, reset := 0x0, rw := 0x0, wc := 0x0, ws := 0x0, wo := 0x0, clsB := 0x1FFF, clsW := 0x0, clsC := 0x0 } /- FGOV_SUGGEST -/,
  { off := 0x100, s1 := 0x0, n1 := 1, s2 := 0x0, n2 := 1, expert := false, reset := 0x0, rw := 0x0, wc := 0x0, ws := 0x0, wo := 0x0, clsB := 0x0, clsW := 0x0, clsC := 0x0 } /- SEAL_LINE -/,
  { off := 0x108, s1 := 0x0, n1 := 1, s2 := 0x0, n2 := 1, expert := false, reset := 0x0, rw := 0x0, wc := 0x0, ws := 0x0, wo := 0x0, clsB := 0x0, clsW := 0x0, clsC := 0x0 } /- CAL_ZERO -/,
  { off := 0x110, s1 := 0x0, n1 := 1, s2 := 0x0, n2 := 1, expert := false, reset := 0x0, rw := 0x0, wc := 0x0, ws := 0x0, wo := 0x0, clsB := 0x0, clsW := 0x0, clsC := 0x0 } /- SPAN -/,
  { off := 0x118, s1 := 0x8, n1 := 3, s2 := 0x0, n2 := 1, expert := false, reset := 0x0, rw := 0x0, wc := 0x0, ws := 0x0, wo := 0x0, clsB := 0x0, clsW := 0x0, clsC := 0x0 } /- RANGE -/,
  { off := 0x130, s1 := 0x0, n1 := 1, s2 := 0x0, n2 := 1, expert := false, reset := 0x0, rw := 0x0, wc := 0x0, ws := 0x0, wo := 0x0, clsB := 0x0, clsW := 0x0, clsC := 0x0 } /- METRO -/,
  { off := 0x138, s1 := 0x0, n1 := 1, s2 := 0x0, n2 := 1, expert := false, reset := 0x0, rw := 0x0, wc := 0x0, ws := 0x0, wo := 0x0, clsB := 0x0, clsW := 0x0, clsC := 0x0 } /- DECIM -/,
  { off := 0x140, s1 := 0x0, n1 := 1, s2 := 0x0, n2 := 1, expert := false, reset := 0x0, rw := 0x0, wc := 0x0, ws := 0x0, wo := 0x0, clsB := 0x3F, clsW := 0x0, clsC := 0x0 } /- FIR_INDEX -/,
  { off := 0x148, s1 := 0x0, n1 := 1, s2 := 0x0, n2 := 1, expert := false, reset := 0x0, rw := 0x0, wc := 0x0, ws := 0x0, wo := 0x0, clsB := 0x0, clsW := 0x0, clsC := 0x0 } /- FIR_DATA -/ ]

/-- Registers of a `LIO` page beyond the header. -/
def rowsLio : List RegRow := [
  { off := 0x40, s1 := 0x0, n1 := 1, s2 := 0x0, n2 := 1, expert := false, reset := 0x0, rw := 0xF, wc := 0x0, ws := 0x0, wo := 0x0, clsB := 0x0, clsW := 0xF, clsC := 0x0 } /- CFG -/,
  { off := 0x48, s1 := 0x0, n1 := 1, s2 := 0x0, n2 := 1, expert := false, reset := 0x800800, rw := 0x0, wc := 0x0, ws := 0x0, wo := 0x0, clsB := 0xFFF000, clsW := 0xFFF, clsC := 0x0 } /- POOL -/,
  { off := 0x50, s1 := 0x0, n1 := 1, s2 := 0x0, n2 := 1, expert := false, reset := 0x0, rw := 0x0, wc := 0x0, ws := 0x0, wo := 0x0, clsB := 0x7FFFFF, clsW := 0x0, clsC := 0x0 } /- DROP_LAST -/,
  { off := 0x58, s1 := 0x0, n1 := 1, s2 := 0x0, n2 := 1, expert := false, reset := 0x0, rw := 0x0, wc := 0x0, ws := 0x0, wo := 0x0, clsB := 0x0, clsW := 0x0, clsC := 0xFFFFFFFFFF } /- EV_DROPS -/,
  { off := 0x100, s1 := 0x10, n1 := 32, s2 := 0x0, n2 := 1, expert := false, reset := 0x0, rw := 0xFFFFFFF00F, wc := 0x0, ws := 0x0, wo := 0x0, clsB := 0x0, clsW := 0xFFFFFFF00F, clsC := 0x0 } /- AREA_BASE -/,
  { off := 0x108, s1 := 0x10, n1 := 32, s2 := 0x0, n2 := 1, expert := false, reset := 0x0, rw := 0x1FFF, wc := 0x0, ws := 0x0, wo := 0x0, clsB := 0x0, clsW := 0x3FFFFFFF, clsC := 0x0 } /- AREA_QUEUE -/ ]

/-- Registers of a `OWN` page beyond the header. -/
def rowsOwn : List RegRow := [
  { off := 0x40, s1 := 0x0, n1 := 1, s2 := 0x0, n2 := 1, expert := false, reset := 0x0, rw := 0x0, wc := 0x0, ws := 0x0, wo := 0x7FFFFF, clsB := 0x0, clsW := 0x7FFFFF, clsC := 0x0 } /- CLAIM -/,
  { off := 0x48, s1 := 0x0, n1 := 1, s2 := 0x0, n2 := 1, expert := false, reset := 0x0, rw := 0x0, wc := 0x0, ws := 0x0, wo := 0x0, clsB := 0x0, clsW := 0x7, clsC := 0x0 } /- CLAIM_RESULT -/,
  { off := 0x50, s1 := 0x0, n1 := 1, s2 := 0x0, n2 := 1, expert := false, reset := 0x0, rw := 0x3FF, wc := 0x0, ws := 0x0, wo := 0x0, clsB := 0x0, clsW := 0x3FF, clsC := 0x0 } /- OWN_SELECT -/,
  { off := 0x58, s1 := 0x0, n1 := 1, s2 := 0x0, n2 := 1, expert := false, reset := 0x0, rw := 0x0, wc := 0x0, ws := 0x0, wo := 0x0, clsB := 0x0, clsW := 0x1FFFFFFFFF, clsC := 0x0 } /- OWN_READ -/ ]

/-- Registers of a `USBP` page beyond the header. -/
def rowsUsb : List RegRow := [
  { off := 0x40, s1 := 0x1C0, n1 := 4, s2 := 0x0, n2 := 1, expert := false, reset := 0x0, rw := 0x1, wc := 0x0, ws := 0x2, wo := 0x0, clsB := 0x2, clsW := 0x1, clsC := 0x0 } /- PORT_CTRL -/,
  { off := 0x48, s1 := 0x1C0, n1 := 4, s2 := 0x0, n2 := 1, expert := false, reset := 0x0, rw := 0x0, wc := 0x0, ws := 0x0, wo := 0x0, clsB := 0xF, clsW := 0x0, clsC := 0x0 } /- PORT_STATUS -/,
  { off := 0x50, s1 := 0x1C0, n1 := 4, s2 := 0x0, n2 := 1, expert := false, reset := 0x0, rw := 0x3FFF, wc := 0x0, ws := 0x0, wo := 0x0, clsB := 0x0, clsW := 0x3FFF, clsC := 0x0 } /- CTLQ -/,
  { off := 0x80, s1 := 0x1C0, n1 := 4, s2 := 0x18, n2 := 16, expert := false, reset := 0x0, rw := 0xFFFFFFFFFF, wc := 0x0, ws := 0x0, wo := 0x0, clsB := 0x0, clsW := 0xFFFFFFFFFF, clsC := 0x0 } /- PIPE_CFG -/,
  { off := 0x88, s1 := 0x1C0, n1 := 4, s2 := 0x18, n2 := 16, expert := false, reset := 0x0, rw := 0xFFFFFFF, wc := 0x0, ws := 0x0, wo := 0x0, clsB := 0x0, clsW := 0x1FFFFFFF, clsC := 0x0 } /- PIPE_BIND -/,
  { off := 0x90, s1 := 0x1C0, n1 := 4, s2 := 0x18, n2 := 16, expert := false, reset := 0x0, rw := 0x0, wc := 0x0, ws := 0x0, wo := 0x0, clsB := 0xFFFFFFFFFF, clsW := 0x0, clsC := 0x0 } /- PIPE_STATS -/ ]

/-- Registers of a `UARTP` page beyond the header. -/
def rowsUart : List RegRow := [
  { off := 0x40, s1 := 0x40, n1 := 16, s2 := 0x0, n2 := 1, expert := false, reset := 0x0, rw := 0x3FFFFFFF, wc := 0x0, ws := 0x0, wo := 0x0, clsB := 0x0, clsW := 0x3FFFFFFF, clsC := 0x0 } /- UA_CFG -/,
  { off := 0x48, s1 := 0x40, n1 := 16, s2 := 0x0, n2 := 1, expert := false, reset := 0x0, rw := 0x1FFF, wc := 0x0, ws := 0x0, wo := 0x0, clsB := 0x0, clsW := 0x1FFF, clsC := 0x0 } /- UA_MODE -/,
  { off := 0x50, s1 := 0x40, n1 := 16, s2 := 0x0, n2 := 1, expert := false, reset := 0x0, rw := 0x3FFFFFF, wc := 0x0, ws := 0x0, wo := 0x0, clsB := 0x0, clsW := 0x3FFFFFF, clsC := 0x0 } /- UA_BIND -/,
  { off := 0x58, s1 := 0x40, n1 := 16, s2 := 0x0, n2 := 1, expert := false, reset := 0x0, rw := 0xFFFFF, wc := 0x0, ws := 0x0, wo := 0x0, clsB := 0x0, clsW := 0xFFFFF, clsC := 0x0 } /- UA_TXQ -/,
  { off := 0x60, s1 := 0x40, n1 := 16, s2 := 0x0, n2 := 1, expert := false, reset := 0x0, rw := 0x0, wc := 0x0, ws := 0x0, wo := 0x0, clsB := 0xFFFFFFFFFF, clsW := 0x0, clsC := 0x0 } /- UA_STATS -/,
  { off := 0x68, s1 := 0x40, n1 := 16, s2 := 0x0, n2 := 1, expert := false, reset := 0x0, rw := 0x0, wc := 0x0, ws := 0x0, wo := 0x0, clsB := 0x7, clsW := 0x0, clsC := 0x0 } /- UA_STATUS -/ ]

/-- Registers of a `CANP` page beyond the header. -/
def rowsCan : List RegRow := [
  { off := 0x40, s1 := 0xF0, n1 := 8, s2 := 0x0, n2 := 1, expert := false, reset := 0x0, rw := 0xF, wc := 0x0, ws := 0x0, wo := 0x0, clsB := 0x0, clsW := 0xF, clsC := 0x0 } /- CAN_CFG -/,
  { off := 0x48, s1 := 0xF0, n1 := 8, s2 := 0x0, n2 := 1, expert := false, reset := 0x0, rw := 0x7FFFFFF, wc := 0x0, ws := 0x0, wo := 0x0, clsB := 0x0, clsW := 0x7FFFFFF, clsC := 0x0 } /- NTIME -/,
  { off := 0x50, s1 := 0xF0, n1 := 8, s2 := 0x0, n2 := 1, expert := false, reset := 0x0, rw := 0x3FFFFFF, wc := 0x0, ws := 0x0, wo := 0x0, clsB := 0x0, clsW := 0x3FFFFFF, clsC := 0x0 } /- DTIME -/,
  { off := 0x58, s1 := 0xF0, n1 := 8, s2 := 0x0, n2 := 1, expert := false, reset := 0x0, rw := 0xFFFFF, wc := 0x0, ws := 0x0, wo := 0x0, clsB := 0x0, clsW := 0xFFFFF, clsC := 0x0 } /- CAN_TXQ -/,
  { off := 0x60, s1 := 0xF0, n1 := 8, s2 := 0x0, n2 := 1, expert := false, reset := 0x0, rw := 0x0, wc := 0x0, ws := 0x0, wo := 0x0, clsB := 0xFFFFFFFFFF, clsW := 0x0, clsC := 0x0 } /- CAN_STATS -/,
  { off := 0x68, s1 := 0xF0, n1 := 8, s2 := 0x0, n2 := 1, expert := false, reset := 0x0, rw := 0x0, wc := 0x0, ws := 0x0, wo := 0x0, clsB := 0x3FFFF, clsW := 0x0, clsC := 0x0 } /- CAN_STATUS -/,
  { off := 0x70, s1 := 0xF0, n1 := 8, s2 := 0x18, n2 := 8, expert := false, reset := 0x0, rw := 0x7FFFFFFF, wc := 0x0, ws := 0x0, wo := 0x0, clsB := 0x0, clsW := 0x7FFFFFFF, clsC := 0x0 } /- FILT_ID -/,
  { off := 0x78, s1 := 0xF0, n1 := 8, s2 := 0x18, n2 := 8, expert := false, reset := 0x0, rw := 0x1FFFFFFF, wc := 0x0, ws := 0x0, wo := 0x0, clsB := 0x0, clsW := 0x1FFFFFFF, clsC := 0x0 } /- FILT_MASK -/,
  { off := 0x80, s1 := 0xF0, n1 := 8, s2 := 0x18, n2 := 8, expert := false, reset := 0x0, rw := 0x3FFFFFF, wc := 0x0, ws := 0x0, wo := 0x0, clsB := 0x0, clsW := 0x3FFFFFF, clsC := 0x0 } /- FILT_BIND -/ ]

/-- Registers of a `NET` page beyond the header. -/
def rowsNet : List RegRow := [
  { off := 0x40, s1 := 0x0, n1 := 1, s2 := 0x0, n2 := 1, expert := false, reset := 0x0, rw := 0xF, wc := 0x0, ws := 0x0, wo := 0x0, clsB := 0x0, clsW := 0xF, clsC := 0x0 } /- CFG -/,
  { off := 0x48, s1 := 0x0, n1 := 1, s2 := 0x0, n2 := 1, expert := false, reset := 0x0, rw := 0x3FFF, wc := 0x0, ws := 0x0, wo := 0x0, clsB := 0x0, clsW := 0x3FFF, clsC := 0x0 } /- TS_QUEUE -/,
  { off := 0x50, s1 := 0x0, n1 := 1, s2 := 0x0, n2 := 1, expert := false, reset := 0x0, rw := 0x0, wc := 0x0, ws := 0x0, wo := 0x0, clsB := 0x1FFFFF, clsW := 0x0, clsC := 0x0 } /- DROP_LAST -/,
  { off := 0x100, s1 := 0x18, n1 := 64, s2 := 0x0, n2 := 1, expert := false, reset := 0x0, rw := 0xFFFFFFFF, wc := 0x0, ws := 0x0, wo := 0x0, clsB := 0x0, clsW := 0xFFFFFFFF, clsC := 0x0 } /- RULE_MATCH -/,
  { off := 0x108, s1 := 0x18, n1 := 64, s2 := 0x0, n2 := 1, expert := false, reset := 0x0, rw := 0x3FFFF, wc := 0x0, ws := 0x0, wo := 0x0, clsB := 0x0, clsW := 0x3FFFF, clsC := 0x0 } /- RULE_PORTS -/,
  { off := 0x110, s1 := 0x18, n1 := 64, s2 := 0x0, n2 := 1, expert := false, reset := 0x0, rw := 0x3F, wc := 0x0, ws := 0x0, wo := 0x0, clsB := 0x0, clsW := 0x3F, clsC := 0x0 } /- RULE_ACTION -/,
  { off := 0x700, s1 := 0x10, n1 := 16, s2 := 0x0, n2 := 1, expert := false, reset := 0x0, rw := 0xFFFFFFF01F, wc := 0x0, ws := 0x0, wo := 0x0, clsB := 0x0, clsW := 0xFFFFFFF01F, clsC := 0x0 } /- AREA_BASE -/,
  { off := 0x708, s1 := 0x10, n1 := 16, s2 := 0x0, n2 := 1, expert := false, reset := 0x0, rw := 0x1FFF, wc := 0x0, ws := 0x0, wo := 0x0, clsB := 0x0, clsW := 0x3FFFFFFF, clsC := 0x0 } /- AREA_QUEUE -/ ]

/-- Registers of a `NPORT` page beyond the header. -/
def rowsNport : List RegRow := [
  { off := 0x40, s1 := 0x40, n1 := 16, s2 := 0x0, n2 := 1, expert := false, reset := 0x5F220, rw := 0x3FFFFF, wc := 0x0, ws := 0x0, wo := 0x0, clsB := 0x0, clsW := 0x3FFFFF, clsC := 0x0 } /- PCFG -/,
  { off := 0x48, s1 := 0x40, n1 := 16, s2 := 0x0, n2 := 1, expert := false, reset := 0x0, rw := 0xFFFFFFFF, wc := 0x0, ws := 0x0, wo := 0x0, clsB := 0x0, clsW := 0xFFFFFFFF, clsC := 0x0 } /- MAC_LO -/,
  { off := 0x50, s1 := 0x40, n1 := 16, s2 := 0x0, n2 := 1, expert := false, reset := 0x0, rw := 0xFFFF, wc := 0x0, ws := 0x0, wo := 0x0, clsB := 0x0, clsW := 0xFFFF, clsC := 0x0 } /- MAC_HI -/,
  { off := 0x58, s1 := 0x40, n1 := 16, s2 := 0x0, n2 := 1, expert := false, reset := 0x0, rw := 0x3FFF, wc := 0x0, ws := 0x0, wo := 0x0, clsB := 0x0, clsW := 0x3FFF, clsC := 0x0 } /- TXQ -/,
  { off := 0x60, s1 := 0x40, n1 := 16, s2 := 0x0, n2 := 1, expert := false, reset := 0x0, rw := 0x0, wc := 0x0, ws := 0x0, wo := 0x0, clsB := 0xF, clsW := 0x0, clsC := 0x0 } /- PSTATUS -/,
  { off := 0x68, s1 := 0x40, n1 := 16, s2 := 0x0, n2 := 1, expert := false, reset := 0x0, rw := 0x0, wc := 0x0, ws := 0x0, wo := 0x0, clsB := 0xFFFFFFFFFF, clsW := 0x0, clsC := 0x0 } /- RX_FRAMES -/,
  { off := 0x70, s1 := 0x40, n1 := 16, s2 := 0x0, n2 := 1, expert := false, reset := 0x0, rw := 0x0, wc := 0x0, ws := 0x0, wo := 0x0, clsB := 0xFFFFFFFFFF, clsW := 0x0, clsC := 0x0 } /- TX_FRAMES -/,
  { off := 0x78, s1 := 0x40, n1 := 16, s2 := 0x0, n2 := 1, expert := false, reset := 0x0, rw := 0x0, wc := 0x0, ws := 0x0, wo := 0x0, clsB := 0xFFFFFFFFFF, clsW := 0x0, clsC := 0x0 } /- DROPS -/ ]

/-- Registers of a `TB` page beyond the header. -/
def rowsTb : List RegRow := [
  { off := 0x40, s1 := 0x0, n1 := 1, s2 := 0x0, n2 := 1, expert := false, reset := 0x0, rw := 0x0, wc := 0x0, ws := 0x7, wo := 0x0, clsB := 0xF, clsW := 0x0, clsC := 0x0 } /- TB_CTRL -/,
  { off := 0x48, s1 := 0x0, n1 := 1, s2 := 0x0, n2 := 1, expert := false, reset := 0x0, rw := 0x0, wc := 0x0, ws := 0x0, wo := 0x0, clsB := 0x0, clsW := 0x0, clsC := 0x0 } /- TB_NS -/,
  { off := 0x50, s1 := 0x0, n1 := 1, s2 := 0x0, n2 := 1, expert := false, reset := 0x0, rw := 0x0, wc := 0x0, ws := 0x0, wo := 0x0, clsB := 0x0, clsW := 0x0, clsC := 0x0 } /- TB_SEC -/,
  { off := 0x58, s1 := 0x0, n1 := 1, s2 := 0x0, n2 := 1, expert := false, reset := 0x0, rw := 0x0, wc := 0x0, ws := 0x0, wo := 0x0, clsB := 0x0, clsW := 0x0, clsC := 0x0 } /- TB_SEC_HI -/,
  { off := 0x60, s1 := 0x0, n1 := 1, s2 := 0x0, n2 := 1, expert := false, reset := 0x0, rw := 0xFFFFFFF, wc := 0x0, ws := 0x0, wo := 0x0, clsB := 0x0, clsW := 0xFFFFFFF, clsC := 0x0 } /- TB_RATE -/,
  { off := 0x68, s1 := 0x0, n1 := 1, s2 := 0x0, n2 := 1, expert := false, reset := 0x0, rw := 0xFFFFFFFFFF, wc := 0x0, ws := 0x0, wo := 0x0, clsB := 0x0, clsW := 0xFFFFFFFFFF, clsC := 0x0 } /- TB_OFFSET -/,
  { off := 0x70, s1 := 0x0, n1 := 1, s2 := 0x0, n2 := 1, expert := false, reset := 0x0, rw := 0xFFFFFFFFFF, wc := 0x0, ws := 0x0, wo := 0x0, clsB := 0x0, clsW := 0xFFFFFFFFFF, clsC := 0x0 } /- TB_SET_SEC -/ ]

/-- Registers of a `PCI` page beyond the header. -/
def rowsPci : List RegRow := [
  { off := 0x40, s1 := 0x0, n1 := 1, s2 := 0x0, n2 := 1, expert := false, reset := 0x1E, rw := 0x1E, wc := 0x0, ws := 0x0, wo := 0x0, clsB := 0x0, clsW := 0x0, clsC := 0x1F } /- PCFG -/,
  { off := 0x48, s1 := 0x0, n1 := 1, s2 := 0x0, n2 := 1, expert := false, reset := 0x0, rw := 0x0, wc := 0x0, ws := 0x0, wo := 0x0, clsB := 0x3F, clsW := 0x0, clsC := 0x0 } /- PSTATUS -/,
  { off := 0x50, s1 := 0x0, n1 := 1, s2 := 0x0, n2 := 1, expert := false, reset := 0x0, rw := 0x3FFF, wc := 0x0, ws := 0x0, wo := 0x0, clsB := 0x0, clsW := 0x0, clsC := 0x3FFF } /- BAR2 -/,
  { off := 0x58, s1 := 0x0, n1 := 1, s2 := 0x0, n2 := 1, expert := false, reset := 0x0, rw := 0xFFFFFFFF, wc := 0x0, ws := 0x0, wo := 0x0, clsB := 0x0, clsW := 0x0, clsC := 0xFFFFFFFF } /- HOST_KRR -/,
  { off := 0x60, s1 := 0x0, n1 := 1, s2 := 0x0, n2 := 1, expert := false, reset := 0x0, rw := 0x0, wc := 0x0, ws := 0x0, wo := 0x0, clsB := 0x0, clsW := 0x0, clsC := 0x0 } /- ID -/,
  { off := 0x68, s1 := 0x0, n1 := 1, s2 := 0x0, n2 := 1, expert := false, reset := 0x0, rw := 0x0, wc := 0xFFFFFFFFFF, ws := 0x0, wo := 0x0, clsB := 0xFFFFFFFFFF, clsW := 0x0, clsC := 0x0 } /- MSI_STATUS -/,
  { off := 0x70, s1 := 0x0, n1 := 1, s2 := 0x0, n2 := 1, expert := false, reset := 0x0, rw := 0x0, wc := 0x0, ws := 0x0, wo := 0xFFFFFFFFFF, clsB := 0xFFFFFFFFFF, clsW := 0x0, clsC := 0x0 } /- MSI_DOORBELL -/,
  { off := 0x78, s1 := 0x0, n1 := 1, s2 := 0x0, n2 := 1, expert := false, reset := 0x0, rw := 0x0, wc := 0x0, ws := 0x0, wo := 0x0, clsB := 0x7, clsW := 0x0, clsC := 0x0 } /- ERR_LAST -/,
  { off := 0x80, s1 := 0x0, n1 := 1, s2 := 0x0, n2 := 1, expert := false, reset := 0x32, rw := 0x3FF, wc := 0x0, ws := 0x0, wo := 0x0, clsB := 0x0, clsW := 0x0, clsC := 0x3FF } /- CPL_TIMEOUT -/,
  { off := 0x100, s1 := 0x18, n1 := 8, s2 := 0x0, n2 := 1, expert := false, reset := 0x0, rw := 0xFFFFFFF, wc := 0x0, ws := 0x0, wo := 0x0, clsB := 0x0, clsW := 0xFFFFFFF, clsC := 0x0 } /- OUT_CFG -/,
  { off := 0x108, s1 := 0x18, n1 := 8, s2 := 0x0, n2 := 1, expert := false, reset := 0x0, rw := 0xFFFFFFFFFF, wc := 0x0, ws := 0x0, wo := 0x0, clsB := 0x0, clsW := 0xFFFFFFFFFF, clsC := 0x0 } /- OUT_ADDR_LO -/,
  { off := 0x110, s1 := 0x18, n1 := 8, s2 := 0x0, n2 := 1, expert := false, reset := 0x0, rw := 0xFFFFFF, wc := 0x0, ws := 0x0, wo := 0x0, clsB := 0x0, clsW := 0xFFFFFF, clsC := 0x0 } /- OUT_ADDR_HI -/,
  { off := 0x200, s1 := 0x8, n1 := 64, s2 := 0x0, n2 := 1, expert := false, reset := 0x0, rw := 0x3FFF, wc := 0x0, ws := 0x0, wo := 0x0, clsB := 0x0, clsW := 0x3FFF, clsC := 0x0 } /- MSIX -/ ]

/-- Registers of a `IXL` page beyond the header. -/
def rowsIxl : List RegRow := [
  { off := 0x40, s1 := 0x0, n1 := 1, s2 := 0x0, n2 := 1, expert := false, reset := 0x0, rw := 0x0, wc := 0x0, ws := 0x0, wo := 0x0, clsB := 0x0, clsW := 0x0, clsC := 0x1FFFFFF } /- ROLE -/,
  { off := 0x48, s1 := 0x0, n1 := 1, s2 := 0x0, n2 := 1, expert := false, reset := 0x0, rw := 0x7FFFF, wc := 0x0, ws := 0x0, wo := 0x0, clsB := 0x0, clsW := 0x0, clsC := 0x7FFFF } /- SITE -/,
  { off := 0x50, s1 := 0x0, n1 := 1, s2 := 0x0, n2 := 1, expert := false, reset := 0x1320A, rw := 0x1FFFF, wc := 0x0, ws := 0x0, wo := 0x0, clsB := 0x0, clsW := 0x0, clsC := 0x1FFFF } /- HB_CFG -/,
  { off := 0x58, s1 := 0x0, n1 := 1, s2 := 0x0, n2 := 1, expert := false, reset := 0x0, rw := 0x0, wc := 0x0, ws := 0x0, wo := 0x0, clsB := 0xFF, clsW := 0x0, clsC := 0x0 } /- LIVE -/,
  { off := 0x60, s1 := 0x0, n1 := 1, s2 := 0x0, n2 := 1, expert := false, reset := 0x1, rw := 0x0, wc := 0x0, ws := 0x0, wo := 0x0, clsB := 0x0, clsW := 0x0, clsC := 0xFFFFFFFFFF } /- JSN_NEXT -/,
  { off := 0x68, s1 := 0x0, n1 := 1, s2 := 0x0, n2 := 1, expert := false, reset := 0x0, rw := 0x0, wc := 0x0, ws := 0x0, wo := 0x0, clsB := 0x0, clsW := 0x0, clsC := 0xFFFFFFFFFF } /- JSN_HIGH -/,
  { off := 0x70, s1 := 0x0, n1 := 1, s2 := 0x0, n2 := 1, expert := false, reset := 0x14, rw := 0x1F, wc := 0x0, ws := 0x0, wo := 0x0, clsB := 0x0, clsW := 0x0, clsC := 0x1F } /- JSN_CFG -/,
  { off := 0x78, s1 := 0x0, n1 := 1, s2 := 0x0, n2 := 1, expert := false, reset := 0x0, rw := 0x0, wc := 0x0, ws := 0x1, wo := 0x0, clsB := 0x1, clsW := 0x0, clsC := 0x1FE } /- RT_CTRL -/,
  { off := 0x80, s1 := 0x0, n1 := 1, s2 := 0x0, n2 := 1, expert := false, reset := 0x0, rw := 0x0, wc := 0x0, ws := 0x0, wo := 0xF, clsB := 0xF, clsW := 0x0, clsC := 0x0 } /- HANDOVER -/,
  { off := 0x88, s1 := 0x0, n1 := 1, s2 := 0x0, n2 := 1, expert := false, reset := 0xFA0, rw := 0xFFFC, wc := 0x0, ws := 0x3, wo := 0x0, clsB := 0x3, clsW := 0x0, clsC := 0xFFFFFC } /- GCUT_CTRL -/,
  { off := 0x90, s1 := 0x0, n1 := 1, s2 := 0x0, n2 := 1, expert := false, reset := 0x0, rw := 0x0, wc := 0x0, ws := 0x0, wo := 0x0, clsB := 0x1FFFFFF, clsW := 0x0, clsC := 0x0 } /- GCUT_STATUS -/,
  { off := 0x98, s1 := 0x0, n1 := 1, s2 := 0x0, n2 := 1, expert := false, reset := 0x0, rw := 0xFFFFFFFF, wc := 0x0, ws := 0x0, wo := 0x0, clsB := 0x0, clsW := 0x0, clsC := 0xFFFFFFFF } /- REMOTE_KRR -/,
  { off := 0xA0, s1 := 0x0, n1 := 1, s2 := 0x0, n2 := 1, expert := false, reset := 0x0, rw := 0x3FF, wc := 0x0, ws := 0x0, wo := 0x0, clsB := 0x0, clsW := 0x0, clsC := 0x3FF } /- INBOUND -/,
  { off := 0xA8, s1 := 0x0, n1 := 1, s2 := 0x0, n2 := 1, expert := false, reset := 0x0, rw := 0x0, wc := 0x0, ws := 0x0, wo := 0x0, clsB := 0xFFFFFFFFFF, clsW := 0x0, clsC := 0x0 } /- DROPS -/,
  { off := 0xB0, s1 := 0x0, n1 := 1, s2 := 0x0, n2 := 1, expert := false, reset := 0x0, rw := 0x0, wc := 0x0, ws := 0x0, wo := 0x0, clsB := 0xFFFFFFFFFF, clsW := 0x0, clsC := 0x0 } /- FORWARD_ERR -/,
  { off := 0xC0, s1 := 0x8, n1 := 8, s2 := 0x0, n2 := 1, expert := false, reset := 0x0, rw := 0x0, wc := 0x0, ws := 0x0, wo := 0x0, clsB := 0xFFFFFFFFFF, clsW := 0x0, clsC := 0x0 } /- GCUT_B -/,
  { off := 0x100, s1 := 0x8, n1 := 8, s2 := 0x0, n2 := 1, expert := false, reset := 0x0, rw := 0x1F, wc := 0x0, ws := 0x0, wo := 0x0, clsB := 0x7E0, clsW := 0x0, clsC := 0x1F } /- RT_ENTRY -/ ]

/-- Registers of a `IXP` page beyond the header. -/
def rowsIxp : List RegRow := [
  { off := 0x40, s1 := 0x0, n1 := 1, s2 := 0x0, n2 := 1, expert := false, reset := 0x8, rw := 0xD, wc := 0x0, ws := 0x2, wo := 0x0, clsB := 0x2, clsW := 0xD, clsC := 0x0 } /- XCTRL -/,
  { off := 0x48, s1 := 0x0, n1 := 1, s2 := 0x0, n2 := 1, expert := false, reset := 0x0, rw := 0x0, wc := 0x0, ws := 0x0, wo := 0x0, clsB := 0xFFF, clsW := 0x0, clsC := 0x0 } /- XSTATUS -/,
  { off := 0x50, s1 := 0x0, n1 := 1, s2 := 0x0, n2 := 1, expert := false, reset := 0x0, rw := 0x0, wc := 0x0, ws := 0x0, wo := 0x0, clsB := 0xFFFF, clsW := 0x0, clsC := 0x0 } /- DELAY -/,
  { off := 0x58, s1 := 0x0, n1 := 1, s2 := 0x0, n2 := 1, expert := false, reset := 0x0, rw := 0x0, wc := 0x0, ws := 0x0, wo := 0x0, clsB := 0xFFFFFFFFFF, clsW := 0x0, clsC := 0x0 } /- CRC_ERRORS -/,
  { off := 0x60, s1 := 0x0, n1 := 1, s2 := 0x0, n2 := 1, expert := false, reset := 0x0, rw := 0x0, wc := 0x0, ws := 0x0, wo := 0x0, clsB := 0xFFFFFFFFFF, clsW := 0x0, clsC := 0x0 } /- REPLAYS -/,
  { off := 0x68, s1 := 0x0, n1 := 1, s2 := 0x0, n2 := 1, expert := false, reset := 0x0, rw := 0x0, wc := 0x0, ws := 0x0, wo := 0x0, clsB := 0xFFFFFFFFFF, clsW := 0x0, clsC := 0x0 } /- RECOVERIES -/ ]

/-- Registers of a `WRD` page beyond the header. -/
def rowsWrd : List RegRow := [
  { off := 0x40, s1 := 0x0, n1 := 1, s2 := 0x0, n2 := 1, expert := false, reset := 0x0, rw := 0xFFFFF, wc := 0x0, ws := 0x0, wo := 0x0, clsB := 0x0, clsW := 0x0, clsC := 0xFFFFF } /- WDOG_CFG -/,
  { off := 0x48, s1 := 0x0, n1 := 1, s2 := 0x0, n2 := 1, expert := false, reset := 0x0, rw := 0x0, wc := 0x0, ws := 0x0, wo := 0x1, clsB := 0x0, clsW := 0x1, clsC := 0x0 } /- WDOG_KICK -/,
  { off := 0x50, s1 := 0x0, n1 := 1, s2 := 0x0, n2 := 1, expert := false, reset := 0x0, rw := 0x0, wc := 0xF0, ws := 0x0, wo := 0x0, clsB := 0x0, clsW := 0xF, clsC := 0xF0 } /- WDOG_STATUS -/,
  { off := 0x58, s1 := 0x0, n1 := 1, s2 := 0x0, n2 := 1, expert := false, reset := 0x0, rw := 0xFFFFFFFFFF, wc := 0x0, ws := 0x0, wo := 0x0, clsB := 0x0, clsW := 0x0, clsC := 0xFFFFFFFFFF } /- WDOG_PC -/,
  { off := 0x60, s1 := 0x0, n1 := 1, s2 := 0x0, n2 := 1, expert := false, reset := 0x0, rw := 0xFFFF, wc := 0x0, ws := 0x0, wo := 0x0, clsB := 0xFFFF0000, clsW := 0x0, clsC := 0xFFFF } /- GRANT_EXPIRE -/ ]

/-- Registers of a `SEC` page beyond the header. -/
def rowsSec : List RegRow := [
  { off := 0x40, s1 := 0x0, n1 := 1, s2 := 0x0, n2 := 1, expert := false, reset := 0x0, rw := 0x0, wc := 0x0, ws := 0x0, wo := 0x0, clsB := 0x0, clsW := 0x0, clsC := 0x0 } /- DEV_ID_LO -/,
  { off := 0x48, s1 := 0x0, n1 := 1, s2 := 0x0, n2 := 1, expert := false, reset := 0x0, rw := 0x0, wc := 0x0, ws := 0x0, wo := 0x0, clsB := 0x0, clsW := 0x0, clsC := 0x0 } /- DEV_ID_HI -/,
  { off := 0x50, s1 := 0x0, n1 := 1, s2 := 0x0, n2 := 1, expert := false, reset := 0x0, rw := 0x0, wc := 0x0, ws := 0x0, wo := 0x0, clsB := 0x0, clsW := 0x0, clsC := 0x1B00 } /- BOOT_STATUS -/,
  { off := 0x58, s1 := 0x0, n1 := 1, s2 := 0x0, n2 := 1, expert := false, reset := 0x0, rw := 0x0, wc := 0x0, ws := 0x0, wo := 0x7, clsB := 0x0, clsW := 0x0, clsC := 0x7 } /- REVOKE -/,
  { off := 0x60, s1 := 0x0, n1 := 1, s2 := 0x0, n2 := 1, expert := false, reset := 0x0, rw := 0x0, wc := 0x0, ws := 0x0, wo := 0x0, clsB := 0x0, clsW := 0x0, clsC := 0x0 } /- DEFECT_LO -/,
  { off := 0x68, s1 := 0x0, n1 := 1, s2 := 0x0, n2 := 1, expert := false, reset := 0x0, rw := 0x0, wc := 0x0, ws := 0x0, wo := 0x0, clsB := 0x0, clsW := 0x0, clsC := 0x0 } /- DEFECT_HI -/,
  { off := 0x70, s1 := 0x0, n1 := 1, s2 := 0x0, n2 := 1, expert := false, reset := 0x0, rw := 0x0, wc := 0x0, ws := 0x0, wo := 0x0, clsB := 0xF, clsW := 0x0, clsC := 0xFFFFFFFF00 } /- RNG_STATUS -/,
  { off := 0x78, s1 := 0x0, n1 := 1, s2 := 0x0, n2 := 1, expert := false, reset := 0x0, rw := 0x0, wc := 0x0, ws := 0x1, wo := 0x0, clsB := 0x1, clsW := 0x0, clsC := 0x0 } /- RNG_CTRL -/,
  { off := 0x80, s1 := 0x10, n1 := 4, s2 := 0x0, n2 := 1, expert := false, reset := 0x0, rw := 0xFFFFFFFFC0, wc := 0x0, ws := 0x0, wo := 0x0, clsB := 0x0, clsW := 0xFFFFFFFFC0, clsC := 0x0 } /- JOB_ADDR -/,
  { off := 0x88, s1 := 0x10, n1 := 4, s2 := 0x0, n2 := 1, expert := false, reset := 0x0, rw := 0x1E0, wc := 0x0, ws := 0x1, wo := 0x0, clsB := 0x1F, clsW := 0x0, clsC := 0x1E0 } /- JOB_CTRL -/,
  { off := 0x800, s1 := 0x0, n1 := 1, s2 := 0x0, n2 := 1, expert := true, reset := 0x400, rw := 0xFFFF, wc := 0x0, ws := 0x0, wo := 0x0, clsB := 0x0, clsW := 0x0, clsC := 0xFFFF } /- RNG_RESEED -/,
  { off := 0x808, s1 := 0x0, n1 := 1, s2 := 0x0, n2 := 1, expert := true, reset := 0x0, rw := 0x0, wc := 0x0, ws := 0x0, wo := 0x0, clsB := 0x1FF, clsW := 0x0, clsC := 0x0 } /- RNG_NOISE -/ ]

/-- Registers of a `REC` page beyond the header. -/
def rowsRec : List RegRow := [
  { off := 0x40, s1 := 0x0, n1 := 1, s2 := 0x0, n2 := 1, expert := false, reset := 0x0, rw := 0x0, wc := 0x0, ws := 0x0, wo := 0x0, clsB := 0x0, clsW := 0x0, clsC := 0x0 } /- STATUS -/,
  { off := 0x48, s1 := 0x0, n1 := 1, s2 := 0x0, n2 := 1, expert := false, reset := 0x0, rw := 0x0, wc := 0x0, ws := 0x0, wo := 0x0, clsB := 0x0, clsW := 0x0, clsC := 0x0 } /- NEXT_SEQ -/,
  { off := 0x50, s1 := 0x0, n1 := 1, s2 := 0x0, n2 := 1, expert := false, reset := 0x0, rw := 0x0, wc := 0x0, ws := 0x0, wo := 0x0, clsB := 0x0, clsW := 0x0, clsC := 0x0 } /- GEN_HEAD -/,
  { off := 0x58, s1 := 0x0, n1 := 1, s2 := 0x0, n2 := 1, expert := false, reset := 0x0, rw := 0x0, wc := 0x0, ws := 0x0, wo := 0x0, clsB := 0x0, clsW := 0x0, clsC := 0x0 } /- COUNTS -/,
  { off := 0x60, s1 := 0x0, n1 := 1, s2 := 0x0, n2 := 1, expert := false, reset := 0x0, rw := 0x0, wc := 0x0, ws := 0x0, wo := 0x0, clsB := 0x0, clsW := 0x0, clsC := 0x0 } /- LOST -/,
  { off := 0x68, s1 := 0x0, n1 := 1, s2 := 0x0, n2 := 1, expert := false, reset := 0x0, rw := 0x0, wc := 0x0, ws := 0x0, wo := 0x0, clsB := 0x0, clsW := 0x0, clsC := 0x0 } /- OPTIME -/,
  { off := 0x70, s1 := 0x0, n1 := 1, s2 := 0x0, n2 := 1, expert := false, reset := 0x0, rw := 0x0, wc := 0x0, ws := 0x0, wo := 0x0, clsB := 0x0, clsW := 0x0, clsC := 0x0 } /- PCYCLES -/,
  { off := 0x78, s1 := 0x0, n1 := 1, s2 := 0x0, n2 := 1, expert := false, reset := 0x0, rw := 0xFFFF, wc := 0x0, ws := 0x0, wo := 0x0, clsB := 0x0, clsW := 0xFFFF, clsC := 0x0 } /- RD_SLOT -/,
  { off := 0x80, s1 := 0x8, n1 := 8, s2 := 0x0, n2 := 1, expert := false, reset := 0x0, rw := 0x0, wc := 0x0, ws := 0x0, wo := 0x0, clsB := 0x0, clsW := 0xFFFFFFFFFF, clsC := 0x0 } /- RD_W -/,
  { off := 0xC0, s1 := 0x0, n1 := 1, s2 := 0x0, n2 := 1, expert := false, reset := 0x0, rw := 0xFFFFF, wc := 0x0, ws := 0x0, wo := 0x0, clsB := 0x0, clsW := 0xFFFFF, clsC := 0x0 } /- SW_CODE -/,
  { off := 0xC8, s1 := 0x0, n1 := 1, s2 := 0x0, n2 := 1, expert := false, reset := 0x0, rw := 0xFFFFFFFFFF, wc := 0x0, ws := 0x0, wo := 0x0, clsB := 0x0, clsW := 0xFFFFFFFFFF, clsC := 0x0 } /- SW_P0 -/,
  { off := 0xD0, s1 := 0x0, n1 := 1, s2 := 0x0, n2 := 1, expert := false, reset := 0x0, rw := 0xFFFFFFFFFF, wc := 0x0, ws := 0x0, wo := 0x0, clsB := 0x0, clsW := 0xFFFFFFFFFF, clsC := 0x0 } /- SW_P1 -/,
  { off := 0xD8, s1 := 0x0, n1 := 1, s2 := 0x0, n2 := 1, expert := false, reset := 0x0, rw := 0xFFFFFFFFFF, wc := 0x0, ws := 0x0, wo := 0x0, clsB := 0x0, clsW := 0xFFFFFFFFFF, clsC := 0x0 } /- SW_P2 -/,
  { off := 0xE0, s1 := 0x0, n1 := 1, s2 := 0x0, n2 := 1, expert := false, reset := 0x0, rw := 0x0, wc := 0x0, ws := 0x1, wo := 0x0, clsB := 0x0, clsW := 0x1, clsC := 0x0 } /- SW_CTRL -/,
  { off := 0xE8, s1 := 0x0, n1 := 1, s2 := 0x0, n2 := 1, expert := false, reset := 0x0, rw := 0x0, wc := 0x0, ws := 0x0, wo := 0x0, clsB := 0x0, clsW := 0x0, clsC := 0xFFFFFFFFFF } /- NONCE -/,
  { off := 0xF0, s1 := 0x0, n1 := 1, s2 := 0x0, n2 := 1, expert := false, reset := 0x0, rw := 0x3F, wc := 0x0, ws := 0x0, wo := 0x0, clsB := 0x0, clsW := 0x0, clsC := 0x3F } /- CLEAR_CFG -/,
  { off := 0xF8, s1 := 0x0, n1 := 1, s2 := 0x0, n2 := 1, expert := false, reset := 0x0, rw := 0xFFFFFFFFFF, wc := 0x0, ws := 0x0, wo := 0x0, clsB := 0x0, clsW := 0xFFFFFFFFFF, clsC := 0x0 } /- CLEAR_ADDR -/,
  { off := 0x100, s1 := 0x0, n1 := 1, s2 := 0x0, n2 := 1, expert := false, reset := 0x0, rw := 0x0, wc := 0x0, ws := 0x1, wo := 0x0, clsB := 0x1, clsW := 0x0, clsC := 0x0 } /- CLEAR_CTRL -/,
  { off := 0x108, s1 := 0x0, n1 := 1, s2 := 0x0, n2 := 1, expert := false, reset := 0x0, rw := 0x0, wc := 0x0, ws := 0x0, wo := 0x0, clsB := 0x1F, clsW := 0x0, clsC := 0x0 } /- CLEAR_STATUS -/,
  { off := 0x110, s1 := 0x0, n1 := 1, s2 := 0x0, n2 := 1, expert := false, reset := 0x4, rw := 0x7, wc := 0x0, ws := 0x0, wo := 0x0, clsB := 0x0, clsW := 0x0, clsC := 0x7 } /- ALERT -/ ]

/-- Registers of a `GOV` page beyond the header. -/
def rowsGov : List RegRow := [
  { off := 0x40, s1 := 0x0, n1 := 1, s2 := 0x0, n2 := 1, expert := false, reset := 0x0, rw := 0x4, wc := 0x0, ws := 0x3, wo := 0x0, clsB := 0x3, clsW := 0x0, clsC := 0x4 } /- UPD_CTRL -/,
  { off := 0x48, s1 := 0x0, n1 := 1, s2 := 0x0, n2 := 1, expert := false, reset := 0x0, rw := 0x0, wc := 0x0, ws := 0x0, wo := 0x0, clsB := 0x0, clsW := 0x0, clsC := 0x7FFF } /- UPD_STATUS -/,
  { off := 0x50, s1 := 0x0, n1 := 1, s2 := 0x0, n2 := 1, expert := false, reset := 0x3C, rw := 0xFFFF, wc := 0x0, ws := 0x0, wo := 0x0, clsB := 0x0, clsW := 0x0, clsC := 0xFFFF } /- UPD_TIMEOUT -/ ]

/-- Registers of a `GPWR` page beyond the header. -/
def rowsGpwr : List RegRow := [
  { off := 0x40, s1 := 0x0, n1 := 1, s2 := 0x0, n2 := 1, expert := false, reset := 0x1, rw := 0x3, wc := 0x0, ws := 0x4, wo := 0x0, clsB := 0x4, clsW := 0x0, clsC := 0x3 } /- GCTRL -/,
  { off := 0x48, s1 := 0x0, n1 := 1, s2 := 0x0, n2 := 1, expert := false, reset := 0x0, rw := 0x0, wc := 0x0, ws := 0x0, wo := 0x0, clsB := 0xFFFFFFFFFF, clsW := 0x0, clsC := 0x0 } /- GSTATUS -/,
  { off := 0x50, s1 := 0x0, n1 := 1, s2 := 0x0, n2 := 1, expert := false, reset := 0x0, rw := 0x0, wc := 0x0, ws := 0x0, wo := 0x0, clsB := 0xFFFFFFFFFF, clsW := 0x0, clsC := 0x0 } /- SUGGEST -/,
  { off := 0x60, s1 := 0x0, n1 := 1, s2 := 0x0, n2 := 1, expert := false, reset := 0xEA60, rw := 0x1FFFF, wc := 0x0, ws := 0x0, wo := 0x0, clsB := 0x0, clsW := 0x0, clsC := 0x1FFFF } /- BUDGET -/,
  { off := 0x68, s1 := 0x0, n1 := 1, s2 := 0x0, n2 := 1, expert := false, reset := 0x0, rw := 0x0, wc := 0x0, ws := 0x0, wo := 0x0, clsB := 0xFFFFFFFFFF, clsW := 0x0, clsC := 0x0 } /- POWER_NOW -/,
  { off := 0x70, s1 := 0x0, n1 := 1, s2 := 0x0, n2 := 1, expert := false, reset := 0x0, rw := 0x0, wc := 0x0, ws := 0x0, wo := 0x0, clsB := 0x1FFFFF, clsW := 0x0, clsC := 0x0 } /- TEMP -/,
  { off := 0x78, s1 := 0x0, n1 := 1, s2 := 0x0, n2 := 1, expert := false, reset := 0x5A, rw := 0xFF, wc := 0x0, ws := 0x0, wo := 0x0, clsB := 0x0, clsW := 0x0, clsC := 0xFF } /- TJ_LIMIT -/,
  { off := 0x80, s1 := 0x0, n1 := 1, s2 := 0x0, n2 := 1, expert := false, reset := 0xBB8, rw := 0xFFFF, wc := 0x0, ws := 0x0, wo := 0x0, clsB := 0x0, clsW := 0x0, clsC := 0xFFFF } /- HYST -/,
  { off := 0x88, s1 := 0x0, n1 := 1, s2 := 0x0, n2 := 1, expert := false, reset := 0x0, rw := 0xFFFFFF, wc := 0x0, ws := 0x0, wo := 0x0, clsB := 0x0, clsW := 0x0, clsC := 0xFFFFFF } /- CLU_PRIO -/,
  { off := 0x90, s1 := 0x0, n1 := 1, s2 := 0x0, n2 := 1, expert := false, reset := 0xCCCCCCCC, rw := 0xFFFFFFFF, wc := 0x0, ws := 0x0, wo := 0x0, clsB := 0x0, clsW := 0x0, clsC := 0xFFFFFFFF } /- CLU_LIMITS -/,
  { off := 0x98, s1 := 0x0, n1 := 1, s2 := 0x0, n2 := 1, expert := false, reset := 0x0, rw := 0xFF, wc := 0x0, ws := 0x0, wo := 0x0, clsB := 0x0, clsW := 0x0, clsC := 0xFF } /- PMB_CFG -/,
  { off := 0x800, s1 := 0x0, n1 := 1, s2 := 0x0, n2 := 1, expert := true, reset := 0xB42E4BE320, rw := 0xFFFFFFFFFF, wc := 0x0, ws := 0x0, wo := 0x0, clsB := 0x0, clsW := 0x0, clsC := 0xFFFFFFFFFF } /- VDD_TABLE -/ ]

/-- Registers of a `GHEA` page beyond the header. -/
def rowsGhea : List RegRow := [
  { off := 0x40, s1 := 0x0, n1 := 1, s2 := 0x0, n2 := 1, expert := false, reset := 0x1, rw := 0x3, wc := 0x0, ws := 0x4, wo := 0x0, clsB := 0x4, clsW := 0x0, clsC := 0x3 } /- GCTRL -/,
  { off := 0x48, s1 := 0x0, n1 := 1, s2 := 0x0, n2 := 1, expert := false, reset := 0x0, rw := 0x0, wc := 0x0, ws := 0x0, wo := 0x0, clsB := 0xFFFFFFFFFF, clsW := 0x0, clsC := 0x0 } /- GSTATUS -/,
  { off := 0x50, s1 := 0x0, n1 := 1, s2 := 0x0, n2 := 1, expert := false, reset := 0x0, rw := 0x0, wc := 0x0, ws := 0x0, wo := 0x0, clsB := 0xFFFFFFFFFF, clsW := 0x0, clsC := 0x0 } /- SUGGEST -/,
  { off := 0x60, s1 := 0x0, n1 := 1, s2 := 0x0, n2 := 1, expert := false, reset := 0x180020, rw := 0xFFFFFF, wc := 0x0, ws := 0x0, wo := 0x0, clsB := 0x0, clsW := 0x0, clsC := 0xFFFFFF } /- CORE_THRESH -/,
  { off := 0x68, s1 := 0x0, n1 := 1, s2 := 0x0, n2 := 1, expert := false, reset := 0x4B1, rw := 0x1FFFF, wc := 0x0, ws := 0x0, wo := 0x0, clsB := 0x0, clsW := 0x0, clsC := 0x1FFFF } /- COMET_CFG -/,
  { off := 0x70, s1 := 0x0, n1 := 1, s2 := 0x0, n2 := 1, expert := false, reset := 0x0, rw := 0x0, wc := 0x0, ws := 0x1FF, wo := 0x0, clsB := 0x1FF, clsW := 0x0, clsC := 0x0 } /- COMET_CTRL -/,
  { off := 0x78, s1 := 0x0, n1 := 1, s2 := 0x0, n2 := 1, expert := false, reset := 0x0, rw := 0x0, wc := 0x0, ws := 0x0, wo := 0x0, clsB := 0xFFFFFFFFFF, clsW := 0x0, clsC := 0x0 } /- COMET_STATUS -/,
  { off := 0x80, s1 := 0x0, n1 := 1, s2 := 0x0, n2 := 1, expert := false, reset := 0x0, rw := 0x0, wc := 0x0, ws := 0x0, wo := 0x0, clsB := 0x0, clsW := 0x0, clsC := 0xFFFFFFFFF } /- FAILED_LO -/,
  { off := 0x88, s1 := 0x0, n1 := 1, s2 := 0x0, n2 := 1, expert := false, reset := 0x0, rw := 0x0, wc := 0x0, ws := 0x0, wo := 0x0, clsB := 0x0, clsW := 0x0, clsC := 0xFFFFFFFFF } /- FAILED_HI -/,
  { off := 0x90, s1 := 0x0, n1 := 1, s2 := 0x0, n2 := 1, expert := false, reset := 0x0, rw := 0x0, wc := 0x0, ws := 0x0, wo := 0x0, clsB := 0x7FFFFFFFFF, clsW := 0x0, clsC := 0x0 } /- RETIRE_REQ -/,
  { off := 0x98, s1 := 0x0, n1 := 1, s2 := 0x0, n2 := 1, expert := false, reset := 0x0, rw := 0x0, wc := 0x0, ws := 0x3FFFFFFF, wo := 0x0, clsB := 0x3FFFFFFF, clsW := 0x0, clsC := 0x0 } /- RETIRE_CTRL -/,
  { off := 0xA0, s1 := 0x0, n1 := 1, s2 := 0x0, n2 := 1, expert := false, reset := 0xA, rw := 0xFFF, wc := 0x0, ws := 0x0, wo := 0x0, clsB := 0x0, clsW := 0x0, clsC := 0xFFF } /- RETIRE_GRACE -/,
  { off := 0xA8, s1 := 0x0, n1 := 1, s2 := 0x0, n2 := 1, expert := false, reset := 0x4, rw := 0xFF, wc := 0x0, ws := 0x0, wo := 0x0, clsB := 0x0, clsW := 0x0, clsC := 0xFF } /- FRAME_THRESH -/,
  { off := 0xB0, s1 := 0x0, n1 := 1, s2 := 0x0, n2 := 1, expert := false, reset := 0x0, rw := 0x0, wc := 0x0, ws := 0x0, wo := 0x0, clsB := 0x0, clsW := 0x0, clsC := 0x0 } /- LIST_COUNT -/,
  { off := 0xB8, s1 := 0x0, n1 := 1, s2 := 0x0, n2 := 1, expert := false, reset := 0x0, rw := 0xFF, wc := 0x0, ws := 0x0, wo := 0x0, clsB := 0x0, clsW := 0xFF, clsC := 0x0 } /- LIST_SEL -/,
  { off := 0xC0, s1 := 0x0, n1 := 1, s2 := 0x0, n2 := 1, expert := false, reset := 0x0, rw := 0x0, wc := 0x0, ws := 0x0, wo := 0x0, clsB := 0x0, clsW := 0x0, clsC := 0x0 } /- LIST_READ -/,
  { off := 0xC8, s1 := 0x0, n1 := 1, s2 := 0x0, n2 := 1, expert := false, reset := 0x118, rw := 0x1FF, wc := 0x0, ws := 0x0, wo := 0x0, clsB := 0x0, clsW := 0x0, clsC := 0x1FF } /- SCRUB_CFG -/,
  { off := 0xD0, s1 := 0x0, n1 := 1, s2 := 0x0, n2 := 1, expert := false, reset := 0x0, rw := 0x0, wc := 0x0, ws := 0x1, wo := 0x0, clsB := 0x1, clsW := 0x0, clsC := 0x0 } /- LIST_CLEAR -/ ]

/-- Registers of a `CPR` page beyond the header. -/
def rowsCpr : List RegRow := [
  { off := 0x40, s1 := 0x0, n1 := 1, s2 := 0x0, n2 := 1, expert := false, reset := 0x0, rw := 0x0, wc := 0x0, ws := 0x0, wo := 0x0, clsB := 0x0, clsW := 0x0, clsC := 0x3F } /- STRAPS -/,
  { off := 0x48, s1 := 0x0, n1 := 1, s2 := 0x0, n2 := 1, expert := false, reset := 0x0, rw := 0x0, wc := 0x0, ws := 0x0, wo := 0x0, clsB := 0x0, clsW := 0x3F, clsC := 0x0 } /- CLK_STATUS -/,
  { off := 0x50, s1 := 0x0, n1 := 1, s2 := 0x0, n2 := 1, expert := false, reset := 0xFFFFF, rw := 0xFFFFF, wc := 0x0, ws := 0x0, wo := 0x0, clsB := 0x0, clsW := 0x0, clsC := 0xFFFFF } /- PD_CTRL -/,
  { off := 0x58, s1 := 0x0, n1 := 1, s2 := 0x0, n2 := 1, expert := false, reset := 0x0, rw := 0x0, wc := 0x0, ws := 0x0, wo := 0x0, clsB := 0x0, clsW := 0xFFFFF, clsC := 0x0 } /- PD_STATUS -/,
  { off := 0x60, s1 := 0x0, n1 := 1, s2 := 0x0, n2 := 1, expert := false, reset := 0x0, rw := 0x0, wc := 0x0, ws := 0x0, wo := 0x0, clsB := 0x0, clsW := 0x0, clsC := 0x0 } /- RST_CAUSE -/,
  { off := 0x68, s1 := 0x0, n1 := 1, s2 := 0x0, n2 := 1, expert := false, reset := 0x0, rw := 0x0, wc := 0x0, ws := 0x0, wo := 0x1, clsB := 0x0, clsW := 0x1, clsC := 0x0 } /- RST_CTRL -/,
  { off := 0x70, s1 := 0x0, n1 := 1, s2 := 0x0, n2 := 1, expert := false, reset := 0x0, rw := 0x0, wc := 0x0, ws := 0x0, wo := 0x0, clsB := 0x0, clsW := 0x1, clsC := 0x0 } /- PFAIL -/,
  { off := 0x78, s1 := 0x0, n1 := 1, s2 := 0x0, n2 := 1, expert := false, reset := 0x0, rw := 0x0, wc := 0x0, ws := 0x0, wo := 0x0, clsB := 0x0, clsW := 0xFFFFF, clsC := 0x0 } /- BOOT_TIME -/ ]

/-- Registers of a `CST` page beyond the header. -/
def rowsCst : List RegRow := [
  { off := 0x40, s1 := 0x0, n1 := 1, s2 := 0x0, n2 := 1, expert := false, reset := 0x0, rw := 0xFFFFFFFFFF, wc := 0x0, ws := 0x0, wo := 0x0, clsB := 0x0, clsW := 0xFFFFFFFFFF, clsC := 0x0 } /- WR_SRC -/,
  { off := 0x48, s1 := 0x0, n1 := 1, s2 := 0x0, n2 := 1, expert := false, reset := 0x0, rw := 0x1FFFFFF, wc := 0x0, ws := 0x0, wo := 0x0, clsB := 0x0, clsW := 0x1FFFFFF, clsC := 0x0 } /- WR_DST -/,
  { off := 0x50, s1 := 0x0, n1 := 1, s2 := 0x0, n2 := 1, expert := false, reset := 0x0, rw := 0x1FFFFFF, wc := 0x0, ws := 0x0, wo := 0x0, clsB := 0x0, clsW := 0x1FFFFFF, clsC := 0x0 } /- WR_LEN -/,
  { off := 0x58, s1 := 0x0, n1 := 1, s2 := 0x0, n2 := 1, expert := false, reset := 0x0, rw := 0xC, wc := 0x0, ws := 0x3, wo := 0x0, clsB := 0x3, clsW := 0xC, clsC := 0x0 } /- WR_CTRL -/,
  { off := 0x60, s1 := 0x0, n1 := 1, s2 := 0x0, n2 := 1, expert := false, reset := 0x0, rw := 0x0, wc := 0x0, ws := 0x0, wo := 0x0, clsB := 0xF, clsW := 0x0, clsC := 0x0 } /- WR_STATUS -/,
  { off := 0x68, s1 := 0x0, n1 := 1, s2 := 0x0, n2 := 1, expert := false, reset := 0x0, rw := 0x0, wc := 0x0, ws := 0x0, wo := 0x0, clsB := 0x0, clsW := 0x0, clsC := 0x6 } /- HALFA_STATUS -/,
  { off := 0x70, s1 := 0x0, n1 := 1, s2 := 0x0, n2 := 1, expert := false, reset := 0x0, rw := 0x0, wc := 0x0, ws := 0x0, wo := 0x0, clsB := 0x0, clsW := 0x0, clsC := 0x6 } /- HALFB_STATUS -/,
  { off := 0x78, s1 := 0x0, n1 := 1, s2 := 0x0, n2 := 1, expert := false, reset := 0x0, rw := 0x0, wc := 0x0, ws := 0x0, wo := 0x0, clsB := 0x0, clsW := 0x0, clsC := 0xFFFFF } /- BOOT_STATUS -/ ]

/-- Registers of a `DBG` page beyond the header. -/
def rowsDbg : List RegRow := [
  { off := 0x40, s1 := 0x0, n1 := 1, s2 := 0x0, n2 := 1, expert := false, reset := 0x3, rw := 0x3FFFFF, wc := 0x0, ws := 0x0, wo := 0x0, clsB := 0x0, clsW := 0x0, clsC := 0x3FFFFF } /- ECL_CFG -/,
  { off := 0x48, s1 := 0x0, n1 := 1, s2 := 0x0, n2 := 1, expert := false, reset := 0x0, rw := 0x0, wc := 0x0, ws := 0x3F, wo := 0x0, clsB := 0x0, clsW := 0x0, clsC := 0x3F } /- ECL_CTRL -/,
  { off := 0x50, s1 := 0x0, n1 := 1, s2 := 0x0, n2 := 1, expert := false, reset := 0x0, rw := 0x0, wc := 0x0, ws := 0x0, wo := 0x0, clsB := 0x0, clsW := 0x0, clsC := 0xFFFF0001FF } /- ECL_STATUS -/,
  { off := 0x58, s1 := 0x0, n1 := 1, s2 := 0x0, n2 := 1, expert := false, reset := 0x0, rw := 0x3, wc := 0x0, ws := 0x0, wo := 0x0, clsB := 0x0, clsW := 0x0, clsC := 0x3 } /- AUTH -/,
  { off := 0x60, s1 := 0x0, n1 := 1, s2 := 0x0, n2 := 1, expert := false, reset := 0x1, rw := 0x7, wc := 0x0, ws := 0x0, wo := 0x0, clsB := 0x0, clsW := 0x0, clsC := 0x7 } /- DUMP_SEL -/,
  { off := 0x68, s1 := 0x0, n1 := 1, s2 := 0x0, n2 := 1, expert := false, reset := 0x0, rw := 0xFFFFFFFFFF, wc := 0x0, ws := 0x0, wo := 0x0, clsB := 0xFFFFFFFFFF, clsW := 0x0, clsC := 0x0 } /- PDUMP_PTR -/,
  { off := 0x70, s1 := 0x0, n1 := 1, s2 := 0x0, n2 := 1, expert := false, reset := 0x0, rw := 0x0, wc := 0x0, ws := 0x0, wo := 0x0, clsB := 0x0, clsW := 0x0, clsC := 0x0 } /- PDUMP_DATA -/,
  { off := 0x78, s1 := 0x0, n1 := 1, s2 := 0x0, n2 := 1, expert := false, reset := 0x0, rw := 0x0, wc := 0x0, ws := 0x0, wo := 0x1FFF, clsB := 0x0, clsW := 0x1FFF, clsC := 0x0 } /- SKIP -/,
  { off := 0x100, s1 := 0x10, n1 := 8, s2 := 0x0, n2 := 1, expert := false, reset := 0x0, rw := 0xFFFFFFFFFF, wc := 0x0, ws := 0x0, wo := 0x0, clsB := 0x0, clsW := 0xFFFFFFFFFF, clsC := 0x0 } /- BP_ADDR -/,
  { off := 0x108, s1 := 0x10, n1 := 8, s2 := 0x0, n2 := 1, expert := false, reset := 0x0, rw := 0xFFFFFFF, wc := 0x0, ws := 0x0, wo := 0x0, clsB := 0x0, clsW := 0xFFFFFFFFFF, clsC := 0x0 } /- BP_CFG -/,
  { off := 0x200, s1 := 0x18, n1 := 8, s2 := 0x0, n2 := 1, expert := false, reset := 0x0, rw := 0xFFFFFFFFFF, wc := 0x0, ws := 0x0, wo := 0x0, clsB := 0x0, clsW := 0xFFFFFFFFFF, clsC := 0x0 } /- WP_ADDR -/,
  { off := 0x208, s1 := 0x18, n1 := 8, s2 := 0x0, n2 := 1, expert := false, reset := 0x0, rw := 0x1FFFFFFFFF, wc := 0x0, ws := 0x0, wo := 0x0, clsB := 0x0, clsW := 0x1FFFFFFFFF, clsC := 0x0 } /- WP_LEN -/,
  { off := 0x210, s1 := 0x18, n1 := 8, s2 := 0x0, n2 := 1, expert := false, reset := 0x0, rw := 0x3FFFFFFF, wc := 0x0, ws := 0x0, wo := 0x0, clsB := 0x0, clsW := 0xFFFFFFFFFF, clsC := 0x0 } /- WP_CFG -/,
  { off := 0x300, s1 := 0x0, n1 := 1, s2 := 0x0, n2 := 1, expert := false, reset := 0x0, rw := 0xFFFFFFF000, wc := 0x0, ws := 0x0, wo := 0x0, clsB := 0x0, clsW := 0xFFFFFFF000, clsC := 0x0 } /- TR_BASE -/,
  { off := 0x308, s1 := 0x0, n1 := 1, s2 := 0x0, n2 := 1, expert := false, reset := 0x0, rw := 0x1F, wc := 0x0, ws := 0x0, wo := 0x0, clsB := 0x0, clsW := 0x1F, clsC := 0x0 } /- TR_SIZE -/,
  { off := 0x310, s1 := 0x0, n1 := 1, s2 := 0x0, n2 := 1, expert := false, reset := 0x0, rw := 0xFFFFFFF, wc := 0x0, ws := 0x0, wo := 0x0, clsB := 0x0, clsW := 0xFFFFFFF, clsC := 0x0 } /- TR_CTRL -/,
  { off := 0x318, s1 := 0x0, n1 := 1, s2 := 0x0, n2 := 1, expert := false, reset := 0x0, rw := 0x7FF, wc := 0x0, ws := 0x0, wo := 0x0, clsB := 0x0, clsW := 0x7FF, clsC := 0x0 } /- TR_FILT -/,
  { off := 0x320, s1 := 0x0, n1 := 1, s2 := 0x0, n2 := 1, expert := false, reset := 0x0, rw := 0x0, wc := 0x0, ws := 0x0, wo := 0x0, clsB := 0x0, clsW := 0xFFFFFFFFFF, clsC := 0x0 } /- TR_PTR -/,
  { off := 0x328, s1 := 0x0, n1 := 1, s2 := 0x0, n2 := 1, expert := false, reset := 0x0, rw := 0x0, wc := 0x0, ws := 0x0, wo := 0x0, clsB := 0x0, clsW := 0xFFFFFFFF01, clsC := 0x0 } /- TR_STATUS -/,
  { off := 0x400, s1 := 0x10, n1 := 16, s2 := 0x0, n2 := 1, expert := false, reset := 0x0, rw := 0x7FFFF, wc := 0x0, ws := 0x0, wo := 0x0, clsB := 0x0, clsW := 0x7FFFF, clsC := 0x0 } /- PMC_SEL -/,
  { off := 0x408, s1 := 0x10, n1 := 16, s2 := 0x0, n2 := 1, expert := false, reset := 0x0, rw := 0xFFFFFFFFFF, wc := 0x0, ws := 0x0, wo := 0x0, clsB := 0x0, clsW := 0xFFFFFFFFFF, clsC := 0x0 } /- PMC_COUNT -/ ]

/-- Registers of a `GPIO` page beyond the header. -/
def rowsGpio : List RegRow := [
  { off := 0x40, s1 := 0x8, n1 := 192, s2 := 0x0, n2 := 1, expert := false, reset := 0x0, rw := 0x7FFEFEEF, wc := 0x100, ws := 0x0, wo := 0x0, clsB := 0x0, clsW := 0x7FFFFFFF, clsC := 0x0 } /- GP -/,
  { off := 0x700, s1 := 0x0, n1 := 1, s2 := 0x0, n2 := 1, expert := false, reset := 0x0, rw := 0x0, wc := 0x0, ws := 0x0, wo := 0x0, clsB := 0x0, clsW := 0x0, clsC := 0xFFFFFF } /- GP_BANK -/ ]

/-- Registers of a `TIMER` page beyond the header. -/
def rowsTimer : List RegRow := [
  { off := 0x40, s1 := 0x18, n1 := 64, s2 := 0x0, n2 := 1, expert := false, reset := 0x0, rw := 0x1FFFBFFF, wc := 0x0, ws := 0x4000, wo := 0x0, clsB := 0x4000, clsW := 0x1FFFBFFF, clsC := 0x0 } /- TM_CFG -/,
  { off := 0x48, s1 := 0x18, n1 := 64, s2 := 0x0, n2 := 1, expert := false, reset := 0x0, rw := 0xFFFFFFFFFF, wc := 0x0, ws := 0x0, wo := 0x0, clsB := 0x0, clsW := 0xFFFFFFFFFF, clsC := 0x0 } /- TM_PERIOD -/,
  { off := 0x50, s1 := 0x18, n1 := 64, s2 := 0x0, n2 := 1, expert := false, reset := 0x0, rw := 0xFFFFFFFFFF, wc := 0x0, ws := 0x0, wo := 0x0, clsB := 0x0, clsW := 0xFFFFFFFFFF, clsC := 0x0 } /- TM_MATCH -/,
  { off := 0x700, s1 := 0x0, n1 := 1, s2 := 0x0, n2 := 1, expert := false, reset := 0x0, rw := 0x0, wc := 0xFFFFFFFFFF, ws := 0x0, wo := 0x0, clsB := 0x0, clsW := 0xFFFFFFFFFF, clsC := 0x0 } /- TM_FLAG0 -/,
  { off := 0x708, s1 := 0x0, n1 := 1, s2 := 0x0, n2 := 1, expert := false, reset := 0x0, rw := 0x0, wc := 0xFFFFFF, ws := 0x0, wo := 0x0, clsB := 0x0, clsW := 0xFFFFFF, clsC := 0x0 } /- TM_FLAG1 -/ ]

/-- Registers of a `PROFP` page beyond the header. -/
def rowsProf : List RegRow := [
  { off := 0x40, s1 := 0x40, n1 := 16, s2 := 0x0, n2 := 1, expert := false, reset := 0x0, rw := 0x1FFFFFF, wc := 0x0, ws := 0x0, wo := 0x0, clsB := 0x0, clsW := 0x1FFFFFF, clsC := 0x0 } /- FRAME -/,
  { off := 0x48, s1 := 0x40, n1 := 16, s2 := 0x0, n2 := 1, expert := false, reset := 0x0, rw := 0xFFFFFFFF, wc := 0x0, ws := 0x0, wo := 0x0, clsB := 0x0, clsW := 0xFFFFFFFF, clsC := 0x0 } /- PREFIX -/,
  { off := 0x50, s1 := 0x40, n1 := 16, s2 := 0x0, n2 := 1, expert := false, reset := 0x0, rw := 0xFFFFFFFF, wc := 0x0, ws := 0x0, wo := 0x0, clsB := 0x0, clsW := 0xFFFFFFFF, clsC := 0x0 } /- SUFFIX -/,
  { off := 0x58, s1 := 0x40, n1 := 16, s2 := 0x0, n2 := 1, expert := false, reset := 0x0, rw := 0x3FF, wc := 0x0, ws := 0x0, wo := 0x0, clsB := 0x0, clsW := 0x3FF, clsC := 0x0 } /- CHECK -/,
  { off := 0x60, s1 := 0x40, n1 := 16, s2 := 0x0, n2 := 1, expert := false, reset := 0x0, rw := 0x1FFFFFFF, wc := 0x0, ws := 0x0, wo := 0x0, clsB := 0x0, clsW := 0x1FFFFFFF, clsC := 0x0 } /- LIMITS -/ ]

/-- Registers of a `VAULT` page beyond the header. -/
def rowsVault : List RegRow := [
  { off := 0x40, s1 := 0x8, n1 := 64, s2 := 0x0, n2 := 1, expert := false, reset := 0x0, rw := 0x7F7, wc := 0x0, ws := 0x0, wo := 0x0, clsB := 0x2000, clsW := 0x0, clsC := 0x0 } /- SLOT_ATTR -/ ]

/-- Registers of a `GWEA` page beyond the header. -/
def rowsGwea : List RegRow := [
  { off := 0x40, s1 := 0x0, n1 := 1, s2 := 0x0, n2 := 1, expert := false, reset := 0x1, rw := 0x3, wc := 0x0, ws := 0x4, wo := 0x0, clsB := 0x4, clsW := 0x0, clsC := 0x3 } /- GCTRL -/,
  { off := 0x48, s1 := 0x0, n1 := 1, s2 := 0x0, n2 := 1, expert := false, reset := 0x0, rw := 0x0, wc := 0x0, ws := 0x0, wo := 0x0, clsB := 0xFFFFFFFFFF, clsW := 0x0, clsC := 0x0 } /- GSTATUS -/,
  { off := 0x50, s1 := 0x0, n1 := 1, s2 := 0x0, n2 := 1, expert := false, reset := 0x0, rw := 0x0, wc := 0x0, ws := 0x0, wo := 0x0, clsB := 0xFFFFFFFFFF, clsW := 0x0, clsC := 0x0 } /- SUGGEST -/,
  { off := 0x60, s1 := 0x0, n1 := 1, s2 := 0x0, n2 := 1, expert := false, reset := 0x1E, rw := 0x3FF, wc := 0x0, ws := 0x0, wo := 0x0, clsB := 0x0, clsW := 0x0, clsC := 0x3FF } /- ROLL_DAYS -/,
  { off := 0x68, s1 := 0x8, n1 := 2, s2 := 0x0, n2 := 1, expert := false, reset := 0x0, rw := 0x0, wc := 0x0, ws := 0x0, wo := 0x0, clsB := 0xFFFFFFFFFF, clsW := 0x0, clsC := 0x0 } /- PROJ -/,
  { off := 0x78, s1 := 0x0, n1 := 1, s2 := 0x0, n2 := 1, expert := false, reset := 0x7, rw := 0x3F, wc := 0x0, ws := 0x0, wo := 0x0, clsB := 0x0, clsW := 0x0, clsC := 0x3F } /- RATE_DAYS -/ ]

/-- Registers of a `GFIL` page beyond the header. -/
def rowsGfil : List RegRow := [
  { off := 0x40, s1 := 0x0, n1 := 1, s2 := 0x0, n2 := 1, expert := false, reset := 0x1, rw := 0x3, wc := 0x0, ws := 0x4, wo := 0x0, clsB := 0x4, clsW := 0x0, clsC := 0x3 } /- GCTRL -/,
  { off := 0x48, s1 := 0x0, n1 := 1, s2 := 0x0, n2 := 1, expert := false, reset := 0x0, rw := 0x0, wc := 0x0, ws := 0x0, wo := 0x0, clsB := 0xFFFFFFFFFF, clsW := 0x0, clsC := 0x0 } /- GSTATUS -/,
  { off := 0x50, s1 := 0x0, n1 := 1, s2 := 0x0, n2 := 1, expert := false, reset := 0x0, rw := 0x0, wc := 0x0, ws := 0x0, wo := 0x0, clsB := 0xFFFFFFFFFF, clsW := 0x0, clsC := 0x0 } /- SUGGEST -/,
  { off := 0x60, s1 := 0x0, n1 := 1, s2 := 0x0, n2 := 1, expert := false, reset := 0x180A02, rw := 0xFFFFFF, wc := 0x0, ws := 0x0, wo := 0x0, clsB := 0x0, clsW := 0x0, clsC := 0xFFFFFF } /- FCFG -/ ]

/-- Registers of a `GFLO` page beyond the header. -/
def rowsGflo : List RegRow := [
  { off := 0x40, s1 := 0x0, n1 := 1, s2 := 0x0, n2 := 1, expert := false, reset := 0x1, rw := 0x3, wc := 0x0, ws := 0x4, wo := 0x0, clsB := 0x4, clsW := 0x0, clsC := 0x3 } /- GCTRL -/,
  { off := 0x48, s1 := 0x0, n1 := 1, s2 := 0x0, n2 := 1, expert := false, reset := 0x0, rw := 0x0, wc := 0x0, ws := 0x0, wo := 0x0, clsB := 0xFFFFFFFFFF, clsW := 0x0, clsC := 0x0 } /- GSTATUS -/,
  { off := 0x50, s1 := 0x0, n1 := 1, s2 := 0x0, n2 := 1, expert := false, reset := 0x0, rw := 0x0, wc := 0x0, ws := 0x0, wo := 0x0, clsB := 0xFFFFFFFFFF, clsW := 0x0, clsC := 0x0 } /- SUGGEST -/,
  { off := 0x60, s1 := 0x0, n1 := 1, s2 := 0x0, n2 := 1, expert := false, reset := 0x3E8, rw := 0xFFFF, wc := 0x0, ws := 0x0, wo := 0x0, clsB := 0x0, clsW := 0x0, clsC := 0xFFFF } /- AGE_STEP -/ ]

end Sys2Proof.Machine
end

