-- ==== Sys2Proof/Machine/Pages.lean ====
section
/-! DEFINITION. The pages of control space (R29, R49): which page an address lies on, the page's identity,
its registers, and the reset value of every register. -/

namespace Sys2Proof.Machine

/-- The types of page (R49); pages of one block with different registers are told apart. -/
inductive PageKind where
  | sys | clu | core | wrd | wcore | tly | bank | qmg | jrn | crt | wgh | ch
  | lio | usb | uart | can | gpio | timer | prof | own
  | net | nport | tb | pci | ixl | ixp | ddr | ddrch | cst | recp
  | gov | gpwr | ghea | gwea | gfil | gflo | cpr | dbg | sec | vault
deriving DecidableEq, Repr

/-- The first address of the block pages, and of the queue state window (R35). -/
def ctlBase : Nat := 0xFFF0000000
def qwBase : Nat := 0xFFF0400000

/-- The page a page index of a 64 KiB block holds. -/
def pageInBlock (blk k : Nat) : Option PageKind :=
  match blk with
  | 0 => if k = 0 then some .sys else none
  | 9 => if k = 0 then some .wrd else if k ≤ 4 then some .wcore else none
  | 0xA => if k = 0 then some .tly else if k ≤ 8 then some .bank else none
  | 0xB => if k = 0 then some .qmg else none
  | 0xC => if k = 0 then some .jrn else if k ≤ 2 then some .crt else none
  | 0xD => if k = 0 then some .wgh else none
  | 0xE =>
    if k = 0 then some .lio else if k ≤ 4 then some .usb else if k ≤ 7 then some .uart
    else if k = 8 then some .can else if k = 9 then some .gpio else if k = 10 then some .timer
    else if k ≤ 14 then some .prof else some .own
  | 0xF => if k = 0 then some .net else if k ≤ 2 then some .nport else if k = 3 then some .tb else none
  | 0x10 => if k = 0 then some .pci else none
  | 0x11 => if k = 0 then some .ixl else if k ≤ 2 then some .ixp else none
  | 0x12 => if k = 0 then some .ddr else if k ≤ 4 then some .ddrch else none
  | 0x13 => if k = 0 then some .cst else none
  | 0x14 => if k = 0 then some .recp else none
  | 0x15 =>
    if k = 0 then some .gov else if k = 1 then some .gpwr else if k = 2 then some .ghea
    else if k = 3 then some .gwea else if k = 4 then some .gfil else if k = 5 then some .gflo else none
  | 0x16 => if k = 0 then some .cpr else none
  | 0x17 => if k = 0 then some .dbg else none
  | 0x18 => if k = 0 then some .sec else if k = 1 then some .vault else none
  | _ => if 1 ≤ blk ∧ blk ≤ 8 then (if k = 0 then some .clu else if k ≤ 9 then some .core else none)
         else if 0x20 ≤ blk ∧ blk ≤ 0x23 then some .ch else none

/-- The page that holds a control-space address, with its index counted in pages from the block base. -/
def pageOf (a : Nat) : Option PageKind :=
  if a < ctlBase then none else
  let i := (a - ctlBase) / 4096
  if i < 0x240 then pageInBlock (i / 16) (i % 16) else none

/-- The base address of the page of an address. -/
def pageBase (a : Nat) : Nat := a / 4096 * 4096

/-- The page's index within its 64 KiB block, and the block's index. -/
def pageIdx (a : Nat) : Nat := (a - ctlBase) / 4096 % 16
def blkIdx (a : Nat) : Nat := (a - ctlBase) / 65536

/-- Page bases (R49). -/
def pgClu (n : Nat) : Nat := 0xFFF0010000 + 0x10000 * n
def pgCore (n k : Nat) : Nat := 0xFFF0011000 + 0x10000 * n + 0x1000 * k
def pgWcore (k : Nat) : Nat := 0xFFF0091000 + 0x1000 * k
def pgBank (b : Nat) : Nat := 0xFFF00A1000 + 0x1000 * b
def pgCrt (s : Nat) : Nat := 0xFFF00C1000 + 0x1000 * s
def pgCh (c : Nat) : Nat := 0xFFF0200000 + 0x1000 * c
def pgUsb (u : Nat) : Nat := 0xFFF00E1000 + 0x1000 * (u / 4)
def pgUart (u : Nat) : Nat := 0xFFF00E5000 + 0x1000 * (u / 16)
def pgProf (p : Nat) : Nat := 0xFFF00EB000 + 0x1000 * (p / 16)
def pgNport (p : Nat) : Nat := if p < 16 then 0xFFF00F1000 else 0xFFF00F2000
def pgIxp (p : Nat) : Nat := 0xFFF0111000 + 0x1000 * p
def pgSYS : Nat := 0xFFF0000000
def pgWRD : Nat := 0xFFF0090000
def pgTLY : Nat := 0xFFF00A0000
def pgQMG : Nat := 0xFFF00B0000
def pgJRN : Nat := 0xFFF00C0000
def pgWGH : Nat := 0xFFF00D0000
def pgLIO : Nat := 0xFFF00E0000
def pgOWN : Nat := 0xFFF00EF000
def pgGPIO : Nat := 0xFFF00E9000
def pgTIMER : Nat := 0xFFF00EA000
def pgCAN : Nat := 0xFFF00E8000
def pgNET : Nat := 0xFFF00F0000
def pgTB : Nat := 0xFFF00F3000
def pgPCI : Nat := 0xFFF0100000
def pgIXL : Nat := 0xFFF0110000
def pgCST : Nat := 0xFFF0130000
def pgREC : Nat := 0xFFF0140000
def pgGOV : Nat := 0xFFF0150000
def pgGPWR : Nat := 0xFFF0151000
def pgGHEA : Nat := 0xFFF0152000
def pgGWEA : Nat := 0xFFF0153000
def pgGFIL : Nat := 0xFFF0154000
def pgGFLO : Nat := 0xFFF0155000
def pgCPR : Nat := 0xFFF0160000
def pgDBG : Nat := 0xFFF0170000
def pgSEC : Nat := 0xFFF0180000
def pgVAULT : Nat := 0xFFF0181000

/-- The register rows of a page beyond its header. -/
def pageRows : PageKind → List RegRow
  | .sys => rowsSys | .clu => rowsClu | .core => rowsCore | .wcore => rowsCore.filter (fun r => decide (r.off < 0x200) && r.off != 0x58 && r.off != 0x60) | .wrd => rowsWrd
  | .tly => rowsTly | .bank => rowsBank | .qmg => rowsQmg | .jrn => rowsJrn | .crt => rowsCrt
  | .wgh => rowsWgh | .ch => rowsCh | .lio => rowsLio | .usb => rowsUsb | .uart => rowsUart
  | .can => rowsCan | .gpio => rowsGpio | .timer => rowsTimer | .prof => rowsProf | .own => rowsOwn
  | .net => rowsNet | .nport => rowsNport | .tb => rowsTb | .pci => rowsPci | .ixl => rowsIxl
  | .ixp => rowsIxp | .ddr => [] | .ddrch => [] | .cst => rowsCst | .recp => rowsRec
  | .gov => rowsGov | .gpwr => rowsGpwr | .ghea => rowsGhea | .gwea => rowsGwea | .gfil => rowsGfil
  | .gflo => rowsGflo | .cpr => rowsCpr | .dbg => rowsDbg | .sec => rowsSec | .vault => rowsVault

/-- The common header (R35, R37, R40, R41). DEDUCED, log 45. -/
def rowsHdr : List RegRow := [
  { off := 0x00, s1 := 0, n1 := 1, s2 := 0, n2 := 1, expert := false, reset := 0, rw := 0, wc := 0, ws := 0, wo := 0, clsB := 0, clsW := 0, clsC := 0 },
  { off := 0x08, s1 := 0, n1 := 1, s2 := 0, n2 := 1, expert := false, reset := 0, rw := 0, wc := 0, ws := 0, wo := 0, clsB := 0, clsW := 0, clsC := 0 },
  { off := 0x10, s1 := 0, n1 := 1, s2 := 0, n2 := 1, expert := false, reset := 0, rw := 0x3, wc := 0, ws := 0x4, wo := 0, clsB := 0x6, clsW := 0x1, clsC := 0 },
  { off := 0x18, s1 := 0, n1 := 1, s2 := 0, n2 := 1, expert := false, reset := 0, rw := 0, wc := 0, ws := 0, wo := 0, clsB := 0xFFFFFFFF03, clsW := 0, clsC := 0x4 },
  { off := 0x20, s1 := 0, n1 := 1, s2 := 0, n2 := 1, expert := false, reset := 0, rw := 0, wc := 0xFFFFFFFF, ws := 0, wo := 0, clsB := 0xFFFFFFFF, clsW := 0, clsC := 0 },
  { off := 0x28, s1 := 0, n1 := 1, s2 := 0, n2 := 1, expert := false, reset := 0, rw := 0xFFFFFFFF, wc := 0, ws := 0, wo := 0, clsB := 0, clsW := 0xFFFFFFFF, clsC := 0 },
  { off := 0x30, s1 := 0, n1 := 1, s2 := 0, n2 := 1, expert := false, reset := 0, rw := 0, wc := 0, ws := 0, wo := 0, clsB := 0xFFFFFFFFFF, clsW := 0, clsC := 0 },
  { off := 0x38, s1 := 0, n1 := 1, s2 := 0, n2 := 1, expert := false, reset := 0, rw := 0xF, wc := 0, ws := 0, wo := 0, clsB := 0, clsW := 0, clsC := 0x10F } ]

/-- Does a row hold the register at a page offset? -/
def rowAt (r : RegRow) (off : Nat) : Bool :=
  decide (r.off ≤ off) &&
  (let t := off - r.off
   if r.s1 = 0 then t == 0 else
   decide (t / r.s1 < r.n1) &&
   (let u := t % r.s1
    if r.s2 = 0 then u == 0 else u % r.s2 == 0 && decide (u / r.s2 < r.n2)))

/-- The row of a page offset (R34: none where no register lies). TLY's PG_STATUS holds SEEDED, STAMPING and
REPLAY_OPEN, of classes c, b and c (R398). -/
def rowOf (k : PageKind) (off : Nat) : Option RegRow :=
  if k = .tly ∧ off = 0x18 then
    some { off := 0x18, s1 := 0, n1 := 1, s2 := 0, n2 := 1, expert := false, reset := 0x400, rw := 0, wc := 0
           ws := 0, wo := 0, clsB := 0xFFFFFFFA03, clsW := 0, clsC := 0x504 }
  else if off < 0x40 then rowsHdr.find? (rowAt · off) else (pageRows k).find? (rowAt · off)

/-- PG_ID.TYPE (R49). -/
def pageType : PageKind → Nat
  | .sys => 0x6440 | .clu => 0x0C00 | .core => 0x0C01 | .wrd => 0x0D00 | .wcore => 0x0D01
  | .tly => 0x0A00 | .bank => 0x0A01 | .qmg => 0x0B00 | .jrn => 0x0E00 | .crt => 0x0E01
  | .wgh => 0x0F00 | .ch => 0x0F01 | .lio => 0x1000
  | .usb | .uart | .can | .gpio | .timer | .prof | .own => 0x1001
  | .net => 0x1100 | .nport | .tb => 0x1101 | .pci => 0x1200 | .ixl => 0x1300 | .ixp => 0x1301
  | .ddr => 0x1400 | .ddrch => 0x1401 | .cst => 0x1500 | .recp => 0x1600
  | .gov => 0x1700 | .gpwr | .ghea | .gwea | .gfil | .gflo => 0x1701 | .cpr => 0x1800
  | .dbg => 0x1900 | .sec => 0x1A00 | .vault => 0x1A01

/-- PG_ID.INSTANCE (R49). -/
def pageInstance (k : PageKind) (a : Nat) : Nat :=
  match k with
  | .clu => blkIdx a - 1
  | .core => 9 * (blkIdx a - 1) + (pageIdx a - 1)
  | .ch => (a - 0xFFF0200000) / 4096
  | .sys | .wrd | .tly | .qmg | .jrn | .wgh | .lio | .net | .pci | .ixl | .ddr | .cst | .recp
  | .gov | .cpr | .dbg | .sec => 0
  | _ => pageIdx a - 1

/-- Pages of the block that owns a page, for PG_CAP.PAGES (R36). -/
def pageCount : PageKind → Nat
  | .clu | .core => 10 | .wrd | .wcore => 5 | .tly | .bank => 9 | .jrn | .crt => 3 | .wgh | .ch => 65
  | .lio | .usb | .uart | .can | .gpio | .timer | .prof | .own => 16
  | .net | .nport | .tb => 4 | .ixl | .ixp => 3 | .ddr | .ddrch => 5
  | .gov | .gpwr | .ghea | .gwea | .gfil | .gflo => 6 | .sec | .vault => 2
  | _ => 1

/-- PG_CAP.RESTART_PRESENT (R47, R645): set on the page that restarts its block. -/
def restartPresent : PageKind → Bool
  | .sys | .tly | .qmg | .jrn | .wgh | .lio | .net | .pci | .ixl | .sec | .gov | .dbg => true
  | _ => false

/-- PG_CTRL.ENABLE after cold reset (R49). -/
def enableReset : PageKind → Bool
  | .sys | .wrd | .wcore | .ddr | .ddrch | .cst | .recp | .gov | .gpwr | .ghea | .gwea | .gfil | .gflo
  | .cpr | .sec | .vault => true
  | _ => false

/-- The interrupt source of a page (R287). -/
def pageSource (k : PageKind) (a : Nat) : Nat :=
  match k with
  | .sys => 0
  | .clu => 1 + 10 * (blkIdx a - 1)
  | .core => 2 + 10 * (blkIdx a - 1) + (pageIdx a - 1)
  | .wrd | .wcore => 81 + pageIdx a
  | .tly | .bank => 86 + pageIdx a
  | .qmg => 95
  | .jrn | .crt => 96 + pageIdx a
  | .wgh => 99
  | .ch => 100 + (a - 0xFFF0200000) / 4096
  | .lio | .usb | .uart | .can | .gpio | .timer | .prof | .own => 164 + pageIdx a
  | .net | .nport | .tb => 180 + pageIdx a
  | .pci => 184
  | .ixl | .ixp => 185 + pageIdx a
  | .ddr | .ddrch => 188 + pageIdx a
  | .cst => 193
  | .recp => 194
  | .gov | .gpwr | .ghea | .gwea | .gfil | .gflo => 195 + pageIdx a
  | .cpr => 201
  | .dbg => 202
  | .sec | .vault => 203 + pageIdx a

/-- The page base of a page source, the inverse of `pageSource`. -/
def sourcePage (n : Nat) : Nat :=
  if n = 0 then pgSYS
  else if n < 81 then 0xFFF0010000 + 0x10000 * ((n - 1) / 10) + 0x1000 * ((n - 1) % 10)
  else if n < 86 then pgWRD + 0x1000 * (n - 81)
  else if n < 95 then pgTLY + 0x1000 * (n - 86)
  else if n = 95 then pgQMG
  else if n < 99 then pgJRN + 0x1000 * (n - 96)
  else if n = 99 then pgWGH
  else if n < 164 then pgCh (n - 100)
  else if n < 180 then pgLIO + 0x1000 * (n - 164)
  else if n < 184 then pgNET + 0x1000 * (n - 180)
  else if n = 184 then pgPCI
  else if n < 188 then pgIXL + 0x1000 * (n - 185)
  else if n < 193 then 0xFFF0120000 + 0x1000 * (n - 188)
  else if n = 193 then pgCST
  else if n = 194 then pgREC
  else if n < 201 then pgGOV + 0x1000 * (n - 195)
  else if n = 201 then pgCPR
  else if n = 202 then pgDBG
  else pgSEC + 0x1000 * (n - 203)

/-- PG_ID at reset; VERSION is 0x01 (the model's choice). DESIGN CHOICE, log 10. -/
def pgIdReset (k : PageKind) (a : Nat) : Nat := 1 + 256 * pageInstance k a + 65536 * pageType k

/-- PG_CAP at reset; INT_PRESENT is 1 and BLOCK_CAP is 0 (the model's choice). -/
def pgCapReset (k : PageKind) : Nat :=
  b2n ((pageRows k).any (·.expert)) + 2 * b2n (restartPresent k) + 4 + 256 * pageCount k

/-- A GALL or block register whose reset value is not the row's (R44, R110, R301, R515, R618). -/
def regResetSpecial (k : PageKind) (a : Nat) : Option Nat :=
  let off := a % 4096
  match k with
  | .clu => if off = 0x40 then some 0x876543210 else none
  | .core => if off = 0x40 then some (if pageIdx a - 1 < 8 then (pageIdx a - 1) + 8 else 0) else none
  | .wcore => if off = 0x40 then some ((pageIdx a - 1) + 8) else none
  | .vault =>
    if 0x40 ≤ off ∧ off < 0x240 then
      let n := (off - 0x40) / 8
      some (b2n (n < 32) * 0x800 + b2n (n = 0 ∨ n = 63) * 0x1000)
    else none
  | .gpio => none
  | _ => none

/-- The reset value of the register at a control-space address (R9 and the register tables). -/
def resetValue (a : Nat) : Word :=
  match pageOf a with
  | none => 0
  | some k =>
    let off := a % 4096
    BitVec.ofNat 40 <|
      if off = 0 then pgIdReset k a
      else if off = 8 then pgCapReset k
      else if off = 0x10 then b2n (enableReset k)
      else if off = 0x18 then b2n (enableReset k) + (if k = .tly then 0x400 else 0)
      else match regResetSpecial k a with
        | some v => v
        | none => match rowOf k off with
          | some r => r.reset
          | none => 0

end Sys2Proof.Machine
end

