-- ==== Sys2Proof/Machine/Tab.lean ====
section
/-! DEFINITION. Sparse tables in one canonical form: keys strictly rising, and no entry equal to the
value an unlisted key reads as. Memory, control registers, contexts, accounts, tickets, queues and the
other large arrays of the machine are such tables, so equal contents are equal data. -/

namespace Sys2Proof.Machine

/-- Read key `k`; `d` is what an unlisted key reads as. -/
def tabGet {α : Type} (d : α) : List (Nat × α) → Nat → α
  | [], _ => d
  | (k', v) :: t, k => if k' = k then v else tabGet d t k

/-- Write key `k` in a table sorted by key. -/
def tabIns {α : Type} : List (Nat × α) → Nat → α → List (Nat × α)
  | [], k, v => [(k, v)]
  | (k', v') :: t, k, v =>
    if k < k' then (k, v) :: (k', v') :: t
    else if k = k' then (k, v) :: t
    else (k', v') :: tabIns t k v

/-- Remove key `k`. -/
def tabDel {α : Type} : List (Nat × α) → Nat → List (Nat × α)
  | [], _ => []
  | (k', v') :: t, k => if k = k' then tabDel t k else (k', v') :: tabDel t k

/-- Write key `k`, removing the entry when the value is what an unlisted key reads as. -/
def tabSet {α : Type} [DecidableEq α] (d : α) (t : List (Nat × α)) (k : Nat) (v : α) : List (Nat × α) :=
  if v = d then tabDel t k else tabIns t k v

/-- The keys rise strictly above `lo`. -/
def tabSorted {α : Type} : Nat → List (Nat × α) → Bool
  | _, [] => true
  | lo, (k, _) :: t => decide (lo ≤ k) && tabSorted (k + 1) t

/-- No entry equals what its key reads as when unlisted. -/
def tabLean {α : Type} [DecidableEq α] (d : Nat → α) : List (Nat × α) → Bool
  | [] => true
  | (k, v) :: t => decide (v ≠ d k) && tabLean d t

/-- The canonical form. -/
def tabWf {α : Type} [DecidableEq α] (d : Nat → α) (t : List (Nat × α)) : Bool := tabSorted 0 t && tabLean d t

end Sys2Proof.Machine
end

