-- ==== Sys2Proof/Machine/State.lean ====
section
/-! DEFINITION. The machine state: plain data, holding everything the spec gives the machine. Control
registers have one home, `creg`, a sparse table over control-space addresses whose default is the spec's
reset value (`Ops.lean`); what no register shows is held in the structures below. -/

namespace Sys2Proof.Machine

/-- Why a step can stop the model. No command of the spec stops the machine, so no meaning raises one. -/
inductive Fault where
  /-- Never raised: the spec gives every command an effect. Safe. -/
  | none
deriving DecidableEq, Repr

/-- Why the model has no meaning for a command. -/
inductive Refusal where
  /-- The command has no meaning yet; raised by its arm in `Dispatch.lean`. Safe. -/
  | notModelled (mnemonic : String)
deriving DecidableEq, Repr

/-! ### Contexts -/

/-- The state of a context (R104). -/
inductive RunSt where
  | halted | waiting | ready | running
deriving DecidableEq, Repr

/-- What a waiting context waits for (R104, R255, R365, R366, R415). -/
inductive WaitCond where
  /-- WAITQ: a deliverable element on a bound queue, its number going to a D register. -/
  | queues (rd : RegNo)
  /-- WAITT: the ticket is complete. -/
  | ticket (t : Nat)
  /-- WAITT.A: every ticket of the context is complete. -/
  | allTickets
  /-- POST.T, POSTL, PSET, PCUT or PREL: a free ticket (R365). -/
  | freeTicket
  /-- A data line from DRAM (R255). -/
  | line
deriving DecidableEq, Repr

/-- Where a D register lies: the context's own D0–D7, a window, or the core's fast bank (R88, R91). -/
inductive DLoc where
  | own (n : Fin 8)
  | win (w : Fin 4) (n : Fin 8)
  | fast (n : Fin 8)
deriving DecidableEq, Repr

/-- A register that a read of the tally engine still has to write (R247). -/
inductive PReg where
  | d (l : DLoc)
  | x (n : Fin 4)
  /-- SR.C, V, Z and N. -/
  | flags
  /-- The engine's check of a local read, which holds the context's next instruction (R357). -/
  | check
deriving DecidableEq, Repr

/-- A block translation register (R310). -/
structure Btr where
  vbase : Word
  size : Word
  pbase : Word
  attr : Word
deriving DecidableEq, Repr

/-- An interruptible instruction between its issue and its last unit (R198, R201): its owner code and
register fields. -/
structure StrOp where
  owner : Byte
  r1 : RegNo
  r2 : RegNo
  r3 : RegNo
  r4 : RegNo
  r5 : RegNo
  r6 : RegNo
  /-- What ESW holds if the instruction stops at this unit boundary (R219, R222). -/
  live : Word
  /-- A unit has completed since the issue (R220). -/
  begun : Bool
deriving DecidableEq, Repr

/-- An exception that is due before anything else of its context: the frame PC, vector, fault address, INFO and SYNDROME
(R357, R390). -/
structure LateExc where
  pc : Word
  vec : Nat
  fault : Word
  info : Nat
  synd : Nat
deriving DecidableEq, Repr

/-- A context (R84, R96, R104, R271, R310). D and X registers and products are held at their Conjunction
widths; outside Conjunction their upper bits are zero. DEDUCED, log 12. -/
structure Ctx where
  run : RunSt
  wait : Option WaitCond
  /-- The program counter, a code address (R69). -/
  pc : Word
  /-- A0–A14; A15 is SPU or SPS (R86). -/
  a : Vector Word 15
  /-- D0–D7. -/
  d : Vector DWord 8
  /-- D8–D15 of the four windows (R88). -/
  win : Vector (Vector DWord 8) 4
  x : Vector XWord 4
  sr : Word
  fsr : BitVec 11
  ph : DWord
  pl : DWord
  ls : Vector Word 4
  le : Vector Word 4
  lc : Vector Word 4
  rc : Word
  esw : Word
  krr : BitVec 32
  stag : BitVec 12
  vbr : Word
  role : BitVec 12
  tkt : Word
  spu : Word
  sps : Word
  btr : Vector Btr 8
  /-- Earlier BTR contents that accesses may still use until SYNC.T (R334). -/
  staleBtr : List (Vector Btr 8)
  /-- The pending lazy area while SR.LZ is 1 (R271). -/
  lazyAddr : Word
  /-- FORMAT of the frame whose lazy area is pending: pushed in Conjunction (R270, R273). -/
  lazyWide : Bool
  /-- Products issued and not yet landed, oldest first (R165). -/
  prods : List (DWord × DWord)
  /-- Registers a PREAD or PREADC still has to write (R247). -/
  pend : List PReg
  strOp : Option StrOp
  /-- When the context last stopped running, for the order of R292. -/
  lastRan : Nat
  /-- A context-halt message held for HALT_QUEUE (R286). -/
  heldMsg : Option (List Byte)
  /-- How many warden depth handlers are open, one inside the other (R282). -/
  depthOpen : Nat
  /-- The context entered its current line by exception entry (R266). -/
  onVector : Bool
  /-- Stopped for a move or a Conjunction transition (R115, R288). -/
  moving : Bool
  /-- The next instruction is exempt from the comparators (R698). -/
  skip : Bool
  /-- A queue instruction is at the queue manager, or a read at a bank that may raise vector 17: no later
  instruction issues before it ends (R343, R357). -/
  atEngine : Bool
  /-- An exception that is due: vector 17 of a read whose account was found BAD (R357), or one whose entry waits for a
  pending X result (R267, R390). -/
  late : Option LateExc
  /-- Code lines entered (R260), the model's own count. -/
  linesIn : Nat
deriving DecidableEq, Repr

/-- A buffered store (R252). -/
structure SbEntry where
  cid : Cid
  pl : BitVec 2
  addr : Nat
  data : List Byte
  dev : Bool
deriving DecidableEq, Repr

/-- A TLB or walk-cache entry (R319): STAG, descriptor, and the virtual page, or the base of the level-1
entry's 2 MiB region in units of 64 KiB. -/
structure TlbEntry where
  stag : BitVec 12
  page : Nat
  desc : Word
deriving DecidableEq, Repr

/-- A line-buffer entry (R237): the line's physical address, the 64 bytes it held when it was fetched, and how many lines
the context had entered then (R260). -/
structure LineEntry where
  addr : Nat
  data : List Byte
  seen : Nat
deriving DecidableEq, Repr

/-- What a core holds beside its contexts (R91, R237, R252, R319). Keyed by logical core, 0–63 for ledger
cores and 64–67 for warden cores. -/
structure CoreSt where
  fastA : Vector Word 8
  fastD : Vector DWord 8
  sb : List SbEntry
  lines : List LineEntry
  tlb : List TlbEntry
  walk : List TlbEntry
  /-- The key cache (R319): key-store bytes by frame, the last entered first. -/
  keys : List (Nat × Byte)
  /-- CYC's origin: the cycle count at release. -/
  cycBase : Nat
deriving DecidableEq, Repr

/-- An issued invalidation not yet applied on every core (R333, R334, R336). -/
inductive Inval where
  | tlbVa (stag : BitVec 12) (page : Nat)
  | tlbS (stag : BitVec 12)
  | tlbAll
  | walkVa (stag : BitVec 12) (unit : Nat)
  | walkS (stag : BitVec 12)
  | walkAll
  /-- A key-store byte changed: the frame. -/
  | key (frame : Nat)
  /-- A BTR of the issuing context changed. -/
  | btr
deriving DecidableEq, Repr

/-- An interrupt routing entry (R288). -/
structure Irt where
  target : Cid
  level : Nat
  urgent : Bool
  enable : Bool
deriving DecidableEq, Repr

/-- An event raised to the recorder (R608). -/
structure RecEvent where
  code : Nat
  source : Nat
  severity : Nat
  p0 : Word
  p1 : Word
  p2 : Word
deriving DecidableEq, Repr

/-! ### The tally engine -/

/-- A tally account (R348). Its FMT is that of the ranges last stamped (`fmtRanges`, R351). -/
structure Account where
  v : BitVec 88
  n : Word
  lpsn : Word
  ovf : Bool
  ce : Bool
  bad : Bool
  cv : BitVec 88
  cn : Word
deriving DecidableEq, Repr

/-- What an operation of the tally engine does (R354, R385). -/
inductive TKind where
  | post | postl | pset | pcut | prel | pread | preadc | replay
deriving DecidableEq, Repr

/-- An operation in a port or a bank of the tally engine, or sent to another device (R370, R375, R387).
DEDUCED, log 43. -/
structure TOp where
  kind : TKind
  /-- The account number with its device field (R353). -/
  acct : BitVec 21
  b : Bool
  /-- Amount, or the value of PSET, extended to 22 digits or 88 bits (R355). -/
  amount : BitVec 88
  count : Word
  floor : BitVec 88
  psn : Word
  /-- Index of its ticket. -/
  ticket : Option Nat
  cid : Cid
  /-- Where a read lands. -/
  xreg : Fin 4
  dloc : DLoc
  lpsn : Bool
  /-- Issued in Conjunction (WIDE of a trace record, R699). -/
  wide : Bool
  /-- The read's PC (R357). -/
  pc : Word
  /-- For an operation of another device: that device, the packet's TAG and the TICKET it names (R572). -/
  origin : Option (Nat × Nat × Word)
  /-- TAG of the packet that carries it to another device. -/
  tag : Nat
deriving DecidableEq, Repr

/-- A ticket (R362, R363). `stamp` orders the allocations; a flushed ticket is released, or will be when its
operation completes (R369). -/
structure Ticket where
  gen : BitVec 8
  cid : Cid
  stamp : Nat
  held : Bool
  flushed : Bool
  done : Bool
  status : Nat
  device : Nat
  op : Nat
  psn : Word
deriving DecidableEq, Repr


/-- A port of the Ixlink (R569): packets waiting for the link or for credit, the replay buffer, the next
sequence number to send and to receive, the credits of each virtual channel, CRC errors in a row and failed
recovery attempts. -/
structure IxPort where
  txq : List IxPkt
  replay : List IxPkt
  seq : BitVec 12
  rxSeq : BitVec 12
  credit : Vector Nat 4
  crcRun : Nat
  fails : Nat
deriving DecidableEq, Repr


/-- A global cut that this device is to take (R582): NUMBER, and seconds and nanoseconds of T; whether CUT_AT came after T, and
whether T is past, so that the cut only waits for the tally engine. -/
structure CutWait where
  number : Nat
  sec : Nat
  ns : Nat
  late : Bool
  due : Bool
deriving DecidableEq, Repr

/-! ### The queue manager -/

/-- A queue's state (R401, R405, R427). `orphan` is the ORPHANED state of R402; `passed` notes that the
consumer took from another queue while this one held an element; `last` orders the deliveries. -/
structure Queue where
  base : Word
  depth : Nat
  valid : Bool
  pmode : Bool
  ckind : Nat
  key : Nat
  prio : Nat
  wake : Bool
  wlock : Bool
  cid : Cid
  epoch : BitVec 12
  bound : Bool
  head : BitVec 17
  tail : BitVec 17
  orphan : Bool
  age : Nat
  passed : Bool
  last : Nat
  fulls : Nat
  discarded : Nat
deriving DecidableEq, Repr

/-- What the producer of a transfer does when it is accepted or refused (R422). -/
inductive QOrigin where
  /-- ENQ or DEQ of a context: the status register. -/
  | ctx (c : Cid) (rd : DLoc)
  /-- A weigh element: channel and kind. -/
  | weigh (ch : Nat) (kind : Nat)
  /-- A lane I/O message: binding, and whether it is delivered by reference through an area. -/
  | lane (binding : Nat) (area : Option Nat)
  /-- A transmit report or event of lane I/O: nothing follows. -/
  | event
  /-- A network frame: port and area. -/
  | net (port : Nat) (area : Nat)
  /-- An Ixlink queue message: source device. -/
  | qmsg (dev : Nat)
deriving DecidableEq, Repr

/-- A transfer in a port of the queue manager (R420): an element offered to a queue, or a DEQ with the
physical address it writes. -/
structure QOp where
  queue : Nat
  take : Bool
  warden : Bool
  type : Nat
  len : Nat
  src : Nat
  payload : List Byte
  dest : Nat
  origin : QOrigin
deriving DecidableEq, Repr


/-! ### The journal -/

/-- The batch under way (R443, R448): its records end to end, first and last JSN, whether it holds a Z cut or opens
with a link, and once it closes its CLOSE reason and trailer, whether a signature is due and made. -/
structure Batch where
  number : Nat
  bytes : List Byte
  count : Nat
  first : Nat
  last : Nat
  zcut : Bool
  link : Bool
  close : Option Nat
  trailer : List Byte
  sigDue : Bool
  sigDone : Bool
deriving DecidableEq, Repr

/-- A cartridge slot (R449, R460–R467): the cartridge in it, the blocks passed over and those to retire, the write
point as stripe and position, the stripe being erased and one whose erase was aborted, the pages of the batch
programmed and its failures, and whether the slot is to close. -/
structure Slot where
  cart : Option Cartridge
  passed : List (Nat × Nat)
  toRetire : List (Nat × Nat)
  wstripe : Nat
  wpos : Nat
  erasing : Option Nat
  torn : Option Nat
  done : Nat
  fails : Nat
  leaving : Bool
deriving DecidableEq, Repr

/-- A slot without a cartridge. -/
def Slot.empty : Slot :=
  { cart := none, passed := [], toRetire := [], wstripe := 0, wpos := 0, erasing := none, torn := none, done := 0, fails := 0
    leaving := false }

/-- A read run (R458): its slot, the next batch, the batches left, and HASH of the batch before. -/
structure RdRun where
  slot : Nat
  next : Nat
  left : Nat
  prev : Option (List Byte)
deriving DecidableEq, Repr

/-- A record taken and not yet staged (R475): its bytes and its DONE address. -/
structure Carry where
  bytes : List Byte
  done : Nat
deriving DecidableEq, Repr

/-- The journal engine (R435–R477). -/
structure Journal where
  batch : Option Batch
  /-- HASH of the last batch closed. -/
  prevHash : List Byte
  /-- Records the engine itself stages first in the next batch (R439): type and body. -/
  pre : List (Nat × List Byte)
  /-- The queue the round last took from (R435). -/
  round : Option Nat
  carry : Option Carry
  /-- A rollover under way: its cause is 0 a command or life, 1 a failed or full cartridge; and the slot left. -/
  roll : Option (Nat × Nat)
  /-- LIFE at 2 % with no standby: the rollover waits (R468). -/
  rollDue : Bool
  /-- JSN blocks held in a cascade: next and last (R453). -/
  jsns : List (Nat × Nat)
  /-- The scan's slot to go on from, once it has ended (R457). -/
  scanned : Option (Option Nat)
  slots : Vector Slot 2
  /-- The device's copies of ERASES and GROWN by cartridge ID, the longest-absent last (R463). -/
  life : List (BitVec 64 × Nat × Nat)
  /-- The cartridges whose life warning has been given (R464). -/
  warned : List (BitVec 64)
  /-- The cartridge the journal was last on (R439). -/
  lastId : BitVec 64
  /-- The STATE that JRN.STATE held when ENABLE stopped the engine, or 0 (R474). -/
  resume : Nat
  rd : Option RdRun
  /-- Retries of the final batch during last gasp (R477). -/
  gaspRetries : Nat
deriving DecidableEq, Repr



/-! ### Weigh channels -/

/-- The sealed set of a channel (R501, R507): SEAL_LINE, CAL_ZERO, SPAN, RANGE1 to RANGE3, METRO, DECIM and CAL_REF, and
the 64 taps. -/
structure Sealed where
  regs : Vector Word 9
  taps : Vector (BitVec 24) 64
deriving DecidableEq, Repr

/-- An armed check (R497): TAG, the expected change and the tolerance, and the reference once taken. -/
structure WCheck where
  tag : Nat
  expect : Int
  tol : Int
  ref : Option Int
deriving DecidableEq, Repr

/-- An element (R493–R500): its TYPE, payload and SEQ, and whether it is with the queue manager now. -/
structure WElem where
  type : Nat
  payload : List Byte
  seq : Nat
  flying : Bool
deriving DecidableEq, Repr

/-- One sample in the channel's history: gross_bin, RAW, and whether it bars stability (R486). -/
structure WSample where
  gross : Int
  raw : Int
  bad : Bool
deriving DecidableEq, Repr

/-- A weigh channel (R480–R511). -/
structure Weigh where
  /-- Sinc integrators and combs modulo 2^64, input bits since the last output, and outputs counted until the filters are full, at
  68 (R480). -/
  integ : Vector (BitVec 64) 4
  comb : Vector (BitVec 64) 4
  nbits : Nat
  filled : Nat
  /-- The last 64 sinc outputs, newest first, and outputs since the last FIR output. -/
  fir : List Int
  nfir : Nat
  iir : Vector Int 2
  /-- The last input bit and how many equal ones end with it; while MODFAULT is 1, clocks counted and the values seen (R484). -/
  lastBit : Bool
  eqRun : Nat
  faultClk : Nat
  faultSeen : Bool
  /-- Samples of the last second at least, newest first. -/
  hist : List WSample
  /-- Samples in motion, and at zero centre, without a break (R509). -/
  motionRun : Nat
  zeroRun : Nat
  tare : Int
  preset : Bool
  /-- The command that waits (CMD bit number), and a tare element due at the next stable sample (R490). -/
  wait : Option Nat
  tareDue : Bool
  /-- Samples since the last stream element. -/
  streamN : Nat
  /-- The filter changed since the last element. -/
  filt : Bool
  /-- Rounded gross of the last stable sample (R499). -/
  lastGross : Option Int
  chk : Option WCheck
  /-- Elements produced in this collector period, oldest first; the held weight element and verdict (R496); the last SEQ
  produced of each kind. -/
  fresh : List WElem
  heldW : Option WElem
  heldV : Option WElem
  lastW : Nat
  lastV : Nat
  /-- Collector periods until event 0x0F06 may be written again (R496), and until LEFT counts down again (R514). -/
  dropGap : Nat
  leftGap : Nat
  taps : Vector (BitVec 24) 64
  staged : Option Sealed
  /-- The calibration command that waits: true for CAL_SPAN (R504). -/
  cal : Option Bool
  /-- A commit waits for the period boundary (R505). -/
  commit : Bool
deriving DecidableEq, Repr

/-- The taps as shipped (R515). -/
def tapsShipped : Vector (BitVec 24) 64 := (Vector.replicate 64 0#24).set 0 0x400000#24

/-- A channel as shipped and after reset. DEDUCED, log 66. -/
def Weigh.init : Weigh :=
  { integ := Vector.replicate 4 0, comb := Vector.replicate 4 0, nbits := 0, filled := 1, fir := [], nfir := 0
    iir := Vector.replicate 2 0, lastBit := false, eqRun := 0, faultClk := 0, faultSeen := false, hist := [], motionRun := 0
    zeroRun := 0, tare := 0, preset := false, wait := none, tareDue := false, streamN := 0, filt := false, lastGross := none
    chk := none, fresh := [], heldW := none, heldV := none, lastW := 0, lastV := 0, dropGap := 0, leftGap := 0, taps := tapsShipped, staged := none, cal := none, commit := false }



/-! ### Lane I/O -/

/-- A claim of a line, timer or pool quota (R519): whether it is held, the owner and the quota's units. -/
structure OwnRec where
  held : Bool
  owner : Nat
  units : Nat
deriving DecidableEq, Repr

/-- A framing profile's registers (R529). -/
structure Prof where
  frame : Word
  pre : Word
  suf : Word
  check : Word
  limits : Word
deriving DecidableEq, Repr

/-- A binding's framer (R530): 0 HUNT, 1 PREFIX, 2 BODY; its copies of the profile and of BIND, the prefix bytes
matched, the bytes after the prefix, the body length once a length field gave it, and whether the message is dropped
already and only its end is awaited. -/
structure Framer where
  phase : Nat
  prof : Prof
  bind : Word
  got : Nat
  buf : List Byte
  len : Option Nat
  dead : Bool
deriving DecidableEq, Repr

/-- A complete message in the pool (R525): its binding, the BIND it completes under, the bytes to deliver and the
pool space it holds. -/
structure RxMsg where
  b : Nat
  bind : Word
  bytes : List Byte
  size : Nat
deriving DecidableEq, Repr



/-! ### Network, host and cascade -/

/-- A received frame in a port's FIFO (R555–R557): its bytes without FCS, the matching rule and its area, and its
timestamp. -/
structure NetFrame where
  bytes : List Byte
  rule : Nat
  area : Nat
  sec : Nat
  ns : Nat
deriving DecidableEq, Repr

/-- A transmit report due (R558): port, TAG, whether TS was set, and the timestamp. -/
structure TxReport where
  port : Nat
  tag : Nat
  ts : Bool
  sec : Nat
  ns : Nat
deriving DecidableEq, Repr


/-! ### Vault, crypto jobs and recorder -/

/-- How the job a channel runs will end (R603): the unit that runs it, its status, its output length and the
slots it uses. -/
structure JobRes where
  unit : Nat
  status : Nat
  outlen : Nat
  slots : List Nat
deriving DecidableEq, Repr

/-- A job channel (R600): whether it holds a job, its descriptor's address, and its end once the engine has served it. -/
structure Job where
  run : Bool
  addr : Nat
  res : Option JobRes
deriving DecidableEq, Repr

/-- A channel with no job. -/
def Job.idle : Job := { run := false, addr := 0, res := none }

/-- A requester's copy of SW_CODE and SW_P0 to SW_P2 (R611). -/
structure SwCopy where
  code : Word
  p0 : Word
  p1 : Word
  p2 : Word
deriving DecidableEq, Repr

/-- A clear attempt (R613): the authorization, and NEXT_SEQ at its GO. -/
structure ClearReq where
  auth : List Byte
  seq : Nat
deriving DecidableEq, Repr

/-- A clear that is erasing: its partition, UPTO, and NEXT_SEQ at its GO. -/
structure ClearRun where
  part : Nat
  upto : Nat
  seq : Nat
deriving DecidableEq, Repr


/-! ### Governors -/

/-- A substitution that is due (R630, R632): cluster, logical core, the failing physical core, whether the error was
uncorrectable, and whether its want of a spare has been reported. -/
structure SubReq where
  clu : Nat
  lc : Nat
  phys : Nat
  unc : Bool
  noted : Bool
deriving DecidableEq, Repr

/-- A self-test under way (R636): cluster, logical core, physical core under test, the spare that serves for it, and
whether it is a retest (R631). -/
structure Comet where
  clu : Nat
  lc : Nat
  phys : Nat
  spare : Nat
  retest : Bool
deriving DecidableEq, Repr


/-! ### Clocks, power, reset and boot -/

/-- Where the boot sequence stands (R662, R666, R668). -/
inductive Boot where
  /-- Step 1, held while PFAIL_N is low (R708). -/
  | hold
  /-- Step 1 done: the PLL is locking. -/
  | pll
  /-- Step 3 or 4: the ROM is about to choose a half. -/
  | rom
  /-- Step 4 again: a half was committed in the recovery wait (R668). -/
  | again
  /-- Waiting for the host's image (R665). -/
  | pcie
  /-- Step 5: the configuration table is being applied. -/
  | config
  /-- Step 6: DDR5 is being trained, or leaves self-refresh. -/
  | train
  /-- Step 7 reached. -/
  | done
  /-- No half can be booted (R668). -/
  | recovery
  /-- Steps 1 to 4 of a warm reset (R662). -/
  | warm
deriving DecidableEq, Repr

/-- A code-store write or commit under way (R675, R676): its half, and for a write the source, whether it is the boot
flash, the offset and the bytes. -/
structure CstJob where
  commit : Bool
  half : Nat
  src : Nat
  flash : Bool
  dst : Nat
  len : Nat
deriving DecidableEq, Repr



set_option maxRecDepth 4096 in
/-- The machine. DESIGN CHOICE, log 2. DESIGN CHOICE, log 9. -/
structure State where
  /-- Commands waiting, first in, first out. -/
  pending : List Instr
  /-- The model's own counter of free values drawn. -/
  free : Nat
  /-- Ticks of the model's clock: the steps taken on an empty queue. -/
  ticks : Nat
  /-- Control registers, keyed by address; an unlisted register reads as its reset value. -/
  creg : List (Nat × Word)
  /-- Physical memory: DRAM, code store, on-chip SRAM and boot ROM; an unlisted byte reads zero. -/
  mem : List Host.Cell
  /-- Uncorrectable-error marks (R332): by line, the bytes not rewritten since the mark, one bit each. -/
  ue : List (Nat × Nat)
  /-- Installed DRAM, in bytes (R26, R308). -/
  dramCap : Nat
  /-- Key-store bytes by 4 KiB frame (R322). -/
  fkey : List (Nat × Byte)
  /-- Contexts by CID (R105). -/
  ctx : List (Nat × Ctx)
  /-- Cores by logical number. -/
  core : List (Nat × CoreSt)
  /-- A stamp that rises at every switch, for R292. -/
  sched : Nat
  inval : List (Cid × Inval)
  /-- Invalidations recorded for the cluster in partial eclipse, up to one more than it can hold (R337). -/
  eclInv : List Inval
  /-- Pages whose PG_LOCK has been written since the cold reset, by base address (R5, R37). -/
  lockSet : List (Nat × Bool)
  /-- Interrupt routing entries by source (R288). -/
  irt : List (Nat × Irt)
  /-- Software sources asserted (R305). -/
  swi : List (Nat × Bool)
  /-- Events waiting in the recorder's intake, oldest first (R608). -/
  intake : List RecEvent
  /-- Records the trace unit holds (R700), and the number lost and not yet reported. -/
  traceq : List (List Byte)
  traceLost : Nat
  /-- Last gasp has begun: the device is stopped until PORST_N (R19, R21). -/
  stopped : Bool
  /-- The timebase (R559): seconds, nanoseconds, and the fraction in units of 2^-32 ns. -/
  tbSec : Nat
  tbNs : Nat
  tbFrac : Nat
  /-- Accounts by number; an unlisted account is zero with CE `ceBase` (R348). -/
  acct : List (Nat × Account)
  ceBase : Bool
  /-- FIRST, LAST and BIN of the valid ranges at the last stamping, in order (R350, R351). -/
  fmtRanges : List (Nat × Nat × Bool)
  /-- The cold clear of the accounts is still to finish (R349). -/
  coldClear : Bool
  tickets : List (Nat × Ticket)
  tktStamp : Nat
  /-- Ports 0 to 10 of the intake and the scan pointer (R370, R371). -/
  tports : Vector (List TOp) 11
  tptr : Nat
  /-- The banks' queues of granted operations (R375). -/
  banks : Vector (List TOp) 8
  /-- The granted PCUT whose cut is not ready yet, and the PREL whose sweep runs (R378, R380). -/
  cutOp : Option TOp
  prelOp : Option TOp
  /-- Entries of the replay record under way not yet supplied to port 10 (R384). -/
  replayEntries : List (List Byte)
  /-- Operations sent to other devices and not yet answered (R388). -/
  remoteOps : List TOp
  /-- The Ixlink's ports, the next TAG, and packets held while a route changes (R569, R570). -/
  ix : Vector IxPort 2
  ixTag : Nat
  ixHold : List IxPkt
  /-- A broadcast of this device came back: the cascade is a ring (R570). `ixHeard`: one came back since the last HB_PERIOD. -/
  ixRing : Bool
  ixHeard : Bool
  /-- Heartbeats of a device that came the longer way since the last that came the way its route goes (R570). -/
  ixElse : List (Nat × Nat)
  /-- Remote operations received that wait for room in port 9, with the port whose credit they hold (R370, R569, R572). -/
  ixIn : List (Option (Fin 2) × IxPkt)
  /-- Fire-and-forget postings to other devices whose fate is open: the account, and whether the posting was surely lost (R388). -/
  ffOut : List (Nat × Bool)
  /-- HB_PERIODs without an accepted primary (R577). -/
  noPrim : Nat
  /-- Queues by number (R401). -/
  queues : List (Nat × Queue)
  qstamp : Nat
  /-- The 15 ports of the queue manager and the scan pointer (R420). -/
  qports : Vector (List QOp) 15
  qptr : Nat
  /-- The transfer tags in use, oldest first (R421): does a hardware agent hold it? -/
  qtags : List Bool
  /-- Orphan notices held for ORPHAN_QUEUE (R419). -/
  orphans : List (List Byte)
  /-- MSI-X vectors raised and pending (R563). -/
  msix : BitVec 64
  jr : Journal
  weigh : List (Nat × Weigh)
  /-- Timebase at the last collector period boundary (R494): seconds and nanoseconds. -/
  wgSec : Nat
  wgNs : Nat
  /-- Claims by 256 × KIND + INDEX (R519). -/
  own : List (Nat × OwnRec)
  /-- Each requester's own CLAIM_RESULT and OWN_SELECT (R522), by owner identity. -/
  claimRes : List (Nat × Nat)
  ownSel : List (Nat × Word)
  /-- Framers by binding: 16 × port + pipe for USB, 256 + UART. -/
  framers : List (Nat × Framer)
  /-- Complete messages waiting in the pool, oldest first. -/
  ready : List RxMsg
  /-- One more than the second in which a port last wrote event 0x1001, by port number (R526). -/
  dropSec : List (Nat × Nat)
  /-- Transaction errors in a row and the data toggle of each USB pipe (R538). -/
  usbErr : List (Nat × Nat)
  usbTog : List (Nat × Bool)
  /-- The control request under way on each USB port (R537): the payload of its element. -/
  ctlReq : List (Nat × List Byte)
  /-- Frames held in a transmit path: 16 × port + pipe for USB, 256 + UART, 304 + CAN controller. -/
  txHeld : List (Nat × List Byte)
  /-- The frame each transmit path sent last. -/
  wire : List (Nat × List Byte)
  /-- Which timers' outputs are active (R547). -/
  tmOut : BitVec 64
  /-- The moment each timer last started its count at 0, in ticks (R547). -/
  tmAt : List (Nat × Nat)
  /-- Receive FIFOs by port, and which ports have sent PAUSE (R557). -/
  netFifo : List (Nat × List NetFrame)
  pauseSent : BitVec 18
  txReports : List TxReport
  /-- PCFG.ROLE has been written since the cold reset (R562). -/
  roleSet : Bool
  /-- The last completion sent to the host over PCIe; none is Unsupported Request (R563). -/
  hostCpl : Option (List Byte)
  /-- The last outbound PCIe request: address and write data (R564). -/
  pciReq : Option (Nat × Option (List Byte))
  /-- One more than the second of the last event 0x1202, and of the last 0x1307. -/
  pciSec : Nat
  qmsgSec : Nat
  /-- A global cut to take (R582). -/
  cutAt : Option CutWait
  /-- The primary's global cut is under way. -/
  gcutOn : Bool
  /-- A JSN request is unanswered (R579). -/
  jsnAsked : Bool
  /-- The highest epoch heard, whether a routing table has arrived, and whether want of quorum was reported (R577). -/
  hiEpoch : Nat
  tableSeen : Bool
  noQuorum : Bool
  /-- Remote window reads unanswered: TAG and device (R574). -/
  memRds : List (Nat × Nat)
  /-- The last link packet of each type sent on each port: 4 × port + TYPE (R569). -/
  ixLnk : List (Nat × IxPkt)
  /-- Key material of the vault's slots (R598); their attributes are registers. -/
  vault : List (Nat × List Byte)
  jobs : Vector Job 4
  /-- The channel each crypto unit served last (R600). -/
  unitLast : Vector Nat 2
  /-- Jobs that drew random bits since the last reseed (R606). -/
  drbgJobs : Nat
  /-- The recorder store (R607): 40-byte records by slot; an empty slot has none. -/
  recs : List (Nat × List Byte)
  /-- Events lost at the intake and not yet reported (R608). -/
  recLost : Nat
  /-- The slot of the protected data area written next. -/
  protNext : Nat
  /-- Copies of the software event registers by CID, 0xFFF for the host (R611). -/
  swCopies : List (Nat × SwCopy)
  clears : List ClearReq
  clearRun : Option ClearRun
  /-- Ticks of the model's clock since OPTIME last rose (R77). -/
  opTicks : Nat
  /-- Ticks of the model's clock since GRANT_EXPIRE.LEFT last fell (R593). -/
  grantTicks : Nat
  /-- VDD as commanded over PMBus, in mV; none is the board setting (R627). -/
  vdd : Option Nat
  /-- A step up that waits for its voltage: cluster and new step. -/
  pwrUp : Option (Nat × Nat)
  /-- Samples in a row that would let a cluster step up (R625). -/
  pwrRun : Nat
  /-- PMB_ALERT_N is low, and voltage raising is held (R629). -/
  pmbLow : Bool
  pmbHold : Bool
  /-- The clusters' steps before the junction limit, and samples in a row below 90 °C (R628). -/
  trip : Option (List Nat)
  coolRun : Nat
  /-- What each governor page's proposal saw of its target (R624), and one more than the second of its last 0x1701. -/
  sugAt : List (Nat × Nat)
  sugSec : List (Nat × Nat)
  /-- Ticks of the corrected errors of each physical core (9 × cluster + core) and of each frame. -/
  coreCe : List (Nat × List Nat)
  frameCe : List (Nat × List Nat)
  subs : List SubReq
  comet : Option Comet
  /-- A core whose contexts move back at the thaw (R646), and a comet step that waits for one (R632). -/
  cometBack : Option Comet
  cometHeld : Option (Nat × Nat)
  /-- The cluster whose turn it is, and each cluster's next logical core (R635). -/
  cometTurn : Nat
  cometCore : Vector Nat 8
  /-- Retirement requests waiting: frame and cause (R638). -/
  retireQ : List (Nat × Nat)
  /-- The frame retirement list (R640). -/
  retired : List Nat
  /-- The half of the handover under way or last made (R642). -/
  updHalf : Nat
  boot : Boot
  /-- This boot follows a warm reset (R662): DDR is not trained again. -/
  warmBoot : Bool
  /-- DDR is trained, or has left self-refresh, in this boot. -/
  trained : Bool
  /-- The configuration entry applied next (R673). -/
  cfgNext : Nat
  /-- The booted half (R667). -/
  bootHalf : Nat
  /-- The boot flash on the BF_ bus: what a read of it returns. An unlisted byte reads 0xFF. -/
  flash : List Host.Cell
  cst : Option CstJob
  /-- Warden context 0 was stopped by the ROM until the next reset (R669). -/
  romStopped : Bool
  /-- The cluster in partial eclipse, also while the whole device is frozen (R687, R702). -/
  eclPart : Option Nat
  /-- A partial eclipse in its freeze sequence: the cluster and the cause (R687). -/
  eclWait : Option (Nat × Nat)
  /-- A warm reset held for the thaw (R702): its RST_CAUSE.CAUSE. -/
  heldReset : Option Nat
  /-- Trace records written since the last Time record, and whether the unit owes a Lost record (R699, R700). -/
  traceSince : Nat
  traceOwed : Bool
  /-- Pulses driven on ECLIPSE_OUT_N (R684). -/
  eclOut : Nat
  /-- The TAP (R689, R690, R692): its instruction, DUMP_PTR, the data register last captured, the latest DBGREG access
  as OFFSET, WRITE and DATA, and the boundary scan register. -/
  tapIr : Byte
  tapPtr : Word
  tapOut : BitVec 50
  dbgOp : Option (Byte × Bool × Word)
  bsr : List Bool
  /-- A restart of the DBG block held for the thaw (R645). -/
  dbgDue : Bool
deriving DecidableEq, Repr

/-- The address map's memory after reset lists nothing. The reset value of SR (R99): RMD 0b001, WD 1, PL
supervisor, or warden for a warden context. -/
def srReset (c : Cid) : Word := if c.getLsbD 9 then 0x460100#40 else 0x420100#40

/-- A BTR at reset (R310): BTR7 maps everything onto itself, the others are invalid. -/
def btrReset : Vector Btr 8 :=
  (Vector.replicate 8 { vbase := 0, size := 0, pbase := 0, attr := 0 }).set 7
    { vbase := 0, size := 0xFFFFFF, pbase := 0, attr := 0x31 }

/-- A context after reset (R99, R104, R310, R323). Warden context 0 of warden core 0 runs, from vector 0 of
its VBR (R265); every other context is halted. DESIGN CHOICE, log 6. -/
def Ctx.init (c : Cid) : Ctx :=
  { run := if c = 0x200#12 then .running else .halted
    wait := none
    pc := if c = 0x200#12 then 0xFFFFF00000 else 0
    a := Vector.replicate 15 0, d := Vector.replicate 8 0, win := Vector.replicate 4 (Vector.replicate 8 0)
    x := Vector.replicate 4 0, sr := srReset c, fsr := 0, ph := 0, pl := 0
    ls := Vector.replicate 4 0, le := Vector.replicate 4 0, lc := Vector.replicate 4 0, rc := 0, esw := 0
    krr := 0xFFFFFFFF, stag := 0, vbr := if c = 0x200#12 then 0xFFFFF00000 else 0, role := 0, tkt := 0
    spu := 0, sps := 0, btr := btrReset, staleBtr := [], lazyAddr := 0, lazyWide := false, prods := [], pend := []
    strOp := none, lastRan := 0, heldMsg := none, depthOpen := 0, onVector := false, moving := false
    skip := false, atEngine := false, late := none, linesIn := 0 }

/-- A core after reset. -/
def CoreSt.init : CoreSt :=
  { fastA := Vector.replicate 8 0, fastD := Vector.replicate 8 0, sb := [], lines := [], tlb := [], walk := [], keys := []
    cycBase := 0 }

/-- A routing entry after reset (R304). -/
def Irt.init : Irt := { target := 0, level := 0, urgent := false, enable := false }

/-- The machine right after cold reset: every table at its default. DEDUCED, log 7. DESIGN CHOICE, log 8. -/
def State.reset : State :=
  { pending := [], free := 0, ticks := 0, creg := [], mem := [], ue := [], dramCap := 0x4000000000, fkey := [], ctx := [], core := [], sched := 0
    inval := [], eclInv := [], lockSet := [], irt := [], swi := [], intake := []
    traceq := [], traceLost := 0, stopped := false, tbSec := 0, tbNs := 0, tbFrac := 0
    acct := [], ceBase := false, fmtRanges := [], coldClear := true, tickets := [], tktStamp := 0
    tports := Vector.replicate 11 [], tptr := 0, banks := Vector.replicate 8 [], cutOp := none, prelOp := none
    remoteOps := [], replayEntries := []
    ix := Vector.replicate 2 { txq := [], replay := [], seq := 0, rxSeq := 0, credit := Vector.replicate 4 0, crcRun := 0, fails := 0 }
    ixTag := 0, ixHold := [], ixRing := false, ixHeard := false, ixElse := [], ixIn := [], ffOut := [], noPrim := 0
    queues := [], qstamp := 0, qports := Vector.replicate 15 [], qptr := 0, qtags := [], orphans := [], msix := 0
    jr := { batch := none, prevHash := List.replicate 32 0, pre := [], round := none, carry := none, roll := none
            rollDue := false, jsns := [], scanned := none
            slots := Vector.replicate 2 Slot.empty, life := [], warned := [], lastId := 0, resume := 0, rd := none, gaspRetries := 0 }
    weigh := [], wgSec := 0, wgNs := 0
    own := [], claimRes := [], ownSel := [], framers := [], ready := [], dropSec := [], usbErr := [], usbTog := [], ctlReq := []
    txHeld := [], wire := [], tmOut := 0, tmAt := []
    netFifo := [], pauseSent := 0, txReports := [], roleSet := false, hostCpl := none, pciReq := none, pciSec := 0, qmsgSec := 0
    cutAt := none, gcutOn := false, jsnAsked := false, hiEpoch := 0, tableSeen := false, noQuorum := false, memRds := [], ixLnk := []
    vault := [], jobs := Vector.replicate 4 Job.idle, unitLast := Vector.replicate 2 3, drbgJobs := 0
    recs := [], recLost := 0, protNext := 61440, swCopies := [], clears := [], clearRun := none, opTicks := 0, grantTicks := 0
    vdd := none, pwrUp := none, pwrRun := 0, pmbLow := false, pmbHold := false, trip := none, coolRun := 0, sugAt := [], sugSec := []
    coreCe := [], frameCe := [], subs := [], comet := none, cometBack := none, cometHeld := none, cometTurn := 0
    cometCore := Vector.replicate 8 0, retireQ := [], retired := [], updHalf := 0
    boot := .pll, warmBoot := false, trained := false, cfgNext := 0, bootHalf := 0, flash := [], cst := none, romStopped := false
    eclPart := none, eclWait := none, heldReset := none, traceSince := 0, traceOwed := false, eclOut := 0
    tapIr := 1, tapPtr := 0, tapOut := 0, dbgOp := none, bsr := [], dbgDue := false
  }

end Sys2Proof.Machine
end

