-- ==== Sys2Proof/Machine/Ops.lean ====
section
/-! DEFINITION. The named operations over control registers, physical memory, contexts, page errors,
interrupts and the recorder's intake. -/

namespace Sys2Proof.Machine

/-! ### Control registers -/

/-- The stored value of the register at an address. -/
def State.reg (s : State) (a : Nat) : Word := tabGet (resetValue a) s.creg a

/-- Set the stored value of the register at an address. -/
def State.setReg (s : State) (a : Nat) (v : Word) : State :=
  { s with creg := tabSet (resetValue a) s.creg a v }

/-- Read a field. -/
def State.get (s : State) (f : Fld) : Nat := getF (s.reg f.addr) f.lo f.len

/-- Write a field, keeping the register's other bits. -/
def State.put (s : State) (f : Fld) (v : Nat) : State := s.setReg f.addr (putF (s.reg f.addr) f.lo f.len v)

/-- Is a one-bit field set? -/
def State.flag (s : State) (f : Fld) : Bool := s.get f == 1

/-- Add to a field modulo its width. -/
def State.bump (s : State) (f : Fld) (n : Nat) : State := s.put f (s.get f + n)

/-- Add one to a saturating field. -/
def State.bumpSat (s : State) (f : Fld) : State := s.put f (satInc f.len (s.get f))

/-! ### Free values -/

/-- Draw one free value: its index, and the state with the counter advanced. -/
def State.draw (s : State) : Nat × State := (s.free, { s with free := s.free + 1 })

/-! ### Requesters, page errors and page interrupts -/

/-- PG_ERR_SYNDROME.PL of a requester (R41). -/
def reqPl : Requester → Nat
  | .ctx _ pl => pl.toNat
  | .host => 2
  | .engine => 0

/-- Does a warden context make the access? -/
def reqWarden : Requester → Bool
  | .ctx _ pl => pl == 3#2
  | _ => false

/-- A supervisor or warden context, or the host? DEDUCED, log 32. -/
def reqSup : Requester → Bool
  | .ctx _ pl => pl != 0#2
  | .host => true
  | .engine => true

/-- Parameter P2 of event 0x6401 (R27). -/
def reqCode : Requester → Nat
  | .ctx cid _ => cid.toNat
  | .host => 0xFFF
  | .engine => 0xFFE

/-- A page records an error (R41): the syndrome while ERR is 0, OVF afterwards. INTERNAL is 1 where no requester's access
caused it: an engine's access to an unassigned address is one (code 0x07). -/
def State.pageErr (s : State) (page code off : Nat) (r : Requester) (write : Bool) : State :=
  if s.flag (F.HDR.PG_INT_STATUS.ERR page) then s.put (F.HDR.PG_ERR_SYNDROME.OVF page) 1
  else
    let v := code + 0x100 * (off % 4096) + 0x100000 * reqPl r + 0x400000 * b2n write
      + 0x800000 * b2n (r == .engine && code != 7)
    (s.setReg (R.HDR.PG_ERR_SYNDROME page) (BitVec.ofNat 40 v)).put (F.HDR.PG_INT_STATUS.ERR page) 1

/-- A page sets a block event bit of PG_INT_STATUS (R40). -/
def State.pageInt (s : State) (page bit : Nat) : State := s.put (F.HDR.PG_INT_STATUS.EVENT page bit) 1

/-- Is a page enabled? -/
def State.enabled (s : State) (page : Nat) : Bool := s.flag (F.HDR.PG_CTRL.ENABLE page)

/-- Is a restart of the block that owns a page running (R47)? The block's restarting page is the first of
its block. -/
def State.restarting (s : State) (page : Nat) : Bool :=
  s.flag (F.HDR.PG_CTRL.BLOCK_RESET (ctlBase + 0x10000 * (if 0x20 ≤ blkIdx page then 0xD else blkIdx page)))

/-! ### The recorder's intake -/

/-- Is the event bound for a protected partition (R609, R613)? -/
def protectedEvent (code : Nat) : Bool :=
  code == 0x0F01 || code == 0x0F03 || (0x1A01 ≤ code && code ≤ 0x1A04) || code == 0x1601

/-- The intake takes an event, or loses and counts it when it is full (R608). A protected event, or a software
event with severity bit 3, is never lost. Answers whether it was taken. -/
def State.takeEvent (s : State) (code source sev : Nat) (p0 p1 p2 : Nat) : Bool × State :=
  if s.intake.length < 64 || protectedEvent code || bitOf sev 3 then
    (true, { s with intake := s.intake ++ [{ code := code, source := source, severity := sev, p0 := BitVec.ofNat 40 p0,
                                             p1 := BitVec.ofNat 40 p1, p2 := BitVec.ofNat 40 p2 }] })
  else (false, ({ s with recLost := s.recLost + 1 }.bumpSat F.REC.LOST.INTAKE).pageInt pgREC 2)

/-- A full eclipse starts (R683, R684): 1 pin, 2 warden, 3 comparator, 4 recorder, 5 TAP. Event 0x1901 enters the
intake without triggering anew. A trigger during a freeze sequence has no effect (R702), nor has one in last gasp.
DEDUCED, log 83. -/
def State.fullEclipse (s : State) (cause : Nat) : State :=
  if s.get F.DBG.ECL_STATUS.STATE = 1 ∨ s.eclWait.isSome ∨ s.stopped then s
  else
    let s1 := ((s.put F.DBG.ECL_STATUS.STATE 1).put F.DBG.ECL_STATUS.CAUSE cause).bumpSat F.DBG.ECL_STATUS.FREEZES
    let s2 := if s.flag F.DBG.ECL_CFG.OUT_EN then { s1 with eclOut := s1.eclOut + 1 } else s1
    (s2.takeEvent 0x1901 0x19 2 cause 0 0).2

/-- Does an event meet the recorder trigger (R683)? DEDUCED, log 56. -/
def State.recTrigger (s : State) (code sev : Nat) : Bool :=
  s.flag F.DBG.ECL_CFG.REC_EN && (decide (s.get F.DBG.ECL_CFG.REC_SEV ≤ sev % 8) ||
    (s.get F.DBG.ECL_CFG.REC_CODE != 0 && s.get F.DBG.ECL_CFG.REC_CODE == code))

/-- A block raises an event (R608). An event taken into the intake may trigger a full eclipse (R683). -/
def State.event (s : State) (code source sev : Nat) (p0 p1 p2 : Nat) : State :=
  match s.takeEvent code source sev p0 p1 p2 with
  | (true, s1) => if s.recTrigger code sev then s1.fullEclipse 4 else s1
  | (false, s1) => s1

/-- An access to an unassigned address (R27): code 0x07 on the SYS page and event 0x6401. -/
def State.unassigned (s : State) (r : Requester) (a : Nat) (write : Bool) : State :=
  (s.pageErr pgSYS 7 a r write).event 0x6401 0x64 2 a (reqPl r + 4 * b2n write) (reqCode r)

/-! ### Physical memory -/

/-- The regions of the physical map (R26, R307). -/
inductive Region where
  | dram | pcie | ixlink | codeStore | sram | control | bootRom | unassigned
deriving DecidableEq, Repr

/-- Where assigned DRAM ends: installed capacity less the key-store reserve (R308). -/
def State.dramEnd (s : State) : Nat := s.dramCap - s.dramCap / 4096

/-- Is an address in the control-space region (R26)? -/
def inControl (a : Nat) : Bool := decide (0xFFF0000000 ≤ a) && decide (a < 0xFFF1000000)

/-- Is an address in the queue state window? -/
def inWindow (a : Nat) : Bool := decide (qwBase ≤ a) && decide (a < qwBase + 0x80000)

/-- The region of a physical address (R26, R27, R308). An address of the control-space region on no page and outside the
queue state window is unassigned. Warden local SRAM is unassigned to all but its own core's
contexts (R590). DEDUCED, log 86. -/
def State.region (s : State) (a : Nat) : Region :=
  if a < s.dramEnd then .dram
  else if 0xC000000000 ≤ a ∧ a < 0xE000000000 then .pcie
  else if 0xE000000000 ≤ a ∧ a < 0xF000000000 then .ixlink
  else if 0xFE00000000 ≤ a ∧ a < 0xFE02000000 then .codeStore
  else if 0xFE80000000 ≤ a ∧ a < 0xFE81000000 then (if 0xFE80F00000 ≤ a ∧ a < 0xFE80F40000 then .unassigned else .sram)
  else if inControl a then (if inWindow a || (pageOf a).isSome then .control else .unassigned)
  else if 0xFFFFF00000 ≤ a ∧ a < 0x10000000000 then .bootRom
  else .unassigned

/-- Is the region memory that the machine itself holds? -/
def Region.isMem : Region → Bool
  | .dram | .codeStore | .sram | .bootRom => true
  | _ => false

/-- One byte of memory; an unlisted byte reads zero. DESIGN CHOICE, log 3. -/
def State.byte (s : State) (a : Nat) : Byte := tabGet 0 s.mem a

/-- `n` bytes from an address, wrapping at 2^40 (R133). -/
def State.bytes (s : State) : Nat → Nat → List Byte
  | _, 0 => []
  | a, n + 1 => s.byte (a % 2 ^ 40) :: s.bytes (a + 1) n

/-- Clear the uncorrectable mark of a rewritten byte (R332). -/
def ueClear (t : List (Nat × Nat)) (a : Nat) : List (Nat × Nat) :=
  let m := tabGet 0 t (a / 64)
  if bitOf m (a % 64) then tabSet 0 t (a / 64) (m - 2 ^ (a % 64)) else t

/-- Store one byte of memory. -/
def State.setByte (s : State) (a : Nat) (b : Byte) : State :=
  { s with mem := tabSet 0 s.mem a b, ue := ueClear s.ue a }

/-- Store bytes at an address, wrapping at 2^40. -/
def State.setBytes (s : State) : Nat → List Byte → State
  | _, [] => s
  | a, b :: bs => (s.setByte (a % 2 ^ 40) b).setBytes (a + 1) bs

/-- Read a 40-bit word (R50). -/
def State.word (s : State) (a : Nat) : Nat := leVal (s.bytes a 5)

/-- Does any byte of a range lie on a line with an uncorrectable mark (R332)? -/
def State.ueAt (s : State) (a n : Nat) : Bool :=
  tabGet 0 s.ue (a % 2 ^ 40 / 64) != 0 || (n != 0 && tabGet 0 s.ue ((a + n - 1) % 2 ^ 40 / 64) != 0)

/-- Mark a line uncorrectable. -/
def State.markUe (s : State) (line : Nat) : State := { s with ue := tabSet 0 s.ue line (2 ^ 64 - 1) }

/-! ### Frame keys (R322) -/

/-- The key-store byte of a frame. -/
def State.keyByte (s : State) (frame : Nat) : Byte := tabGet 0 s.fkey frame

/-- Set the key-store byte of a frame. -/
def State.setKeyByte (s : State) (frame : Nat) (b : Byte) : State := { s with fkey := tabSet 0 s.fkey frame b }

/-- Does a physical address lie in a frame with a key-store byte? -/
def Region.hasKey : Region → Bool
  | .dram | .codeStore | .sram => true
  | _ => false

/-- Has the frame of an address a key-store byte? Warden local SRAM belongs to the on-chip SRAM (R590). -/
def State.keyed (s : State) (a : Nat) : Bool := (s.region a).hasKey || (decide (0xFE80F00000 ≤ a) && decide (a < 0xFE80F40000))

/-- Set REF (bit 4) or CHG (bit 5) of the frame of an address, where it has a key-store byte (R325). -/
def State.setFrameBit (s : State) (a : Nat) (m : Byte) : State :=
  if s.keyed a then s.setKeyByte (a / 4096) (s.keyByte (a / 4096) ||| m) else s

/-- Set CHG on every frame a range of bytes touches. -/
def State.setChg (s : State) (a n : Nat) : State :=
  if n = 0 then s else
  let s1 := s.setFrameBit a 0x20#8
  if (a + n - 1) / 4096 = a / 4096 then s1 else s1.setFrameBit (a + n - 1) 0x20#8

/-- A store that passed its checks (R325): bytes become visible and CHG is set. -/
def State.storeBytes (s : State) (a : Nat) (bs : List Byte) : State := (s.setChg a bs.length).setBytes a bs

/-- The first address of a range at an end of which no memory lies (R27). -/
def State.firstUnassigned (s : State) (a n : Nat) : Option Nat :=
  if n = 0 then none
  else if s.region (a % 2 ^ 40) = .unassigned then some (a % 2 ^ 40)
  else if s.region ((a + n - 1) % 2 ^ 40) = .unassigned then some ((a + n - 1) % 2 ^ 40)
  else none

/-- Bytes of a store that lie in memory; the others are ignored (R27). -/
def State.storeAssigned (s : State) : Nat → List Byte → State
  | _, [] => s
  | a, b :: bs =>
    (if (s.region (a % 2 ^ 40)).isMem then s.storeBytes (a % 2 ^ 40) [b] else s).storeAssigned (a + 1) bs

/-- An engine's store (R27, R325). -/
def State.engineWrite (s : State) (a : Nat) (bs : List Byte) : State :=
  match s.firstUnassigned a bs.length with
  | none => s.storeBytes a bs
  | some u => (s.unassigned .engine u true).storeAssigned a bs

/-- An engine's read (R27): an unassigned byte reads zero, as no byte is listed there. Answers what is recorded of it. -/
def State.engineReads (s : State) (a n : Nat) : State :=
  match s.firstUnassigned a n with
  | none => s
  | some u => s.unassigned .engine u false

/-- Is every byte of a range in assigned DRAM? -/
def State.inDram (s : State) (a n : Nat) : Bool := decide (a + n ≤ s.dramEnd)

/-! ### Contexts and cores -/

/-- A context. -/
def State.cx (s : State) (c : Cid) : Ctx := tabGet (Ctx.init c) s.ctx c.toNat

/-- Replace a context. -/
def State.setCx (s : State) (c : Cid) (x : Ctx) : State :=
  { s with ctx := tabSet (Ctx.init c) s.ctx c.toNat x }

/-- Change a context. -/
def State.modCx (s : State) (c : Cid) (f : Ctx → Ctx) : State := s.setCx c (f (s.cx c))

/-- A warden context? -/
def isWardenCid (c : Cid) : Bool := c.getLsbD 9

/-- Is the value a CID of an existing context (R105)? -/
def validCid (c : Cid) : Bool :=
  decide (c.toNat < 512) || (decide (0x200 ≤ c.toNat ∧ c.toNat < 0x220) && decide (c.toNat % 8 < 2))

/-- The logical core of a context: 0–63, or 64–67 for warden cores. -/
def coreIdx (c : Cid) : Nat := if isWardenCid c then 64 + c.toNat / 8 % 4 else c.toNat / 8 % 64

/-- The contexts of a logical core. -/
def coreCids (k : Nat) : List Cid :=
  if k < 64 then (List.range 8).map (fun i => BitVec.ofNat 12 (8 * k + i))
  else (List.range 2).map (fun i => BitVec.ofNat 12 (0x200 + 8 * (k - 64) + i))

/-- A core. -/
def State.core_ (s : State) (k : Nat) : CoreSt := tabGet CoreSt.init s.core k

/-- Replace a core. -/
def State.setCore (s : State) (k : Nat) (x : CoreSt) : State := { s with core := tabSet CoreSt.init s.core k x }

/-- The physical core that serves a logical core of a cluster (R110). -/
def State.physOf (s : State) (clu lc : Nat) : Nat := s.get (F.CLU.CORE_MAP.LC (pgClu clu) lc)

/-- The core page through which a context is reached (R300). -/
def State.corePage (s : State) (c : Cid) : Nat :=
  if isWardenCid c then pgWcore (c.toNat / 8 % 4)
  else pgCore (c.toNat / 64 % 8) (s.physOf (c.toNat / 64 % 8) (c.toNat / 8 % 8))

/-- The context's number within its core. -/
def ctxNo (c : Cid) : Nat := c.toNat % 8

/-- Is the context's core pair joined in Conjunction (R111, R114)? -/
def State.wide (s : State) (c : Cid) : Bool :=
  !isWardenCid c && s.flag (F.CLU.CONJ_STATUS.JOINED (pgClu (c.toNat / 64 % 8)) (c.toNat / 16 % 4))

/-- The register width W of the context's mode (R84, R145). -/
def State.width (s : State) (c : Cid) : Nat := if s.wide c then 80 else 40

/-- Does an address lie in the rescue area of a warden context? -/
def State.inRescue (s : State) (a : Nat) : Bool :=
  (List.range 8).any (fun i =>
    let p := pgWcore (i / 2)
    let b := 512 * s.get (F.CORE.CTX_RESCUE.BASE p (i % 2))
    s.flag (F.CORE.CTX_RESCUE.VALID p (i % 2)) && decide (b ≤ a) && decide (a < b + 512))

/-- What a warden context still reaches in last gasp beside its local SRAM (R678): the WRD, SEC, JRN, CRT, REC and CPR
pages, and the rescue areas. -/
def State.inGasp (s : State) (a : Nat) : Bool :=
  s.inRescue a || (match pageOf a with
    | some .wrd | some .wcore | some .sec | some .vault | some .jrn | some .crt | some .recp | some .cpr => true
    | _ => false)

/-- The region of a physical address as a context reaches it (R590, R678). -/
def State.regionOf (s : State) (c : Cid) (a : Nat) : Region :=
  if isWardenCid c ∧ a / 65536 = 0xFE80F0 + c.toNat / 8 % 4 then .sram
  else if s.stopped && !s.inGasp a then .unassigned
  else s.region a

/-! ### SR fields (R99) -/

def srC (w : Word) : Bool := w.getLsbD 0
def srV (w : Word) : Bool := w.getLsbD 1
def srZ (w : Word) : Bool := w.getLsbD 2
def srN (w : Word) : Bool := w.getLsbD 3
def srDC (w : Word) : Bool := w.getLsbD 4
def srDV (w : Word) : Bool := w.getLsbD 5
def srRMD (w : Word) : Nat := getF w 8 3
def srFRM (w : Word) : Nat := getF w 11 3
def srCT (w : Word) : Bool := w.getLsbD 15
def srDVT (w : Word) : Bool := w.getLsbD 16
def srPL (w : Word) : BitVec 2 := w.extractLsb' 17 2
def srFB (w : Word) : Bool := w.getLsbD 19
def srCWP (w : Word) : Nat := getF w 20 2
def srWD (w : Word) : Nat := getF w 22 3
def srLD (w : Word) : Nat := getF w 27 3
def srIE (w : Word) : Bool := w.getLsbD 30
def srIPL (w : Word) : Nat := getF w 31 4
def srSOM (w : Word) : Bool := w.getLsbD 35
def srES (w : Word) : Bool := w.getLsbD 36
def srRP (w : Word) : Bool := w.getLsbD 37
def srLZ (w : Word) : Bool := w.getLsbD 38

/-- The right for a storage key (R102): key 0's right follows the privilege. -/
def keyRight (krr : BitVec 32) (pl : BitVec 2) (key : Nat) : Nat :=
  if key = 0 then (if pl = 0#2 then 0 else 3) else bitsOf krr.toNat (2 * key) 2

/-- KRR as MFS reads it (R102). -/
def krrRead (krr : BitVec 32) (pl : BitVec 2) : BitVec 32 :=
  (krr &&& 0xFFFFFFFC#32) ||| (if pl = 0#2 then 0 else 3)

/-! ### Interrupt sources (R287) -/

/-- Is an interrupt source asserted? -/
def State.asserted (s : State) (n : Nat) : Bool :=
  if n < 205 then
    let p := sourcePage n
    s.flag (F.HDR.PG_CAP.INT_PRESENT p) &&
      (s.reg (R.HDR.PG_INT_STATUS p) &&& s.reg (R.HDR.PG_INT_ENABLE p)) != 0
  else if 256 ≤ n ∧ n < 448 then
    s.flag (F.GPIO.GP.FLAG (n - 256)) && s.flag (F.GPIO.GP.IE (n - 256))
  else if 448 ≤ n ∧ n < 512 then
    let t := n - 448
    (if t < 40 then (s.reg R.TIMER.TM_FLAG0).getLsbD t else (s.reg R.TIMER.TM_FLAG1).getLsbD (t - 40)) &&
      s.flag (F.TIMER.TM_CFG.IE t)
  else if 512 ≤ n ∧ n < 768 then tabGet false s.swi n
  else false

/-- The routing entry of a source. -/
def State.irtOf (s : State) (n : Nat) : Irt := tabGet Irt.init s.irt n

/-- A context with SR.FB 1 on a core, if any (R93, R288). -/
def State.fbHolder (s : State) (k : Nat) : Option Cid := (coreCids k).find? (fun c => srFB (s.cx c).sr && (s.cx c).run != .halted)

/-- Is a source pending at a context, and would the context take it now (R288, R289)? -/
def State.takes (s : State) (c : Cid) (n : Nat) : Bool :=
  let e := s.irtOf n
  let x := s.cx c
  e.enable && e.target == c && s.asserted n && !x.moving && x.run != .halted &&
    (if e.urgent then (s.fbHolder (coreIdx c)).isNone
     else srIE x.sr && decide (srIPL x.sr < e.level) && !srFB x.sr)

/-- The rank of a source: urgent above level 15; then the lowest source number first (R288, R12). -/
def State.rank (s : State) (n : Nat) : Nat := let e := s.irtOf n; if e.urgent then 16 else e.level

/-- Of two candidate sources the one taken first. -/
def State.betterSource (s : State) (best : Option Nat) (n : Nat) : Option Nat :=
  match best with
  | none => some n
  | some b => if s.rank b < s.rank n ∨ (s.rank b = s.rank n ∧ n < b) then some n else some b

/-- The interrupt a context would take now: only routed sources can be enabled, so the routing table lists
every candidate. -/
def State.pendingInt (s : State) (c : Cid) : Option Nat :=
  (s.irt.map (·.1)).foldl (fun best n => if s.takes c n then s.betterSource best n else best) none

/-! ### Wake-ups and switching (R292–R294) -/

/-- A waiting context becomes ready. -/
def State.makeReady (s : State) (c : Cid) : State :=
  if (s.cx c).run = .waiting then s.modCx c (fun x => { x with run := .ready, wait := none }) else s

/-- The running context of a core, if any. -/
def State.running (s : State) (k : Nat) : Option Cid := (coreCids k).find? (fun c => (s.cx c).run == .running)

/-- CTXc_CFG.PRIO of a context. -/
def State.prio (s : State) (c : Cid) : Nat := s.get (F.CORE.CTX_CFG.PRIO (s.corePage c) (ctxNo c))

/-- Does the scheduler choose `b` over `a` (R292)? -/
def State.prefers (s : State) (a b : Cid) : Bool :=
  let ra := match s.pendingInt a with | some n => s.rank n + 1 | none => 0
  let rb := match s.pendingInt b with | some n => s.rank n + 1 | none => 0
  decide (ra < rb) || (ra == rb && (decide (s.prio a < s.prio b) ||
    (s.prio a == s.prio b && decide ((s.cx b).lastRan < (s.cx a).lastRan))))

/-- The scheduler's choice among ready contexts of a core. -/
def State.choice (s : State) (k : Nat) : Option Cid :=
  ((coreCids k).filter (fun c => (s.cx c).run == .ready && !(s.cx c).moving)).foldl
    (fun best c => match best with
      | none => some c
      | some b => if s.prefers b c then some c else some b) none

/-- Empty a core's line buffer (R262). -/
def State.emptyLines (s : State) (k : Nat) : State := s.setCore k { s.core_ k with lines := [] }

/-- The products of a context land, oldest first (R165, R167). -/
def Ctx.land (x : Ctx) : Ctx :=
  match x.prods.getLast? with
  | none => x
  | some (h, l) => { x with ph := h, pl := l, prods := [] }

/-- Take the running context off its core into a state, after its landings (R167, R254). -/
def State.stopRun (s : State) (c : Cid) (r : RunSt) (w : Option WaitCond) : State :=
  { s.modCx c (fun x => { x.land with run := r, wait := w, lastRan := s.sched + 1 }) with sched := s.sched + 1 }

/-! ### Trace and performance counters (R699–R701) -/

/-- CYC of a logical core (R96): LCLK cycles since release; how many cycles pass is not modelled. -/
def State.cyc (s : State) (k : Nat) : Word :=
  BitVec.ofNat 40 (Config.cycles k s.ticks + 2 ^ 40 - (s.core_ k).cycBase % 2 ^ 40)

/-- The trace unit takes a 16-byte record, or loses it when it holds 256 (R700). -/
def State.traceRec (s : State) (bs : List Byte) : State :=
  if s.traceq.length < 256 then { s with traceq := s.traceq ++ [bs] }
  else { s.bumpSat F.DBG.TR_STATUS.LOST with traceLost := s.traceLost + 1 }

/-- Does ITRACE record a context (R699, R700)? -/
def State.tracing (s : State) (c : Cid) : Bool :=
  let t := s.reg R.DBG.TR_CTRL
  t.getLsbD 0 && t.getLsbD 1 && ((c.toNat ^^^ getF t 4 12) &&& getF t 16 12 == 0)

/-- A transfer, exception entry or RTE record (kinds 1 to 3), from the PC before to the PC after. -/
def State.traceXfer (s : State) (kind : Nat) (c : Cid) (src : Word) (vec : Nat) : State :=
  if s.tracing c && !srCT (s.cx c).sr then
    s.traceRec (leBytes 1 kind ++ leBytes 2 c.toNat ++ leBytes 1 vec ++ leBytes 5 src.toNat ++
      leBytes 5 (s.cx c).pc.toNat ++ leBytes 2 (s.cyc (coreIdx c)).toNat)
  else s

/-- A switch-in record (kind 4). -/
def State.traceSwitch (s : State) (c : Cid) : State :=
  if s.tracing c then s.traceRec (leBytes 1 4 ++ leBytes 2 c.toNat ++ List.replicate 13 0) else s

/-- Does a counter's scope include an event of a context, or a device event (R701)? -/
def pmcScope (sel : Word) (c : Option Cid) : Bool :=
  match c with
  | none => true
  | some c =>
    (sel.getLsbD 9 || getF sel 6 3 == c.toNat / 64 % 8) && (sel.getLsbD 13 || getF sel 10 3 == c.toNat / 8 % 8) &&
      (sel.getLsbD 17 || getF sel 14 3 == c.toNat % 8)

/-- Count `n` occurrences of an event; an overflow sets bit 3 of the DBG page's PG_INT_STATUS (R701). -/
def State.count (s : State) (ev : Nat) (c : Option Cid) (n : Nat) : State :=
  (List.range 16).foldl (fun s i =>
    let sel := s.reg (R.DBG.PMC_SEL i)
    if sel.getLsbD 18 && getF sel 0 6 == ev && pmcScope sel c then
      let v := (s.reg (R.DBG.PMC_COUNT i)).toNat + n
      let s1 := s.setReg (R.DBG.PMC_COUNT i) (BitVec.ofNat 40 v)
      if 2 ^ 40 ≤ v then s1.pageInt pgDBG 3 else s1
    else s) s

/-! ### Switching in (R254, R292) -/

/-- Start running a context on its core (R254): a context switch (R699, R701). -/
def State.startRun (s : State) (c : Cid) : State :=
  (((s.modCx c (fun x => { x with run := .running })).emptyLines (coreIdx c)).traceSwitch c).count 8 (some c) 1

/-- An idle core runs its scheduler's choice. -/
def State.dispatch (s : State) (k : Nat) : State :=
  match s.running k with
  | some _ => s
  | none => match s.choice k with
    | some c => s.startRun c
    | none => s

/-! ### Eclipse (R683, R684, R687) -/

/-- Is a cluster frozen or freezing, or the whole device frozen? -/
def State.frozen (s : State) (clu : Option Nat) : Bool :=
  s.get F.DBG.ECL_STATUS.STATE == 1 || (match clu with
    | some n => s.eclPart == some n || s.eclWait.any (·.1 == n)
    | none => false)

/-- The power domain of a page (R11). -/
def domainOf (page : Nat) : Nat :=
  match blkIdx page with
  | 0x09 => 1 | 0x0A => 11 | 0x0B => 12 | 0x0C => 13 | 0x0D => 16 | 0x0E => 17 | 0x0F => 18 | 0x10 => 18 | 0x11 => 19
  | 0x12 => 15 | 0x13 => 14 | 0x14 => 0 | 0x15 => 10 | 0x16 => 0 | 0x17 => 10 | 0x18 => 19
  | b => if 1 ≤ b ∧ b ≤ 8 then b + 1 else if 0x20 ≤ b then 16 else 10

/-- Is a power domain on? PD0 always is (R657). -/
def State.powered (s : State) (pd : Nat) : Bool := pd == 0 || bitOf (s.get F.CPR.PD_STATUS.POWERED) pd

/-- Is a reference clock present (R655): 0 REFCLK, 1 SDREFCLK, 2 PEREFCLK, 3 USBREFCLK? -/
def State.refClk (s : State) (i : Nat) : Bool := bitOf (s.get F.CPR.CLK_STATUS.REF_OK) i

/-- Does a warm reset hold the block back (R662 step 1)? -/
def State.quiesced (s : State) (page : Nat) : Bool :=
  s.boot == .warm && (let b := blkIdx page; b == 0xA || b == 0xE || b == 0xF || b == 0x10 || b == 0x11)

/-- Does the block of a page run: powered, not frozen, not restarting, not held back by a warm reset, and after PFAIL_N
falls only the warden and crypto (R19)? -/
def State.live (s : State) (page : Nat) : Bool :=
  s.powered (domainOf page) && !s.frozen none && !s.restarting page && !s.quiesced page &&
    (!s.stopped || blkIdx page == 9 || blkIdx page == 0x18)

/-- The power domain of a logical core. -/
def corePd (k : Nat) : Nat := if k < 64 then 2 + k / 8 else 1

/-- Is a logical core the odd core of a joined pair, which takes no contexts (R111)? -/
def State.oddJoined (s : State) (k : Nat) : Bool :=
  decide (k < 64) && k % 2 == 1 && s.flag (F.CLU.CONJ_STATUS.JOINED (pgClu (k / 8)) (k % 8 / 2))

/-- Does a logical core run: its cluster powered and enabled (R37, R49), its contexts not stopped by a warm reset, last
gasp or an eclipse? -/
def State.coreLive (s : State) (k : Nat) : Bool :=
  s.powered (corePd k) && s.enabled (if k < 64 then pgClu (k / 8) else pgWRD) && !s.oddJoined k && s.boot != .warm && (!s.stopped || decide (64 ≤ k)) && !s.frozen (if k < 64 then some (k / 8) else none)

/-- Is a context at a boundary where it may go on: running, no queue instruction under way, not stopped for
a Conjunction transition (R115), its core live? -/
def State.canRun (s : State) (c : Cid) : Bool :=
  validCid c && (s.cx c).run == .running && !(s.cx c).atEngine && !(s.cx c).moving && s.coreLive (coreIdx c)

end Sys2Proof.Machine
end

