-- ==== Sys2Proof/Machine/Flags.lean ====
section
/-! DEFINITION. Binary and decimal arithmetic as pure functions on naturals and integers, and the flags
each computes (R53–R55, R144–R162, R168–R172). -/

namespace Sys2Proof.Machine

/-! ### SR flags -/

/-- Write bit `i` of a 40-bit word. -/
def setBit (w : Word) (i : Nat) (b : Bool) : Word := putF w i 1 (b2n b)

/-- Write C, V, Z and N (R145). -/
def setCVZN (sr : Word) (c v z n : Bool) : Word := setBit (setBit (setBit (setBit sr 0 c) 1 v) 2 z) 3 n

/-- Write Z and N. -/
def setZN (sr : Word) (z n : Bool) : Word := setBit (setBit sr 2 z) 3 n

/-! ### Binary (R145, R150) -/

/-- The top bit of a `w`-bit value. -/
def topBit (w v : Nat) : Bool := bitOf v (w - 1)

/-- The `w`-bit complement. -/
def notW (w v : Nat) : Nat := 2 ^ w - 1 - v % 2 ^ w

/-- `add_binary` of R150: result, carry and overflow. -/
def addBinary (w a b cin : Nat) : Nat × Bool × Bool :=
  let s := a % 2 ^ w + b % 2 ^ w + cin
  let r := s % 2 ^ w
  (r, bitOf s w, topBit w a == topBit w b && topBit w r != topBit w a)

/-- SR after a binary add or subtract with result, carry and overflow. -/
def flagsAdd (w : Nat) (sr : Word) (r : Nat × Bool × Bool) : Word :=
  setCVZN sr r.2.1 r.2.2 (r.1 == 0) (topBit w r.1)

/-- SR after a logical operation: Z and N of the result. -/
def flagsLogic (w : Nat) (sr : Word) (r : Nat) : Word := setZN sr (r == 0) (topBit w r)

/-- The shifts and rotates of R152. -/
inductive ShiftOp where
  | shl | shr | sar | rol | ror
deriving DecidableEq, Repr

/-- The result of a shift by `n`, and C where `n` is not 0 (R152). -/
def shiftW (w : Nat) (op : ShiftOp) (a n : Nat) : Nat × Bool :=
  let a := a % 2 ^ w
  match op with
  | .shl => ((if n < w then a * 2 ^ n % 2 ^ w else 0), if n ≤ w then bitOf a (w - n) else false)
  | .shr => ((if n < w then a / 2 ^ n else 0), if n ≤ w then bitOf a (n - 1) else false)
  | .sar =>
    ((if n < w then umod w (sint w a / (2 ^ n : Nat)) else if topBit w a then 2 ^ w - 1 else 0),
      if n < w then bitOf a (n - 1) else topBit w a)
  | .rol =>
    let k := n % w
    let r := (a * 2 ^ k + a / 2 ^ (w - k)) % 2 ^ w
    (r, bitOf r 0)
  | .ror =>
    let k := n % w
    let r := (a / 2 ^ k + a * 2 ^ (w - k)) % 2 ^ w
    (r, topBit w r)

/-- Leading zero bits among the low `n` bits (R153). -/
def clz : Nat → Nat → Nat
  | 0, _ => 0
  | n + 1, v => if bitOf v n then 0 else 1 + clz n v

/-- Trailing zero bits, at most `n`. -/
def ctz : Nat → Nat → Nat
  | 0, _ => 0
  | n + 1, v => if v % 2 = 1 then 0 else 1 + ctz n (v / 2)

/-- One bits among the low `n` bits. -/
def popc : Nat → Nat → Nat
  | 0, _ => 0
  | n + 1, v => v % 2 + popc n (v / 2)

/-! ### Decimal digits (R53–R55) -/

/-- Every one of the low `n` nibbles is 0 to 9 (R54). -/
def bcdOk : Nat → Nat → Bool
  | 0, _ => true
  | n + 1, v => decide (v % 16 < 10) && bcdOk n (v / 16)

/-- The low `n` nibbles read as an unsigned decimal integer. -/
def bcdVal : Nat → Nat → Nat
  | 0, _ => 0
  | n + 1, v => v % 16 + 10 * bcdVal n (v / 16)

/-- The low `n` decimal digits of a natural number as nibbles. -/
def toBcd : Nat → Nat → Nat
  | 0, _ => 0
  | n + 1, v => v % 10 + 16 * toBcd n (v / 10)

/-- The signed value of `n` digits in ten's complement (R53, R55). -/
def decVal (n v : Nat) : Int :=
  let u := bcdVal n v
  if u < 5 * 10 ^ (n - 1) then (u : Int) else (u : Int) - (10 ^ n : Nat)

/-- A signed integer modulo 10^n in ten's complement (R146). -/
def decOf (n : Nat) (i : Int) : Nat := toBcd n (i % (10 ^ n : Nat)).toNat

/-- Does a signed value fit `n` digits (R53, R55)? -/
def decFits (n : Nat) (i : Int) : Bool :=
  decide (-(5 * 10 ^ (n - 1) : Nat) ≤ i) && decide (i < (5 * 10 ^ (n - 1) : Nat))

/-- Z and N of a decimal result (R146). -/
def decZ (n v : Nat) : Bool := bcdVal n v == 0
def decN (n v : Nat) : Bool := decide (5 ≤ v / 16 ^ (n - 1) % 16)

/-- Nine's complement of `n` digits (R155). -/
def ninesComp (n v : Nat) : Nat := toBcd n (10 ^ n - 1 - bcdVal n v)

/-- `add_decimal` of R155: result, DC and DV. -/
def addDecimal (n a b cin : Nat) (u : Bool) : Nat × Bool × Bool :=
  let s := bcdVal n a + bcdVal n b + cin
  let r := toBcd n (s % 10 ^ n)
  (r, decide (10 ^ n ≤ s), !u && (decVal n a + decVal n b + cin != decVal n r))

/-- SR after a decimal operation that writes Z, N, DC and DV (R146). -/
def flagsDec (n : Nat) (sr : Word) (r : Nat) (dc dv : Bool) : Word :=
  setBit (setBit (setZN sr (decZ n r) (decN n r)) 4 dc) 5 dv

/-- SR after a decimal compare of signed values (R147). -/
def flagsDcmp (sr : Word) (a b : Int) : Word := setCVZN sr (decide (b ≤ a)) false (a == b) (decide (a < b))

/-- The rounding mode a rounding-select field names (R158): 0 the mode of SR.RMD, 1–7 RMD value RC − 1. -/
def rmSel (rc rmd : Nat) : Option Nat := if rc = 0 then some rmd else if rc < 8 then some (rc - 1) else none

/-- `round_shift` of R158: the rounded quotient, and whether a non-zero digit was dropped. -/
def roundShift (v : Int) (n mode : Nat) : Int × Bool :=
  let p := 10 ^ n
  let q := (v.natAbs / p : Nat)
  let r := v.natAbs % p
  let away := match mode with
    | 0 => false
    | 1 => r != 0 && decide (p ≤ 2 * r)
    | 2 => decide (p < 2 * r) || (r != 0 && p == 2 * r && q % 2 == 1)
    | 3 => decide (p < 2 * r)
    | 4 => r != 0 && decide (0 < v)
    | 5 => r != 0 && decide (v < 0)
    | 6 => r != 0
    | _ => false
  let m := if away then q + 1 else q
  ((if v < 0 then -(m : Int) else (m : Int)), r != 0)

/-! ### Packed fields (R57–R59, R161) -/

/-- The digits and sign of a packed field, most significant byte first; none on an invalid nibble. -/
def packedVal (bs : List Byte) : Option Int :=
  let v := beVal bs
  let sg := v % 16
  let dg := v / 16
  let n := 2 * bs.length - 1
  if !bcdOk n dg then none
  else if sg = 0xC ∨ sg = 0xF then some (bcdVal n dg : Int)
  else if sg = 0xD then some (-(bcdVal n dg : Int))
  else none

/-- An L-byte packed field holding the low 2L − 1 digits of a value's magnitude (R59, R161, R162). -/
def packedOf (l : Nat) (v : Int) : List Byte :=
  let m := v.natAbs % 10 ^ (2 * l - 1)
  beBytes l (16 * toBcd (2 * l - 1) m + (if v < 0 ∧ m ≠ 0 then 0xD else 0xC))

/-! ### Division steps (R171, R172) -/

/-- `step_binary`: PH, PL, C and V. -/
def stepBinary (w ph pl d : Nat) : Nat × Nat × Bool × Bool :=
  let t := (ph * 2 ^ w + pl) * 2
  let hi := t / 2 ^ w
  let q := decide (d ≤ hi)
  let hi' := if q then hi - d else hi
  (hi' % 2 ^ w, t % 2 ^ w + b2n q, q, decide (d ≤ hi'))

/-- `step_decimal` on digit values: PH, PL and DV. -/
def stepDecimal (n ph pl d : Nat) : Nat × Nat × Bool :=
  let t := (ph * 10 ^ n + pl) * 10
  let hi := t / 10 ^ n
  let q := if d = 0 then 9 else min (hi / d) 9
  let hi' := hi - q * d
  (hi' % 10 ^ n, t % 10 ^ n + q, decide (d ≤ hi'))

end Sys2Proof.Machine
end

