-- ==== Sys2Proof/Machine/CtxOps.lean ====
section
/-! DEFINITION. What a block can do to a context: halt it, stop its interruptible instruction at a unit
boundary, and freeze its core (R70, R219, R284–R286, R697, R728). -/

namespace Sys2Proof.Machine

/-- A valid code address: bits [5:4] zero and a slot below 12. -/
def codeOk (a : Word) : Bool := getF a 4 2 == 0 && decide (getF a 0 4 < 12)

/-! ### Going on (R69, R126, R127, R226, R229) -/

/-- `compute_target` of R126. -/
def codeTarget (pc : Word) (disp : Int) : Word :=
  let n : Int := (getF pc 6 34 * 12 + getF pc 0 4 : Nat)
  let t := ((n + disp) % (12 * 2 ^ 34 : Nat)).toNat
  BitVec.ofNat 40 (t / 12 * 64 + t % 12)

/-- The sequential successor (R127). -/
def codeNext (pc : Word) : Word := codeTarget pc 1

/-- Go on at a code address: a context stays on its vector line until it leaves it (R266). A line is entered by sequential flow
into another one, and by every transfer or loop end (R260). -/
def Ctx.goto (x : Ctx) (n : Word) (enters : Bool) : Ctx :=
  let same := n.toNat / 64 == x.pc.toNat / 64
  { x with pc := n, onVector := x.onVector && same, linesIn := x.linesIn + b2n (enters || !same) }

/-- The context past an instruction that completes without a transfer, with its loop ends applied (R226),
with fuel; the address of an invalid LS (R227). -/
def Ctx.loopEnd (x : Ctx) : Nat → Except Word Ctx
  | 0 => .ok (x.goto (codeNext x.pc) false)
  | f + 1 =>
    let d := srLD x.sr
    if h : 0 < d ∧ d ≤ 4 then
      let i : Fin 4 := ⟨d - 1, by omega⟩
      if x.le[i] = x.pc then
        if 1 < x.lc[i].toNat then
          if codeOk x.ls[i] then .ok ({ x with lc := x.lc.set i (x.lc[i] - 1) }.goto x.ls[i] true) else .error x.ls[i]
        else Ctx.loopEnd { x with lc := x.lc.set i 0, sr := putF x.sr 27 3 (d - 1) } f
      else .ok (x.goto (codeNext x.pc) false)
    else .ok (x.goto (codeNext x.pc) false)

/-- The context past its instruction: a repetition counts and holds the PC, else the loop ends apply
(R226, R229). -/
def Ctx.finish (x : Ctx) : Except Word Ctx :=
  let again := srRP x.sr && decide (1 < x.rc.toNat)
  let y := if srRP x.sr then { x with rc := x.rc - 1, sr := if again then x.sr else setBit x.sr 37 false } else x
  if again then .ok y else y.loopEnd 5

/-- A waiting context's wait instruction completes and the context is ready. Where its completion would raise
a code format fault the instruction executes again. -/
def State.finishWait (s : State) (c : Cid) : State :=
  match (s.cx c).finish with
  | .ok y => (s.setCx c y).makeReady c
  | .error _ => s.makeReady c

/-- An interruptible instruction stops at its unit boundary (R219): ESW and SR.ES are written once a unit has
completed; before that nothing has changed (R220). -/
def State.stopStr (s : State) (c : Cid) : State :=
  match (s.cx c).strOp with
  | none => s
  | some o => s.modCx c (fun x =>
      if o.begun then { x with strOp := none, esw := o.live, sr := setBit x.sr 36 true } else { x with strOp := none })

/-! ### The code-update handover (R643, R644) -/

/-- The ledger contexts. -/
def ledgerCids : List Cid := (List.range 512).map (BitVec.ofNat 12)

/-- CTXc_ROLESLOT of a context. -/
def State.roleslot (s : State) (c : Cid) : Word := s.reg (R.CORE.CTX_ROLESLOT (s.corePage c) (ctxNo c))

/-- Does a context still have to be handed over: it takes part, and is neither DONE, without an entry, nor halted? -/
def State.updAwaits (s : State) (c : Cid) : Bool :=
  let w := s.roleslot c
  w.getLsbD 8 && !w.getLsbD 9 && !w.getLsbD 10 && (s.cx c).run != .halted

/-- How many contexts the handover waits for. -/
def State.updPending (s : State) : Nat := (ledgerCids.filter s.updAwaits).length

/-- The handover is DONE once it waits for no context (R644): the half runs, event 0x170B and bit 1. -/
def State.updCheck (s : State) : State :=
  if s.get F.GOV.UPD_STATUS.STATE != 1 || s.updPending != 0 then s
  else
    let h := s.updHalf
    let none_ := (ledgerCids.filter (fun c => (s.roleslot c).getLsbD 8 && (s.roleslot c).getLsbD 10)).length
    let s1 := ((s.put F.GOV.UPD_STATUS.STATE 2).put F.GOV.UPD_STATUS.PENDING 0).put F.GOV.UPD_CTRL.START 0
    let s2 := (s1.put F.CST.HALFA_STATUS.RUNNING (b2n (h == 0))).put F.CST.HALFB_STATUS.RUNNING (b2n (h == 1))
    (s2.event 0x170B 0x17 1 h none_ 0).pageInt pgGOV 1

/-- Halt a context with a reason. For reasons 1 to 4 the core page reports it, the recorder notes it and a
context-halt message is held for HALT_QUEUE, unless one is held already. The fast bank is released; a HALT still due is complete (R302, R303). -/
def State.haltCtx (s : State) (c : Cid) (reason vec : Nat) (cause fault : Word) : State :=
  let x := (s.cx c).land
  let p := s.corePage c
  let msg := leBytes 1 reason ++ leBytes 1 vec ++ leBytes 2 c.toNat ++ leBytes 5 x.pc.toNat ++
    leBytes 5 x.sr.toNat ++ leBytes 5 cause.toNat ++ leBytes 5 fault.toNat ++ leBytes 5 x.sps.toNat ++
    leBytes 5 (s.cyc (coreIdx c)).toNat
  let s1 := s.setCx c { x with
    run := .halted, wait := none, strOp := none, lastRan := s.sched + 1
    heldMsg := if reason = 5 then x.heldMsg else some (x.heldMsg.getD msg) }
  let s2 := { s1 with sched := s.sched + 1 }
  let s3 := (s2.put (F.CORE.CTX_HALT.REASON p (ctxNo c)) reason).put (F.CORE.CTX_HALT.VECTOR p (ctxNo c)) vec
  let hb : Fld := ⟨R.CORE.CTX_CTRL p, 8 + ctxNo c, 1⟩
  let s4 := if reason = 5 then s3.pageInt p 2 else if s3.flag hb then (s3.pageInt p 1).pageInt p 2 else s3.pageInt p 1
  let s5 := (s4.put hb 0).event (if isWardenCid c then 0x0D10 else 0x0C10) (if isWardenCid c then 0x0D else 0x0C)
    (if reason = 5 then 0 else 4) (c.toNat + 4096 * reason + 32768 * vec) x.pc.toNat fault.toNat
  (s5.dispatch (coreIdx c)).updCheck

/-- A partial eclipse of a cluster is requested (R687): a second one and a disabled cluster are refused. A trigger during
full eclipse or a freeze sequence has no effect (R683, R702). A comparator's request is no access (R41). DEDUCED, log 57. -/
def State.startPartial (s : State) (r : Requester) (clu cause : Nat) : State :=
  let write := r != .engine
  let off := if write then 0x48 else 0
  if s.get F.DBG.ECL_STATUS.STATE = 1 ∨ s.eclWait.isSome then s
  else if s.eclPart.isSome then s.pageErr pgDBG 0x12 off r write
  else if 8 ≤ clu || !s.enabled (pgClu clu) || !s.powered (2 + clu) then s.pageErr pgDBG 0x13 off r write
  else { s with eclWait := some (clu, cause) }

/-- A comparator holds the instruction, exempts it at the thaw, and starts an eclipse (R697, R698). A warden context has no
cluster. -/
def State.startEclipse (s : State) (c : Cid) (part : Bool) : State :=
  let s1 := s.modCx c (fun x => { x with skip := true })
  if part then s1.startPartial .engine (if isWardenCid c then 8 else c.toNat / 64 % 8) 3 else s1.fullEclipse 3

/-- Does the trace ring lie in assigned DRAM (R699)? -/
def State.ringOk (s : State) : Bool :=
  let n := s.get F.DBG.TR_SIZE.LOG2
  decide (12 ≤ n) && s.inDram (4096 * s.get F.DBG.TR_BASE.BASE) (2 ^ n)

/-- Trace is started (R699): refused outside assigned DRAM. -/
def State.traceOn (s : State) (r : Requester) : State :=
  if s.ringOk then (s.put F.DBG.TR_CTRL.EN 1).put F.DBG.TR_STATUS.FULL 0 else s.pageErr pgDBG 0x12 0x310 r true

/-! ### Invalidation (R333–R337) -/

/-- Does an invalidation remove a TLB entry? -/
def Inval.hitsTlb (i : Inval) (e : TlbEntry) : Bool :=
  match i with
  | .tlbVa st pg => e.stag == st && e.page == pg
  | .tlbS st => e.stag == st
  | .tlbAll => true
  | _ => false

/-- Does an invalidation remove a walk-cache entry? -/
def Inval.hitsWalk (i : Inval) (e : TlbEntry) : Bool :=
  match i with
  | .walkVa st u => e.stag == st && decide (e.page ≤ u) && decide (u < e.page + 32)
  | .walkS st => e.stag == st
  | .walkAll => true
  | _ => false

/-- Is an invalidation one of a frame's cached key-store byte? -/
def Inval.hitsKey (i : Inval) (frame : Nat) : Bool :=
  match i with
  | .key f => f == frame
  | _ => false

/-- A core's caches once an invalidation is applied. -/
def CoreSt.applyInval (y : CoreSt) (i : Inval) : CoreSt :=
  { y with tlb := y.tlb.filter (fun e => !i.hitsTlb e), walk := y.walk.filter (fun e => !i.hitsWalk e)
           keys := y.keys.filter (fun e => !i.hitsKey e.1) }

/-- Does a logical core belong to the cluster in partial eclipse (R337, R688)? -/
def State.coreEclipsed (s : State) (k : Nat) : Bool := match s.eclPart with | some n => decide (k < 64) && k / 8 == n | none => false

/-- Apply an invalidation on every core. The cluster in partial eclipse acknowledges it at once and records it, up to one more
than the 256 that it can hold (R337). -/
def State.applyInval (s : State) (c : Cid) (i : Inval) : State :=
  match i with
  | .btr => s.modCx c (fun x => { x with staleBtr := x.staleBtr.drop 1 })
  | _ =>
    let s1 := (s.core.map (·.1)).foldl (fun s k => if s.coreEclipsed k then s else s.setCore k ((s.core_ k).applyInval i)) s
    if s.eclPart.isSome then { s1 with eclInv := (s1.eclInv ++ [i]).take 257 } else s1

/-- A core's translation, walk and key caches are emptied (R337). -/
def CoreSt.emptyCaches (y : CoreSt) : CoreSt := { y with tlb := [], walk := [], keys := [] }

/-- At the thaw the cluster in partial eclipse applies the invalidations that it recorded; where more than 256 came, it empties
its caches instead (R337). -/
def State.thawInvals (s : State) : State :=
  let l := s.eclInv
  let s1 := (s.core.map (·.1)).foldl (fun s k =>
    if s.coreEclipsed k then
      s.setCore k (if 256 < l.length then (s.core_ k).emptyCaches else l.foldl CoreSt.applyInval (s.core_ k))
    else s) s
  { s1 with eclInv := [] }

/-! ### Images of a context (R269, R298) -/

/-- The lazy area's image, from offset 40 of the frame (R269). -/
def lazyImage (wide : Bool) (x : Ctx) : List Byte :=
  let xw := if wide then 25 else 15
  let dw := if wide then 10 else 5
  (x.x.toList.flatMap (fun v => leBytes xw v.toNat)) ++ (x.ls.toList.flatMap (fun v => leBytes 5 v.toNat)) ++
    (x.le.toList.flatMap (fun v => leBytes 5 v.toNat)) ++ (x.lc.toList.flatMap (fun v => leBytes 5 v.toNat)) ++
    leBytes dw x.ph.toNat ++ leBytes dw x.pl.toNat ++ leBytes 5 x.rc.toNat ++ leBytes 5 x.esw.toNat ++
    List.replicate (if wide then 10 else 20) 0

/-- The lower area beyond its link word: A0–A7, D0–D7, SR and PC (R297). -/
def lowerImage (wide : Bool) (x : Ctx) (sr pc : Word) : List Byte :=
  ((x.a.toList.take 8).flatMap (fun v => leBytes 5 v.toNat)) ++
    (x.d.toList.flatMap (fun v => leBytes (if wide then 10 else 5) v.toNat)) ++ leBytes 5 sr.toNat ++ leBytes 5 pc.toNat

/-- The upper area (R298): the mode, A8–A14, the stack pointers, the windows, the lazy state, FSR, KRR, STAG and VBR. -/
def upperImage (wide : Bool) (x : Ctx) : List Byte :=
  let dw := if wide then 10 else 5
  let w5 (v : Nat) := leBytes 5 v
  let lz := lazyImage wide x
  w5 (b2n wide) ++ ((x.a.toList.drop 8).flatMap (fun v => w5 v.toNat)) ++ w5 x.spu.toNat ++ w5 x.sps.toNat ++
    (x.win.toList.flatMap (fun w => w.toList.flatMap (fun v => leBytes dw v.toNat))) ++
    lz.take (lz.length - (if wide then 10 else 20)) ++
    w5 x.fsr.toNat ++ w5 (krrRead x.krr (srPL x.sr)).toNat ++ w5 x.stag.toNat ++ w5 x.vbr.toNat

end Sys2Proof.Machine
end

