-- ==== Sys2Proof/Machine/RegAccess.lean ====
section
/-! DEFINITION. How a register access is refused or performed (R27, R32, R34, R37–R48, R727): the tests in
their order, the masked write, and the header registers. A block's own registers are added in `Hub.lean`. -/

namespace Sys2Proof.Machine

/-- What R727's tests say of an access. -/
inductive GateRes where
  | pass
  /-- Reads zero and is ignored; the code is recorded when there is one. -/
  | refuse (code : Option Nat)
deriving DecidableEq, Repr

/-- The right a requester has for a storage key (R39): the host holds key 0 only; an engine is not checked. -/
def State.reqRight (s : State) (r : Requester) (key : Nat) : Nat :=
  match r with
  | .ctx c pl => keyRight (s.cx c).krr pl key
  | .host => if key = 0 then 3 else 0
  | .engine => 3

/-- Is a page held: its block restarts (R48), or its cluster is in partial eclipse (R688)? -/
def State.pageHeld (s : State) (p : Nat) : Bool :=
  s.restarting p || (match s.eclPart with
    | some n => decide (pgClu n ≤ p) && decide (p < pgClu (n + 1))
    | none => false)

/-- Tests 2 to 6 of R727 for an access to a page. Test 2 is the host's: a core's access met its own under R329 before it came
here. -/
def State.gate (s : State) (r : Requester) (k : PageKind) (a : Nat) (write : Bool) : GateRes :=
  let p := pageBase a
  let off := a % 4096
  let key := s.get (F.HDR.PG_LOCK.KEY p)
  if r = .host ∧ s.reqRight r key < (if write then 2 else 1) then .refuse (some 8)
  else if s.pageHeld p && (write || 0x20 ≤ off) then .refuse (if write then some 6 else none)
  else match rowOf k off with
    | none => .refuse (some 4)
    | some row =>
      if row.expert && !s.flag (F.HDR.PG_CTRL.EXPERT p) then .refuse (some 1)
      else if write && s.flag (F.HDR.PG_LOCK.LOCK p) && !reqWarden r && off != 0x20 && off != 0x30
        then .refuse (some 2)
      else .pass

/-- The value written when a host write covers only part of the register (R32): rw bits it does not cover
keep their values, other bits it does not cover take no action. -/
def coverValue (row : RegRow) (old v cov : Word) : Word :=
  (v &&& cov) ||| (old &&& ~~~cov &&& BitVec.ofNat 40 row.rw)

/-- Does a write of the bits `cov` cover a bit of the register that a write acts on (R32)? -/
def RegRow.touches (row : RegRow) (cov : Word) : Bool := (row.rw ||| row.wc ||| row.ws ||| row.wo) &&& cov.toNat != 0

/-- The plain effect of a write by the access codes of R5: rw bits take the value, wc bits clear, ws bits
set; wo bits and ro bits keep. -/
def maskWrite (row : RegRow) (old v : Word) : Word :=
  let rw := BitVec.ofNat 40 row.rw
  let wc := BitVec.ofNat 40 row.wc
  let ws := BitVec.ofNat 40 row.ws
  ((old &&& ~~~rw) ||| (v &&& rw)) &&& ~~~(v &&& wc) ||| (v &&& ws)

/-- A write with no further effect. -/
def State.plainWrite (s : State) (k : PageKind) (a : Nat) (v : Word) : State :=
  match rowOf k (a % 4096) with
  | some row => s.setReg a (maskWrite row (s.reg a) v)
  | none => s

/-- A register value in which the fields given as bad keep their old value: a value out of a field's range is ignored. -/
def keepBad (old v : Word) (fs : List (Nat × Nat × Bool)) : Word :=
  fs.foldl (fun w f => if f.2.2 then putF w f.1 f.2.1 (getF old f.1 f.2.1) else w) v

/-- A plain write in which each field out of its range keeps its value, with one code. DEDUCED, log 108. -/
def State.rangedWrite (s : State) (k : PageKind) (r : Requester) (code a : Nat) (v : Word) (fs : List (Nat × Nat × Bool)) : State :=
  (if fs.any (·.2.2) then s.pageErr (pageBase a) code (a % 4096) r true else s).plainWrite k a (keepBad (s.reg a) v fs)

/-- Clear PG_INT_STATUS bits; clearing ERR re-arms PG_ERR_SYNDROME and clears OVF (R41). -/
def State.clearInt (s : State) (p : Nat) (v : Word) : State :=
  let s1 := s.setReg (R.HDR.PG_INT_STATUS p) (s.reg (R.HDR.PG_INT_STATUS p) &&& ~~~v)
  if v.getLsbD 0 then s1.put (F.HDR.PG_ERR_SYNDROME.OVF p) 0 else s1

/-- The EXPERT_GRANT bit of a page's group (R45); none for SYS, WRD and SEC. -/
def grantBit (k : PageKind) (a : Nat) : Option Nat :=
  match k with
  | .clu | .core => some (blkIdx a - 1)
  | .tly | .bank => some 8
  | .qmg => some 9
  | .jrn | .crt => some 10
  | .wgh | .ch => some 11
  | .lio | .usb | .uart | .can | .gpio | .timer | .prof | .own => some 12
  | .net | .nport | .tb => some 13
  | .pci => some 14
  | .ixl | .ixp => some 15
  | .ddr | .ddrch => some 16
  | .cst => some 17
  | .recp => some 18
  | .gov | .gpwr | .ghea | .gwea | .gfil | .gflo => some 19
  | .cpr => some 20
  | .dbg => some 21
  | .sys | .wrd | .wcore | .sec | .vault => none

/-- May a requester set EXPERT on a page (R44)? -/
def State.mayExpert (s : State) (r : Requester) (k : PageKind) (a : Nat) : Bool :=
  reqWarden r ||
    (match r with
      | .ctx _ pl => pl == 1#2
      | .host => true
      | .engine => false) &&
    (match grantBit k a with
      | some b => (s.reg R.SYS.EXPERT_GRANT).getLsbD b
      | none => false)

/-- A write of EXPERT (R44): set where permitted, else left at 0 with code 0x03; clearing always acts. A write of 1 where it is 1
already changes nothing, whoever makes it, and records no code. DESIGN CHOICE, log 95. -/
def State.writeExpert (s : State) (r : Requester) (k : PageKind) (a : Nat) (want : Bool) : State :=
  let p := pageBase a
  if !want then s.put (F.HDR.PG_CTRL.EXPERT p) 0
  else if s.flag (F.HDR.PG_CTRL.EXPERT p) then s
  else if s.mayExpert r k a then s.put (F.HDR.PG_CTRL.EXPERT p) 1
  else s.pageErr p 3 0x10 r true

/-- A write of PG_LOCK (R37): KEY by a warden only, code 0x09 for any other's; the first write since the cold reset fixes LOCK
(R5). -/
def State.writeLock (s : State) (r : Requester) (p : Nat) (v : Word) : State :=
  let s1 := if tabGet false s.lockSet p then s
    else { s.put (F.HDR.PG_LOCK.LOCK p) (b2n (v.getLsbD 8)) with lockSet := tabSet false s.lockSet p true }
  if reqWarden r then s1.put (F.HDR.PG_LOCK.KEY p) (getF v 0 4) else s1.pageErr p 9 0x38 r true

/-- PG_STATUS as read (R37): RUNNING, RESTARTING and LOCKED mirror their sources. -/
def State.readStatus (s : State) (p : Nat) : Word :=
  let v := s.reg (R.HDR.PG_STATUS p)
  let rs := s.restarting p
  putF (putF (putF v 0 1 (b2n (s.enabled p && !rs))) 1 1 (s.get (F.HDR.PG_CTRL.BLOCK_RESET p)))
    2 1 (s.get (F.HDR.PG_LOCK.LOCK p))

/-- Every page of a grant group (R45): their base addresses. -/
def groupPages (b : Nat) : List Nat :=
  if b < 8 then (List.range 10).map (fun k => pgClu b + 0x1000 * k)
  else match b with
    | 8 => (List.range 9).map (fun k => pgTLY + 0x1000 * k)
    | 9 => [pgQMG]
    | 10 => (List.range 3).map (fun k => pgJRN + 0x1000 * k)
    | 11 => pgWGH :: (List.range 64).map pgCh
    | 12 => (List.range 16).map (fun k => pgLIO + 0x1000 * k)
    | 13 => (List.range 4).map (fun k => pgNET + 0x1000 * k)
    | 14 => [pgPCI]
    | 15 => (List.range 3).map (fun k => pgIXL + 0x1000 * k)
    | 16 => (List.range 5).map (fun k => 0xFFF0120000 + 0x1000 * k)
    | 17 => [pgCST]
    | 18 => [pgREC]
    | 19 => (List.range 6).map (fun k => pgGOV + 0x1000 * k)
    | 20 => [pgCPR]
    | 21 => [pgDBG]
    | _ => []

/-- Clear EXPERT on the pages of every group whose grant goes from 1 to 0 (R46). -/
def State.withdrawGrants (s : State) (old new : Word) : State :=
  (List.range 22).foldl (fun s b =>
    if old.getLsbD b && !new.getLsbD b then
      (groupPages b).foldl (fun s p => s.put (F.HDR.PG_CTRL.EXPERT p) 0) s
    else s) s

/-- Write SYS.EXPERT_GRANT (R45, R46). DEDUCED, log 34. -/
def State.writeGrant (s : State) (v : Word) : State :=
  let old := s.reg R.SYS.EXPERT_GRANT
  let new := v &&& 0x3FFFFF
  (s.setReg R.SYS.EXPERT_GRANT new).withdrawGrants old new

/-- Return the registers that pass a test to reset in the bits a class mask gives; unlisted registers are at reset
already. -/
def State.resetPages (s : State) (inPages : Nat → Bool) (mask : RegRow → Nat) : State :=
  (s.creg.map (·.1)).foldl (fun s a =>
    if inPages a then
      match pageOf a with
      | some k => match rowOf k (a % 4096) with
        | some row =>
          let m := BitVec.ofNat 40 (mask row)
          s.setReg a ((s.reg a &&& ~~~m) ||| (resetValue a &&& m))
        | none => s
      | none => s
    else s) s

/-- Is an address on a page of the 64 KiB block (with the weigh channels counted with WGH)? -/
def inBlock (b : Nat) (a : Nat) : Bool :=
  blkIdx a == b || (b == 0xD && decide (0x20 ≤ blkIdx a) && decide (blkIdx a ≤ 0x23))

end Sys2Proof.Machine
end

