-- ==== Sys2Proof/Machine/Cartridge.lean ====
section
/-! DEFINITION. Cartridges (R440–R447, R454, R455, R460–R463): the write sequence, pages and trailers, the images of
committed batches on a cartridge, erasure, identity and life. -/

namespace Sys2Proof

open Sys2Proof.Machine

/-! ### The write sequence (R440) -/

/-- Is a block of a cartridge bad: marked, retired, or passed over (R440, R461)? -/
def badBlock (c : Cartridge) (passed : List (Nat × Nat)) (cs b : Nat) : Bool :=
  c.factory.contains (cs, b) || c.retired.contains (cs, b) || passed.contains (cs, b)

/-- The good chip selects of a stripe. -/
def goodCs (c : Cartridge) (passed : List (Nat × Nat)) (s : Nat) : List Nat :=
  [0, 1].filter (fun cs => !badBlock c passed cs s)

/-- Positions of a stripe. -/
def stripeLen (c : Cartridge) (passed : List (Nat × Nat)) (s : Nat) : Nat := (goodCs c passed s).length * c.ppb

/-- The chip select and page of a position. -/
def place (c : Cartridge) (passed : List (Nat × Nat)) (s i : Nat) : Nat × Nat :=
  match goodCs c passed s with
  | [g] => (g, i)
  | _ => (i % 2, i / 2)

/-- The key of a page in the cartridge's table. -/
def pageKey (s cs p : Nat) : Nat := 2048 * s + 1024 * cs + p

/-- The next stripe with a good block after `s`, wrapping, with fuel. -/
def nextStripe (c : Cartridge) (passed : List (Nat × Nat)) : Nat → Nat → Nat
  | 0, s => s
  | f + 1, s =>
    let n := if s + 1 < c.blocks then s + 1 else 0
    if stripeLen c passed n = 0 then nextStripe c passed f n else n

/-- The stripe after a stripe. -/
def Cartridge.after (c : Cartridge) (passed : List (Nat × Nat)) (s : Nat) : Nat := nextStripe c passed c.blocks s

/-- The position after a position. -/
def Cartridge.advance (c : Cartridge) (passed : List (Nat × Nat)) (s i : Nat) : Nat × Nat :=
  if i + 1 < stripeLen c passed s then (s, i + 1) else (c.after passed s, 0)

/-- The first position of the write sequence: position 0, or the first good stripe. -/
def Cartridge.start (c : Cartridge) (passed : List (Nat × Nat)) : Nat :=
  if stripeLen c passed 0 = 0 then c.after passed 0 else 0

/-- SEQ of a position. -/
def seqOf (c : Cartridge) (s i : Nat) : Nat := s * 2 * c.ppb + i

/-! ### Pages (R441, R442) -/

/-- Does a page read without a failed codeword, and not as erased? DEDUCED, log 53. -/
def NandPage.reads (p : NandPage) : Bool := p.errs.all (· ≤ 72) && !readsErased p.data p.info p.spare

/-- Metadata fields. -/
def NandPage.field (p : NandPage) (i n : Nat) : Nat := leVal ((p.info.drop i).take n)
def NandPage.batch (p : NandPage) : Nat := p.field 8 5
def NandPage.journal (p : NandPage) : Nat := p.field 4 4
def NandPage.index (p : NandPage) : Nat := p.field 13 1
def NandPage.last (p : NandPage) : Bool := p.field 14 1 == 1
def NandPage.magic (p : NandPage) : Bool := beVal (p.info.take 4) == 0x4A504731

/-- The metadata of a page. -/
def pageInfo (journal batch page : Nat) (last : Bool) (seq : Nat) : List Byte :=
  beBytes 4 0x4A504731 ++ leBytes 4 journal ++ leBytes 5 batch ++ leBytes 1 page ++ leBytes 1 (b2n last) ++ [0] ++
    leBytes 4 seq ++ List.replicate 12 0

/-- The pages of a stripe. -/
def Cartridge.inStripe (c : Cartridge) (s : Nat) : List NandPage := (c.pages.filter (fun p => p.1 / 2048 == s)).map (·.2)

/-- The programmed page of a list at the highest position. -/
def lastPage (ps : List NandPage) : Option NandPage :=
  ps.foldl (fun b p => match b with | none => some p | some q => if q.pos < p.pos then some p else some q) none

/-! ### Trailers and batch images (R443–R445, R455) -/

/-- Bytes of a trailer field. -/
def tf (t : List Byte) (i n : Nat) : Nat := leVal ((t.drop i).take n)

/-- PAGES of a batch with so many record bytes. -/
def batchPages (n : Nat) : Nat := (n + 256 + 16383) / 16384

/-- HASH of a batch. -/
def batchHash (prev bytes trailer : List Byte) : List Byte := sha256 (prev ++ bytes ++ trailer.take 80)

/-- A committed batch as a cartridge holds it: its record bytes, trailer, pages in order, and the trailer's page. -/
structure Image where
  bytes : List Byte
  trailer : List Byte
  pages : List NandPage
  top : NandPage
deriving DecidableEq, Repr

def Image.number (b : Image) : Nat := tf b.trailer 8 5
def Image.hash (b : Image) : List Byte := (b.trailer.drop 112).take 32
def Image.prev (b : Image) : List Byte := (b.trailer.drop 80).take 32
def Image.signed (b : Image) : Bool := bitOf (tf b.trailer 5 1) 0

/-- The stripe before a stripe. -/
def Cartridge.stripeBefore (c : Cartridge) (s : Nat) : Nat := if s = 0 then c.blocks - 1 else s - 1

/-- The nearest stripe before `s` that the write sequence takes and that holds pages, with fuel. -/
def Cartridge.filledBefore (c : Cartridge) : Nat → Nat → Option Nat
  | 0, _ => none
  | f + 1, s =>
    let t := c.stripeBefore s
    if stripeLen c [] t != 0 && !(c.inStripe t).isEmpty then some t else c.filledBefore f t

/-- The page at the position before that of a page: within its stripe, or at the end of the stripe before. -/
def Cartridge.pageBefore (c : Cartridge) (p : NandPage) : Option NandPage :=
  if p.pos % (2 * c.ppb) != 0 then (c.pages.map (·.2)).find? (fun q => q.pos + 1 == p.pos)
  else match c.filledBefore (c.blocks - 1) (p.pos / (2 * c.ppb)) with
    | some t => (lastPage (c.inStripe t)).filter (fun q => (q.pos + 1) % c.ppb == 0)
    | none => none

/-- The pages of a batch at the positions before a page, in order, when each carries its batch and index. -/
def Cartridge.pagesTo (c : Cartridge) (journal : Nat) : Nat → NandPage → List NandPage → Option (List NandPage)
  | 0, _, acc => some acc
  | k + 1, p, acc => match c.pageBefore p with
    | some q =>
      if q.reads && q.magic && q.journal == journal && q.batch == p.batch && q.index == k then c.pagesTo journal k q (q :: acc)
      else none
    | none => none

/-- The image whose trailer a page holds, when the trailer is valid (R455). -/
def Cartridge.image (c : Cartridge) (journal : Nat) (p : NandPage) : Option Image :=
  let t := p.data.drop 16128
  let n := tf t 6 1
  if p.reads && p.magic && p.last && p.journal == journal && beVal (t.take 4) == 0x4A54524C && tf t 4 1 == 1 &&
      beVal (t.drop 252) == 0xA53CC35A && tf t 8 5 == p.batch && decide (1 ≤ n) && decide (n ≤ 16) && p.index == n - 1 then
    match c.pagesTo journal (n - 1) p [p] with
    | none => none
    | some ps =>
      let bytes := ((ps.map (·.data)).flatten).take (tf t 23 4)
      if (t.drop 112).take 32 = batchHash ((t.drop 80).take 32) bytes t then
        some { bytes := bytes, trailer := t, pages := ps, top := p } else none
  else none

/-- Every committed batch on a cartridge. -/
def Cartridge.images (c : Cartridge) (journal : Nat) : List Image :=
  (c.pages.filter (fun p => p.2.last)).filterMap (fun p => c.image journal p.2)

/-- The image of a batch number. -/
def Cartridge.find (c : Cartridge) (journal n : Nat) : Option Image := (c.images journal).find? (fun b => b.number == n)

/-- The image with the highest number. -/
def topImage (bs : List Image) : Option Image :=
  bs.foldl (fun b x => match b with | none => some x | some y => if y.number < x.number then some x else some y) none

/-- The page at the lowest position. -/
def firstPage (ps : List NandPage) : Option NandPage :=
  ps.foldl (fun b p => match b with | none => some p | some q => if p.pos < q.pos then some p else some q) none

/-- The stripes with pages. -/
def Cartridge.filled (c : Cartridge) : List Nat := (c.pages.map (fun p => p.1 / 2048)).eraseDups

/-- The BATCH at the first position of a stripe that can be read, of one journal or of any. -/
def Cartridge.stripeBatch (c : Cartridge) (journal : Option Nat) (s : Nat) : Option Nat :=
  (firstPage ((c.inStripe s).filter (fun p => p.reads && p.magic && journal.all (· == p.journal)))).map NandPage.batch

/-- From a stripe on while the next holds pages and begins with the same BATCH, or with nothing that can be read, with fuel. -/
def Cartridge.runOn (c : Cartridge) (journal : Option Nat) (m : Nat) : Nat → Nat → Nat
  | 0, s => s
  | f + 1, s =>
    let n := c.after [] s
    let on := match c.stripeBatch journal n with
      | some b => b == m
      | none => !(c.inStripe n).isEmpty && (c.stripeBatch none n).isNone
    if n != s && on then c.runOn journal m f n else s

/-- The stripe that holds the last programmed position (R454 step 1): BATCH at the first positions of the stripes rises up to it.
The device's own journal tells, else any; where nothing can be read, the end of the programmed stripes. DEDUCED, log 53. -/
def Cartridge.lastStripe (c : Cartridge) (journal : Nat) : Option Nat :=
  let best (j : Option Nat) : Option (Nat × Nat) := c.filled.foldl (fun b s => match b, c.stripeBatch j s with
    | b, none => b
    | none, some m => some (s, m)
    | some (t, n), some m => if n < m then some (s, m) else some (t, n)) none
  match best (some journal), best none with
  | some (s, m), _ => some (c.runOn (some journal) m c.blocks s)
  | none, some (s, m) => some (c.runOn none m c.blocks s)
  | none, none => c.filled.find? (fun s => (c.inStripe (c.after [] s)).isEmpty)

/-- The write point after a scan (R454 step 4). -/
def Cartridge.writePoint (c : Cartridge) (journal : Nat) (passed : List (Nat × Nat)) (top : Option Image) : Nat × Nat :=
  match top with
  | some b =>
    let s := b.top.pos / (2 * c.ppb)
    let i := b.top.pos % (2 * c.ppb)
    if (c.inStripe s).any (fun p => b.top.pos < p.pos) then (c.after passed s, 0) else c.advance passed s i
  | none => match c.lastStripe journal with
    | some s => (c.after passed s, 0)
    | none => (c.start passed, 0)

/-- The write point of a cartridge that reaches READY (R729). -/
def Cartridge.standbyPoint (c : Cartridge) (journal : Nat) (passed : List (Nat × Nat)) : Nat :=
  match c.lastStripe journal with
  | some s => c.after passed s
  | none => c.start passed

/-! ### The chain check (R454 step 3) -/

/-- The batch the check begins at: the last signed one, else the oldest on the cartridge. -/
def chainBase (bs : List Image) : Option Image :=
  match topImage (bs.filter Image.signed) with
  | some b => some b
  | none => bs.foldl (fun b x => match b with | none => some x | some y => if x.number < y.number then some x else some y) none

/-- The newest batch up to which the links verify from `n` on, with fuel. -/
def chainTo (bs : List Image) : Nat → Image → Image
  | 0, b => b
  | f + 1, b => match bs.find? (fun x => x.number == b.number + 1) with
    | some x => if x.prev = b.hash then chainTo bs f x else b
    | none => b

/-! ### Erasure (R460) -/

/-- May a stripe be erased? -/
def Cartridge.erasable (c : Cartridge) (journal archived : Nat) (wipe : Bool) (s : Nat) : Bool :=
  match lastPage ((c.inStripe s).filter (fun p => p.reads && p.magic)) with
  | none => true
  | some p => if p.journal = journal then decide (p.batch ≤ archived) else wipe

/-- The cartridge with a stripe erased. What a bad block of the stripe still holds is no part of the write sequence.
DEDUCED, log 53. -/
def Cartridge.erase (c : Cartridge) (passed : List (Nat × Nat)) (s : Nat) : Cartridge :=
  { c with pages := c.pages.filter (fun p => p.1 / 2048 != s), erases := c.erases + (goodCs c passed s).length }

/-! ### Identity (R461, R462) -/

/-- Bytes 0 to 159 of the element's response. -/
def Cartridge.answer (c : Cartridge) : List Byte :=
  leBytes 8 c.id.toNat ++ leBytes 2 c.model.toNat ++ leBytes 2 c.capacity.toNat ++ leBytes 2 c.rated ++ leBytes 2 c.retention.toNat ++
    leBytes 4 c.date.toNat ++ leBytes 4 c.erases ++ leBytes 2 c.grown ++ leBytes 1 (b2n c.closed) ++ [0] ++ leBytes 2 c.blocks ++
    leBytes 1 (c.ppb / 16) ++ leBytes 1 (c.spare / 16) ++ beBytes 64 c.pub.toNat ++ beBytes 64 c.cert.toNat

/-- The 256 bytes of RESPONSE. -/
def Cartridge.response (c : Cartridge) (sig : BitVec 512) : List Byte :=
  c.answer ++ beBytes 64 sig.toNat ++ List.replicate 32 0

/-- Does the vendor certificate in a response verify under the root key: over bytes 0 to 19 and 28 to 95? -/
def certOk (root response : List Byte) : Bool :=
  ecdsaVerify root (sha256 (response.take 20 ++ (response.drop 28).take 68)) ((response.drop 96).take 64)

/-- Does the element's signature in a response verify: over the challenge and bytes 0 to 159? -/
def elementOk (challenge response : List Byte) : Bool :=
  ecdsaVerify ((response.drop 32).take 64) (sha256 (challenge ++ response.take 160)) ((response.drop 160).take 64)

/-- The reason that refuses a cartridge, or 0 (R462). -/
def identReason (root : List Byte) (c : Cartridge) (how : IdentOutcome) : Nat :=
  match how with
  | .i2cFails => 3
  | .response challenge sig =>
    if !(certOk root (c.response sig) && elementOk (beBytes 32 challenge.toNat) (c.response sig)) then 1
    else if c.pageBytes != 16384 || decide (c.spare < 1112) || decide (c.ppb < 64) || decide (1024 < c.ppb) ||
      decide (65536 < c.blocks) then 2
    else 0

/-! ### Life (R463) -/

/-- G_MAX. -/
def Cartridge.gmax (c : Cartridge) : Nat := 2 * c.blocks / 50

/-- LIFE from the erases and retirements the device holds. -/
def Cartridge.lifeOf (c : Cartridge) (erases grown : Nat) : Nat :=
  let t := c.rated * (2 * c.blocks)
  let a := if t = 0 then 0 else 100 * (t - erases) / t
  let b := if c.gmax = 0 then 0 else 100 * (c.gmax - grown) / c.gmax
  min a b

end Sys2Proof
end

