-- ==== Sys2Proof/Machine/Queue.lean ====
section
/-! DEFINITION. The queue manager (R71–R73, R401–R433): rings, the queue state window, delivery and role
epochs, orphan notices, transfers and the flow governor's choice. The queue instructions are in
`QueueIsa.lean`; what a grant cycle does for each producer is in `Steps.lean`. -/

namespace Sys2Proof.Machine

/-- A queue's state at reset. -/
def Queue.init : Queue :=
  { base := 0, depth := 0, valid := false, pmode := false, ckind := 0, key := 0, prio := 0, wake := false, wlock := false
    cid := 0, epoch := 0, bound := false, head := 0, tail := 0, orphan := false, age := 0, passed := false, last := 0
    fulls := 0, discarded := 0 }

/-- A queue. -/
def State.queue (s : State) (n : Nat) : Queue := tabGet Queue.init s.queues n

/-- Replace a queue's state. -/
def State.setQueue (s : State) (n : Nat) (q : Queue) : State := { s with queues := tabSet Queue.init s.queues n q }

/-- Slots of the ring, elements in it, and the address of a counter's slot (R401). -/
def Queue.size (q : Queue) : Nat := 2 ^ q.depth
def Queue.count (q : Queue) : Nat := (q.tail - q.head).toNat
def Queue.slot (q : Queue) (i : BitVec 17) : Nat := q.base.toNat + 64 * (i.toNat % q.size)

/-- STATE (R402). -/
def Queue.st (q : Queue) : Nat :=
  if !q.valid then 0 else if q.ckind != 0 then 2 else if q.orphan then 3 else if q.bound then 2 else 1

/-- The queue's consumer is this context. -/
def Queue.mine (q : Queue) (c : Cid) : Bool := q.ckind == 0 && q.bound && q.cid == c

/-- Discard every element (R406, R409, R417). -/
def Queue.discard (q : Queue) : Queue :=
  { q with discarded := min (q.discarded + q.count) (2 ^ 20 - 1), head := q.tail, orphan := false }

/-! ### Transfer tags (R25, R421) -/

/-- Does the queue manager grant (R433)? -/
def State.queueRuns (s : State) : Bool := s.live pgQMG

/-- TAGS.IN_USE and HIGH follow the tags. -/
def State.tagCount (s : State) : State :=
  let n := s.qtags.length
  let s1 := s.put F.QMG.TAGS.IN_USE n
  if s1.get F.QMG.TAGS.HIGH < n then s1.put F.QMG.TAGS.HIGH n else s1

/-- Is a tag free for a context's transfer, or for a hardware agent's within TAG_SHARE? -/
def State.tagFree (s : State) (hw : Bool) : Bool :=
  decide (s.qtags.length < 2048) && (!hw || decide ((s.qtags.filter id).length < s.get F.QMG.TAG_SHARE.LIMIT))

/-- A granted transfer takes a tag. -/
def State.holdTag (s : State) (hw : Bool) : State := { s with qtags := s.qtags ++ [hw] }.tagCount

/-- Ring accesses complete: how many have by now is the fabric's, so a free number of the oldest tags return.
DESIGN CHOICE, log 58. -/
def State.returnTags (s : State) : State :=
  let (n, s1) := s.draw
  { s1 with qtags := s1.qtags.drop (Config.freeNat n % (s1.qtags.length + 1)) }.tagCount

/-- May a transfer of the hardware consumers or of the queue manager itself, ports 13 and 14, be granted now? -/
def State.hwGrants (s : State) : Bool := s.queueRuns && s.tagFree true

/-- A transfer of one of these ports is granted: the scan goes on behind its port (R420). -/
def State.hwGrant (s : State) (p : Fin 15) : State := { (s.holdTag true).count 13 none 1 with qptr := (p.val + 1) % 15 }

/-! ### Elements (R71, R72) -/

/-- The 64 bytes of an element. -/
def elementBytes (n : Nat) (epoch : BitVec 12) (type len src : Nat) (payload : List Byte) : List Byte :=
  leBytes 2 n ++ leBytes 2 epoch.toNat ++ leBytes 1 type ++ leBytes 1 len ++ leBytes 2 src ++
    ((payload.take len) ++ List.replicate 56 0).take 56

/-- TYPE, LENGTH, source field, EPOCH and payload of an element. -/
def elType (e : List Byte) : Nat := (e.getD 4 0).toNat
def elLen (e : List Byte) : Nat := (e.getD 5 0).toNat
def elSrc (e : List Byte) : Nat := leVal ((e.drop 6).take 2)
def elEpoch (e : List Byte) : BitVec 12 := BitVec.ofNat 12 (leVal ((e.drop 2).take 2))

/-- Is a TYPE one that ENQ refuses (R73, R414)? -/
def badType (t : Nat) : Bool := decide (t < 0x10) || (decide (0x12 ≤ t) && decide (t < 0x40))

/-- MSI-X vectors that name a queue are raised (R563). -/
def State.msixRaise (s : State) (n : Nat) : State :=
  { s with msix := (List.range 64).foldl (fun m v =>
      if getF (s.reg (R.PCI.MSIX v)) 0 14 = n + 2 ^ 13 then m ||| (1#64 <<< v) else m) s.msix }

/-- Write an element at the tail and advance TAIL (R73, R415, R423). -/
def State.ringWrite (s : State) (n type len src : Nat) (payload : List Byte) : State :=
  let q := s.queue n
  let bs := elementBytes n (if q.ckind = 0 then q.epoch else 0) type len src payload
  let s1 := (s.engineWrite (q.slot q.tail) bs).setQueue n { q with tail := q.tail + 1 }
  if q.count = 0 then s1.msixRaise n else s1

/-! ### Refusals (R422) -/

/-- May a hardware producer's element go in? -/
def State.qAccepts (s : State) (n : Nat) : Bool :=
  let q := s.queue n
  s.enabled pgQMG && q.valid && !q.pmode && decide (q.count < q.size)

/-- A refusal for a full queue is counted and recorded. -/
def State.qFull (s : State) (n port : Nat) : State :=
  let q := s.queue n
  ((s.setQueue n { q with fulls := satInc 20 q.fulls }).put F.QMG.FULL_LAST.QUEUE n).put F.QMG.FULL_LAST.PORT port

/-- A hardware producer's element is refused. -/
def State.qRefuse (s : State) (n port : Nat) : State := (s.qFull n port).pageInt pgQMG 3

/-- Offer an element to a queue from a hardware producer: whether it is taken. -/
def State.hwPut (s : State) (n port type : Nat) (src : Nat) (payload : List Byte) : Bool × State :=
  if s.qAccepts n then (true, s.ringWrite n type payload.length src payload) else (false, s.qRefuse n port)

/-! ### Orphans (R416–R419) -/

/-- A delivery fails its epoch check: the queue enters ORPHANED and a notice is held for ORPHAN_QUEUE. -/
def State.orphanQueue (s : State) (n : Nat) (eep : BitVec 12) (cause : Nat) : State :=
  let q := s.queue n
  let role := (s.cx q.cid).role
  let note := leBytes 2 n ++ leBytes 2 q.epoch.toNat ++ leBytes 2 eep.toNat ++ leBytes 2 q.cid.toNat ++
    leBytes 2 role.toNat ++ leBytes 3 q.count ++ leBytes 1 cause
  let s1 := ((s.setQueue n { q with orphan := true }).event 0x0B01 0x0B 2 n q.cid.toNat role.toNat).pageInt pgQMG 1
  if s1.orphans.length < 64 then { s1 with orphans := s1.orphans ++ [note] }
  else ((s1.bumpSat F.QMG.ORPHAN_LOST.COUNT).event 0x0B02 0x0B 3 n 0 0).pageInt pgQMG 2

/-- A held orphan notice is sent once ORPHAN_QUEUE is valid and has room. -/
def State.sendOrphan (s : State) : State :=
  match s.orphans with
  | [] => s
  | o :: r =>
    let n := s.get F.QMG.ORPHAN_QUEUE.QUEUE
    if s.flag F.QMG.ORPHAN_QUEUE.VALID && s.qAccepts n && s.hwGrants then
      ({ s with orphans := r }.hwGrant 14).ringWrite n 6 o.length 0x5000 o
    else s

/-- The epoch check of a delivery (R416). Answers whether it proceeds. -/
def State.deliver (s : State) (n : Nat) (cause : Nat) : Bool × State :=
  let q := s.queue n
  let e := elEpoch (s.bytes (q.slot q.head) 64)
  if e == q.epoch && q.epoch == (s.cx q.cid).role then (true, s) else (false, s.orphanQueue n e cause)

/-! ### The flow governor's choice (R427, R428) -/

/-- The governor's mode: 0 off, 1 auto, 2 advise. -/
def State.flowMode (s : State) : Nat := if s.enabled pgGFLO then s.get (F.GALL.GCTRL.MODE pgGFLO) else 0

/-- Off mode begins: every AGE is 0 (R428). -/
def State.clearAges (s : State) : State :=
  s.queues.foldl (fun s p => s.setQueue p.1 { p.2 with age := 0, passed := false }) s

/-- A queue's effective priority. -/
def State.effPrio (s : State) (q : Queue) : Nat :=
  if s.flowMode = 1 then (if q.age = 9 then 16 else q.prio + q.age) else q.prio

/-- Is queue `b` chosen before queue `a`? -/
def State.qBefore (s : State) (a b : Nat) : Bool :=
  let x := s.queue a
  let y := s.queue b
  let px := s.effPrio x
  let py := s.effPrio y
  decide (px < py) || (px == py && (decide (y.last < x.last) || (y.last == x.last && decide (b < a))))

/-- Put a queue in a list in the order of choice. -/
def State.qInsert (s : State) (n : Nat) : List Nat → List Nat
  | [] => [n]
  | m :: r => if s.qBefore m n then n :: m :: r else m :: s.qInsert n r

/-- Queues in the order of choice. -/
def State.qOrder (s : State) (ns : List Nat) : List Nat := ns.foldl (fun l n => s.qInsert n l) []

/-- Have two queues the same consumer? -/
def sameConsumer (a b : Queue) : Bool :=
  a.ckind == b.ckind && a.ckind != 5 && (a.ckind != 0 || (a.bound && b.bound && a.cid == b.cid))

/-- A queue delivers: its AGE returns to 0 (R427). -/
def State.delivered (s : State) (n : Nat) : State :=
  { s.setQueue n { s.queue n with age := 0, passed := false, last := s.qstamp + 1 } with qstamp := s.qstamp + 1 }

/-- A queue's consumer takes an element from it: its other queues that hold one note that (R427). -/
def State.taken (s : State) (n : Nat) : State :=
  let q := s.queue n
  s.queues.foldl (fun s p =>
    if p.1 != n && sameConsumer p.2 q && p.2.valid && p.2.count != 0 then s.setQueue p.1 { p.2 with passed := true } else s) s

/-- What an action's target looks like now (R624): a cluster's step, the physical core of a logical one, the open
retirement request, the state of a cartridge slot, a channel's filter, or a queue's AGE. -/
def State.targetState (s : State) (action target : Nat) : Nat :=
  match action with
  | 1 | 2 => s.get (F.CLU.CLK_STATUS.STEP (pgClu target))
  | 3 => s.physOf (target / 8) (target % 8)
  | 4 => (s.reg R.GHEA.RETIRE_REQ).toNat % 2 ^ 29
  | 5 => s.get (F.CRT.STATUS.STATE (pgCrt target))
  | 6 => (s.reg (R.CH.IIR_K (pgCh target))).toNat + 2 ^ 40 * (s.reg (R.CH.MOTION_WIN (pgCh target))).toNat
  | _ => (s.queue target).age

/-- A governor proposes an action (R622): SUGGEST, event 0x1701 at most once per second (R652), and bit 1 of its
page. DEDUCED, log 76. -/
def State.suggest (s : State) (p action target value : Nat) : State :=
  let s1 := s.setReg (R.GALL.SUGGEST p) (BitVec.ofNat 40 (action + 2 ^ 8 * (target % 2 ^ 28) + 2 ^ 36 * value))
  let s2 := { s1 with sugAt := tabSet 0 s1.sugAt p (s.targetState action target) }
  let s3 := if tabGet 0 s2.sugSec p = s2.ticks / 100000000 + 1 then s2
    else { s2 with sugSec := tabSet 0 s2.sugSec p (s2.ticks / 100000000 + 1) }.event 0x1701 0x17 1 action target value
  s3.pageInt p 1

/-- A governor performs an action (R623). -/
def State.govActed (s : State) (p action : Nat) : State :=
  (s.bump (F.GALL.GSTATUS.ACTIONS p) 1).put (F.GALL.GSTATUS.LAST p) action

/-- One AGE_STEP (R427, R428). DEDUCED, log 59. -/
def State.ageStep (s : State) : State :=
  let mode := s.flowMode
  s.queues.foldl (fun s p =>
    let q := p.2
    if mode != 0 && q.passed && q.valid && q.count != 0 && q.age < 9 then
      let s1 := s.setQueue p.1 { q with age := q.age + 1, passed := false }
      if mode = 2 ∧ q.age + 1 = 8 then (s1.event 0x0B04 0x0B 1 p.1 0 0).suggest pgGFLO 7 p.1 0 else s1
    else s.setQueue p.1 { q with passed := false, age := if mode = 0 then 0 else q.age }) s

/-! ### Taking an element -/

/-- HEAD passes its element (R415, R417). -/
def State.popHead (s : State) (n : Nat) : State :=
  let q := s.queue n
  let q1 := { q with head := q.head + 1 }
  s.setQueue n { q1 with orphan := q1.orphan && q1.count != 0 }

/-- The head element met an uncorrectable error and is skipped (R431). -/
def State.ringError (s : State) (n : Nat) : State :=
  let q := s.queue n
  (((s.popHead n).bumpSat F.QMG.RING_ERRORS.COUNT).event 0x0B03 0x0B 3 n (q.head.toNat % q.size) 0).pageInt pgQMG 4

/-- Is the head element's line uncorrectable? -/
def State.headBad (s : State) (n : Nat) : Bool := let q := s.queue n; s.ueAt (q.slot q.head) 64

/-- Skip the uncorrectable elements at the head, with fuel. -/
def skipBad (n : Nat) : Nat → State → State
  | 0, s => s
  | f + 1, s => if (s.queue n).valid && (s.queue n).count != 0 && s.headBad n then skipBad n f (s.ringError n) else s

/-- A hardware consumer's look at the head of its queue: the element, after skipping bad ones. It takes one only when a transfer
of port 13 can be granted (R420, R421, R433). -/
def State.hwHead (s : State) (n : Nat) : Option (List Byte) × State :=
  if s.hwGrants && s.enabled pgQMG then
    let s1 := skipBad n ((s.queue n).count) s
    let q := s1.queue n
    if q.valid && q.count != 0 then (some (s1.bytes (q.slot q.head) 64), s1) else (none, s1)
  else (none, s)

/-- A hardware consumer takes the head of its queue (R424), through port 13. -/
def State.hwTake (s : State) (n : Nat) : State := (((s.hwGrant 13).popHead n).delivered n).taken n

/-! ### Status words (R414) -/

/-- The status word of a queue instruction. -/
def State.qStatus (s : State) (n st : Nat) : Nat := st + 16 * (s.queue n).count

/-- ENQ at its grant (R415): status and state. -/
def State.enqAct (s : State) (port : Nat) (o : QOp) : Nat × State :=
  let q := s.queue o.queue
  if !s.enabled pgQMG || !q.valid then (6, s)
  else if badType o.type then (3, s)
  else if 56 < o.len then (4, s)
  else if q.size ≤ q.count then (1, s.qFull o.queue port)
  else (0, s.ringWrite o.queue o.type o.len o.src o.payload)

/-- DEQ at its grant (R415, R416, R429, R431). A warden's DEQ from a queue not its own is no delivery (R416), so it leaves AGE
alone. -/
def State.deqAct (s : State) (c : Cid) (o : QOp) : Nat × State :=
  let n := o.queue
  let q := s.queue n
  if !s.enabled pgQMG || !q.valid then (6, s)
  else if !o.warden && !q.mine c then (if q.orphan then 5 else 2, s)
  else if !o.warden && q.orphan then (5, s)
  else if q.count = 0 then (2, s)
  else if s.headBad n then (7, s.ringError n)
  else
    let (ok, s1) := if o.warden then (true, s) else s.deliver n 0
    if !ok then (5, s1)
    else
      let s2 := match s.regionOf c o.dest with
        | .dram | .sram => s1.storeBytes o.dest (s1.bytes (q.slot q.head) 64)
        | .codeStore | .bootRom => s1
        | _ => s1.unassigned (.ctx c (srPL (s.cx c).sr)) o.dest true
      let s3 := s2.popHead n
      (0, if q.mine c then (s3.delivered n).taken n else s3)

/-! ### Ports (R420) -/

/-- Put a transfer at the end of a port's queue. -/
def State.queuePush (s : State) (p : Fin 15) (o : QOp) : State := { s with qports := s.qports.set p (s.qports[p] ++ [o]) }

/-- A hardware producer offers an element. -/
def State.offer (s : State) (p : Fin 15) (n type src : Nat) (payload : List Byte) (o : QOrigin) : State :=
  s.queuePush p { queue := n, take := false, warden := false, type := type, len := payload.length, src := src
                  payload := payload, dest := 0, origin := o }

/-- The queue manager's port of a context. -/
def queuePort (c : Cid) : Fin 15 := if isWardenCid c then 8 else ⟨c.toNat / 64 % 8, by omega⟩

/-- Is a transfer a hardware agent's (R421)? -/
def QOp.hw (o : QOp) : Bool :=
  match o.origin with
  | .ctx .. => false
  | _ => true

/-- Is a transfer one of lane I/O's or the network's ports? It holds one of their own 2,048 transfer tags until the queue manager
answers (R25). DEDUCED, log 60. -/
def QOp.portTag (o : QOp) : Bool :=
  match o.origin with
  | .lane .. | .net .. => true
  | _ => false

/-- Is a lane I/O and network transfer tag free (R25, R526)? -/
def State.portTagFree (s : State) : Bool := decide (((s.qports[9] ++ s.qports[11]).filter QOp.portTag).length < 2048)

/-- The queue that a block takes from next among those of its CKIND that it can serve (R424, R427). -/
def State.chosenQueue (s : State) (ckind : Nat) (serves : Nat → Bool) : Option Nat :=
  (s.qOrder (((s.queues.filter (fun q => q.2.ckind == ckind && q.2.valid && q.2.count != 0)).map (·.1)).filter serves)).head?

/-- The transfer a port presents: its head, once a tag is free for it (R421). -/
def State.qPresents (s : State) (p : Fin 15) : Option QOp := s.qports[p].head?.filter (fun o => s.tagFree o.hw)

/-- The scan of a grant cycle (R420), each transfer performed by `act`: `fuel` ports are left. -/
def qScan (act : State → Fin 15 → QOp → State) (ptr : Nat) : Nat → Nat → Nat → Option Nat → State → State × Option Nat
  | 0, _, _, last, s => (s, last)
  | fuel + 1, k, g, last, s =>
    let p : Fin 15 := ⟨(ptr + k) % 15, Nat.mod_lt _ (by decide)⟩
    if g < 4 then
      match s.qPresents p with
      | some o => qScan act ptr fuel (k + 1) (g + 1) (some p)
          (((act { s with qports := s.qports.set p (s.qports[p].drop 1) } p o).holdTag o.hw).count 13 none 1)
      | none => qScan act ptr fuel (k + 1) g last s
    else (s, last)

/-- One grant cycle: tags whose ring access has completed return, then the scan grants. A transfer has its effect at its grant,
and its tag stays in use for a free number of cycles. DESIGN CHOICE, log 58. -/
def State.queueCycle (s : State) (act : State → Fin 15 → QOp → State) : State :=
  if s.queueRuns then
    let (s1, last) := qScan act s.qptr 15 0 0 none s.returnTags
    match last with
    | some p => { s1 with qptr := (p + 1) % 15 }
    | none => s1
  else s

/-! ### WAITQ (R415) -/

/-- The context's queues that WAITQ considers, in the order of choice. -/
def State.waitSet (s : State) (c : Cid) : List Nat :=
  s.qOrder ((s.queues.filter (fun p => p.2.mine c && p.2.wake && p.2.st == 2 && p.2.count != 0)).map (·.1))

/-- The first queue that passes the delivery check, orphaning each that fails it. -/
def firstDeliverable (s : State) : List Nat → Option Nat × State
  | [] => (none, s)
  | n :: r =>
    let s0 := skipBad n ((s.queue n).count) s
    if (s0.queue n).count = 0 then firstDeliverable s0 r
    else match s0.deliver n 1 with
      | (true, s1) => (some n, s1)
      | (false, s1) => firstDeliverable s1 r

/-- WAITQ's selection, which is a delivery (R416) and takes no element. A disabled queue manager delivers nothing (R37). -/
def State.select (s : State) (c : Cid) : Option Nat × State :=
  if s.enabled pgQMG then
    match firstDeliverable s (s.waitSet c) with
    | (some n, s1) => (some n, s1.delivered n)
    | r => r
  else (none, s)

/-! ### The queue state window (R404–R409, R425, R426) -/

/-- The queue and offset of a window address. -/
def winQueue (a : Nat) : Nat := (a - qwBase) / 64
def winOff (a : Nat) : Nat := (a - qwBase) % 64 / 8 * 8

/-- QCFG as read. -/
def Queue.cfg (q : Queue) : Nat :=
  q.depth + 32 * b2n q.valid + 64 * b2n q.pmode + 128 * q.ckind + 1024 * q.key + 2 ^ 14 * q.prio + 2 ^ 17 * b2n q.wake +
    2 ^ 18 * b2n q.wlock

/-- QBIND as read (R407). -/
def Queue.bind (q : Queue) : Nat :=
  if q.ckind != 0 then 0 else q.cid.toNat + 2 ^ 12 * q.epoch.toNat + 2 ^ 24 * b2n q.bound

/-- A window register as read. -/
def State.winRead (s : State) (a : Nat) : Word :=
  let q := s.queue (winQueue a)
  BitVec.ofNat 40 <|
    match winOff a with
    | 0x00 => q.base.toNat
    | 0x08 => q.cfg
    | 0x10 => q.bind
    | 0x18 => q.head.toNat
    | 0x20 => q.tail.toNat
    | 0x28 => q.st + 4 * q.count + 2 ^ 19 * (if s.flowMode = 0 then 0 else q.age)
    | 0x38 => q.fulls + 2 ^ 20 * q.discarded
    | _ => 0

/-- A refused window write: the page's error with the offset in the queue's block (R430). DEDUCED, log 33. -/
def State.winErr (s : State) (n code off : Nat) (r : Requester) : State :=
  let s1 := if s.flag (F.HDR.PG_INT_STATUS.ERR pgQMG) then s else s.put F.QMG.WIN_ERR.QUEUE n
  s1.pageErr pgQMG code off r true

/-- A write of QCFG (R405, R406). DEDUCED, log 51. -/
def State.writeQcfg (s : State) (r : Requester) (n : Nat) (v : Word) : State :=
  let q := s.queue n
  let depth := getF v 0 5
  let valid := v.getLsbD 5
  let ckind := getF v 7 3
  let wlock := v.getLsbD 18
  if (q.wlock || wlock != q.wlock) && !reqWarden r then s.winErr n 0x11 8 r
  else if depth < 4 ∨ 16 < depth ∨ 5 < ckind then s.winErr n 0x14 8 r
  else if q.valid && depth != q.depth then s.winErr n 0x10 8 r
  else
    let size := 2 ^ depth * 64
    if valid && !q.valid && (q.base.toNat % size != 0 || !s.inDram q.base.toNat size) then s.winErr n 0x12 8 r
    else
      let q1 := if q.valid && !valid then q.discard else q
      let q2 := if valid && !q.valid then { q1 with head := 0, tail := 0, orphan := false } else q1
      s.setQueue n { q2 with
        depth := depth, valid := valid, pmode := v.getLsbD 6, ckind := ckind, key := getF v 10 4, prio := getF v 14 3
        wake := v.getLsbD 17, wlock := wlock, orphan := q2.orphan && ckind == 0 }

/-- A write of QBASE (R406). -/
def State.writeQbase (s : State) (r : Requester) (n : Nat) (v : Word) : State :=
  let q := s.queue n
  let b := v &&& 0xFFFFFFFFC0
  if q.wlock && !reqWarden r then s.winErr n 0x11 0 r
  else if q.valid && b != q.base then s.winErr n 0x10 0 r
  else s.setQueue n { q with base := b }

/-- A write of QBIND (R407). -/
def State.writeQbind (s : State) (r : Requester) (n : Nat) (v : Word) : State :=
  let q := s.queue n
  if q.wlock && !reqWarden r then s.winErr n 0x11 0x10 r
  else if q.ckind != 0 then s
  else
    let c := v.extractLsb' 0 12
    if v.getLsbD 24 then
      if !validCid c then s.winErr n 0x13 0x10 r
      else s.setQueue n { q with cid := c, epoch := (s.cx c).role, bound := true, orphan := false }
    else s.setQueue n { q with cid := c, bound := false, orphan := false }

/-- The tail doorbell (R425). -/
def State.tailBell (s : State) (r : Requester) (n : Nat) (i : BitVec 17) : State :=
  let q := s.queue n
  let q1 := { q with tail := i }
  if q.valid && q.pmode && i != q.tail && decide (q.count < q1.count) && decide (q1.count ≤ q.size) then
    let s1 := s.setQueue n q1
    if q.count = 0 then s1.msixRaise n else s1
  else s.winErr n 0x15 0x30 r

/-- The head doorbell (R426). -/
def State.headBell (s : State) (r : Requester) (n : Nat) (i : BitVec 17) : State :=
  let q := s.queue n
  let q1 := { q with head := i }
  if q.valid && q.ckind == 5 && i != q.head && decide (q1.count < q.count) then
    let s1 := (s.setQueue n q1).delivered n
    if q1.count != 0 then s1.msixRaise n else s1
  else s.winErr n 0x15 0x30 r

/-- A write of QCMD (R409, R425, R426). -/
def State.writeQcmd (s : State) (r : Requester) (n : Nat) (v : Word) : State :=
  let q := s.queue n
  if q.wlock && !reqWarden r then s.winErr n 0x11 0x30 r
  else if v.getLsbD 19 then s.setQueue n q.discard
  else if v.getLsbD 18 then
    (if v.getLsbD 17 then s.headBell r n (v.extractLsb' 0 17) else s.tailBell r n (v.extractLsb' 0 17))
  else s

/-- A write to the window (R31–R33). Bits a host write does not cover keep their values, and take no action in
QCMD. -/
def State.winWrite (s : State) (r : Requester) (a : Nat) (v cov : Word) : State :=
  let n := winQueue a
  let w := (v &&& cov) ||| (s.winRead a &&& ~~~cov)
  match winOff a with
  | 0x00 => s.writeQbase r n w
  | 0x08 => s.writeQcfg r n w
  | 0x10 => s.writeQbind r n w
  | 0x30 => s.writeQcmd r n w
  | _ => s

/-- A write of a QMG register with an effect of its own (R430). -/
def State.wQmg (s : State) (r : Requester) (off : Nat) (v : Word) : Option State :=
  if off = 0x40 then (if reqWarden r then none else some (s.pageErr pgQMG 0x11 off r true))
  else if off = 0x800 then
    (if 256 ≤ getF v 0 12 ∧ getF v 0 12 ≤ 1792 then none else some (s.pageErr pgQMG 0x14 off r true))
  else none

end Sys2Proof.Machine
end

