-- ==== Sys2Proof/Machine/Recorder.lean ====
section
/-! DEFINITION. The event recorder (R77–R80, R607–R615): records, partitions, software events and clearing. -/

namespace Sys2Proof.Machine

/-- The 40 bytes of a record (R77). -/
def State.recordBytes (s : State) (e : RecEvent) (prot : Bool) : List Byte :=
  let b := leBytes 2 e.code ++ leBytes 1 e.source ++ leBytes 1 (e.severity % 8 + 8 * b2n prot) ++
    leBytes 4 (s.get F.REC.NEXT_SEQ.SEQ) ++ leBytes 5 (s.get F.REC.OPTIME.TIME) ++ leBytes 4 (s.get F.REC.PCYCLES.COUNT) ++
    leBytes 5 e.p0.toNat ++ leBytes 5 e.p1.toNat ++ leBytes 5 e.p2.toNat ++ leBytes 4 0
  b ++ leBytes 4 (crc32 b)

/-- A slot's record; an empty slot reads zero. -/
def State.slot (s : State) (n : Nat) : List Byte := tabGet [] s.recs n

/-- SEQ of a record. -/
def recSeq (r : List Byte) : Nat := leVal ((r.drop 4).take 4)

/-- Put a record in a slot, take the next SEQ, and raise the alert of its severity (R78, R619). -/
def State.putRecord (s : State) (n : Nat) (e : RecEvent) (prot : Bool) : State :=
  let s1 := { s with recs := tabSet [] s.recs n (s.recordBytes e prot) }.bump F.REC.NEXT_SEQ.SEQ 1
  if s.get F.REC.ALERT.SEVERITY ≤ e.severity % 8 then s1.pageInt pgREC 1 else s1

/-- Write a record to the general ring (R607). -/
def State.putGeneral (s : State) (e : RecEvent) : State :=
  let h := s.get F.REC.GEN_HEAD.SLOT
  let s1 := if s.slot h = [] then s.bump F.REC.COUNTS.GEN 1 else s
  (s1.putRecord h e false).put F.REC.GEN_HEAD.SLOT (if h + 1 < 61440 then h + 1 else 0)

/-- Records the protected data area can still take. -/
def State.protRoom (s : State) : Nat := 3840 - s.get F.REC.COUNTS.PROT

/-- Does an event go to the protected data area (R609, R611)? -/
def RecEvent.prot (e : RecEvent) : Bool := (protectedEvent e.code && e.code != 0x1601) || bitOf e.severity 3

/-- Records of the protected data area free for an action that must not happen without one (R609): those the
intake does not hold already. -/
def State.protFree (s : State) : Bool := decide ((s.intake.filter RecEvent.prot).length < s.protRoom)

/-- The first empty slot of the protected data area from `n` on, in order, with fuel. -/
def State.protSlot (s : State) : Nat → Nat → Nat
  | 0, n => n
  | f + 1, n => if s.slot n = [] then n else s.protSlot f (if n + 1 < 65280 then n + 1 else 61440)

/-- Write a record to the protected data area, or to the general ring when it is full (R609). -/
def State.putProtected (s : State) (e : RecEvent) : State :=
  if s.protRoom = 0 then
    (((s.putGeneral { e with severity := e.severity % 8 }).bumpSat F.REC.LOST.PROT).put F.REC.STATUS.PROT_FULL 1).pageInt pgREC 3
  else
    let n := s.protSlot 3840 s.protNext
    let s1 := (s.putRecord n e true).bump F.REC.COUNTS.PROT 1
    { s1 with protNext := if n + 1 < 65280 then n + 1 else 61440 }

/-- Write a clear event to the clear area (R613). With the area full no clear writes one; one that a block raises then goes to
the general ring (DESIGN CHOICE, log 107). -/
def State.putClear (s : State) (e : RecEvent) : State :=
  let k := s.get F.REC.COUNTS.CLEAR
  if k = 256 then s.putGeneral { e with severity := e.severity % 8 } else
  let s1 := (s.putRecord (65280 + k) e true).bump F.REC.COUNTS.CLEAR 1
  if k = 255 then s1.put F.REC.STATUS.CLEAR_FULL 1 else s1

/-- Write one event's record. -/
def State.writeRecord (s : State) (e : RecEvent) : State :=
  if e.code = 0x1601 then s.putClear e else if e.prot then s.putProtected e else s.putGeneral e

/-- The recorder writes the oldest record of its intake; once there is room, the loss report follows (R608). -/
def State.recordNext (s : State) : State :=
  match s.intake with
  | [] => s
  | e :: r =>
    let s1 := ({ s with intake := r } : State).writeRecord e
    if s.recLost != 0 && decide (r.length < 64) then { s1.event 0x1603 0x16 2 s.recLost 0 0 with recLost := 0 } else s1

/-! ### Reading (R610) -/

/-- A write of RD_SLOT selects a slot: RD_W0 to RD_W7 take its bytes. -/
def State.selectSlot (s : State) (n : Nat) : State :=
  let b := s.slot n
  (List.range 8).foldl (fun s i => s.setReg (R.REC.RD_W i) (BitVec.ofNat 40 (leVal ((b.drop (5 * i)).take 5))))
    (s.put F.REC.RD_SLOT.SLOT n)

/-! ### Software events (R611) -/

/-- The key of a requester's copy. -/
def reqKey : Requester → Nat
  | .ctx c _ => c.toNat
  | .host => 0xFFF
  | .engine => 0xFFE

/-- A copy at reset. -/
def SwCopy.init : SwCopy := { code := 0, p0 := 0, p1 := 0, p2 := 0 }

/-- A requester's copy. -/
def State.swCopy (s : State) (r : Requester) : SwCopy := tabGet SwCopy.init s.swCopies (reqKey r)

/-- Write a requester's copy. -/
def State.setSwCopy (s : State) (r : Requester) (c : SwCopy) : State :=
  { s with swCopies := tabSet SwCopy.init s.swCopies (reqKey r) c }

/-- SW_CTRL.GO: a software event from the requester's copy, or code 0x13. -/
def State.swEvent (s : State) (r : Requester) : State :=
  let c := s.swCopy r
  let code := getF c.code 0 16
  let sev := getF c.code 16 3
  if code < 0xF000 || (!reqWarden r && (3 < sev || c.code.getLsbD 19)) then s.pageErr pgREC 0x13 0xE0 r true
  else s.event code 0 (sev + 8 * b2n (c.code.getLsbD 19)) c.p0.toNat c.p1.toNat c.p2.toNat

/-! ### Clearing (R612–R615) -/

/-- Draw bytes from the DRBG for one job, with its reseed count (R606). -/
def State.drbg (s : State) (n : Nat) : List Byte × State :=
  let (i, s1) := s.draw
  let bs := (List.range n).map (Config.drbg i)
  if s.get F.SEC.RNG_RESEED.JOBS ≤ s.drbgJobs + 1 then (bs, ({ s1 with drbgJobs := 0 } : State).bump F.SEC.RNG_STATUS.RESEEDS 1)
  else (bs, { s1 with drbgJobs := s.drbgJobs + 1 })

/-- NONCE is renewed from the DRBG. -/
def State.renewNonce (s : State) : State :=
  let (bs, s1) := s.drbg 5
  s1.setReg R.REC.NONCE (BitVec.ofNat 40 (leVal bs))

/-- CLEAR_CTRL.GO by a warden: the attempt takes the authorization as it stands. -/
def State.clearGo (s : State) : State :=
  let a := s.get F.REC.CLEAR_ADDR.ADDR
  let q : ClearReq := { auth := s.bytes a 96, seq := s.get F.REC.NEXT_SEQ.SEQ }
  ({ s with clears := s.clears ++ [q] }.put F.REC.CLEAR_CTRL.GO 1).engineReads a 96

/-- Is a record covered by a clear: at or below UPTO, and written before its GO (R612, R613)? -/
def ClearRun.covers (c : ClearRun) (r : List Byte) : Bool :=
  r != [] && decide ((c.upto + 2 ^ 32 - recSeq r) % 2 ^ 32 < 2 ^ 31) && decide ((c.seq + 2 ^ 32 - 1 - recSeq r) % 2 ^ 32 < 2 ^ 31)

/-- Is a slot in the partition of a clear? -/
def ClearRun.holds (c : ClearRun) (n : Nat) : Bool :=
  if c.part = 0 then decide (n < 61440) else decide (61440 ≤ n) && decide (n < 65280)

/-- The slots a clear erases. -/
def State.covered (s : State) (c : ClearRun) : List Nat :=
  (s.recs.filter (fun p => c.holds p.1 && c.covers p.2)).map (·.1)

/-- The public key of a vault slot with VERIFY usage. -/
def State.verifyKey (s : State) (n : Nat) : Option (List Byte) :=
  if !s.flag (F.VAULT.SLOT_ATTR.VALID n) || !bitOf (s.get (F.VAULT.SLOT_ATTR.USAGE n)) 3 then none
  else match s.get (F.VAULT.SLOT_ATTR.TYPE n) with
    | 3 => some (p256Public (beVal (tabGet [] s.vault n)))
    | 4 => some (tabGet [] s.vault n)
    | _ => none

/-- DEVICE_ID. -/
def State.deviceId (s : State) : Nat := s.get F.SEC.DEV_ID_LO.ID + 2 ^ 40 * s.get F.SEC.DEV_ID_HI.ID

/-- RESULT of a clear attempt. -/
def State.clearResult (s : State) (q : ClearReq) : Nat :=
  let a := q.auth
  let f (i n : Nat) := leVal ((a.drop i).take n)
  if s.clearRun.isSome then 5
  else if beVal (a.take 4) ≠ 0x52434C52 ∨ f 4 8 ≠ s.deviceId ∨ 1 < f 12 1 ∨ f 13 3 ≠ 0 ∨ f 25 7 ≠ 0 then 1
  else if f 20 5 ≠ s.get F.REC.NONCE.NONCE then 2
  else match s.verifyKey (s.get F.REC.CLEAR_CFG.SLOT) with
    | none => 3
    | some k =>
      if !ecdsaVerify k (sha256 (a.take 32)) (a.drop 32) then 3
      else if s.get F.REC.COUNTS.CLEAR = 256 then 4 else 0

/-- The verification of the oldest attempt ends: NONCE is renewed, and event 0x1602 follows, or event 0x1601 in the clear area
and erasure starts. -/
def State.clearVerified (s : State) : State :=
  match s.clears with
  | [] => s
  | q :: rest =>
    let res := s.clearResult q
    let s0 := ({ s with clears := rest }.put F.REC.CLEAR_CTRL.GO (b2n (rest != []))).renewNonce
    let s1 := s0.put F.REC.CLEAR_STATUS.RESULT res
    if res != 0 then s1.event 0x1602 0x16 2 res 0 0
    else
      let run : ClearRun := { part := leVal ((q.auth.drop 12).take 1), upto := leVal ((q.auth.drop 16).take 4), seq := q.seq }
      let s2 := s1.putClear { code := 0x1601, source := 0x16, severity := 1, p0 := BitVec.ofNat 40 run.part
                              p1 := BitVec.ofNat 40 run.upto, p2 := BitVec.ofNat 40 (s.covered run).length }
      { (s2.put F.REC.CLEAR_STATUS.ERASING 1).put F.REC.STATUS.ERASING 1 with clearRun := some run }

/-- The erasure ends: the covered records are gone (R613, R614). -/
def State.clearEnd (s : State) : State :=
  match s.clearRun with
  | none => s
  | some c =>
    let ns := s.covered c
    let s1 := { s with recs := s.recs.filter (fun p => !(c.holds p.1 && c.covers p.2)), clearRun := none }
    let s2 := if c.part = 0 then s1.put F.REC.COUNTS.GEN (s.get F.REC.COUNTS.GEN - ns.length)
      else (s1.put F.REC.COUNTS.PROT (s.get F.REC.COUNTS.PROT - ns.length)).put F.REC.STATUS.PROT_FULL
        (if ns.isEmpty then s.get F.REC.STATUS.PROT_FULL else 0)
    (((s2.put F.REC.CLEAR_STATUS.ERASING 0).put F.REC.STATUS.ERASING 0)).pageInt pgREC 4

/-! ### Register writes (R611, R613, R619) -/

/-- A write of a REC register with an effect of its own. -/
def State.wRec (s : State) (r : Requester) (off : Nat) (v : Word) : Option State :=
  let warden := if reqWarden r || r == .engine then none else some (s.pageErr pgREC 0x11 off r true)
  let c := s.swCopy r
  if off = 0x78 then some (s.selectSlot (getF v 0 16))
  else if off = 0xC0 then some (s.setSwCopy r { c with code := v &&& 0xFFFFF })
  else if off = 0xC8 then some (s.setSwCopy r { c with p0 := v })
  else if off = 0xD0 then some (s.setSwCopy r { c with p1 := v })
  else if off = 0xD8 then some (s.setSwCopy r { c with p2 := v })
  else if off = 0xE0 then some (if v.getLsbD 0 then s.swEvent r else s)
  else if off = 0xF0 ∨ off = 0xF8 then warden
  else if off = 0x100 then warden.orElse (fun _ => some (if v.getLsbD 0 then s.clearGo else s))
  else none

/-- A read of a REC register with a value of its own: a requester's own copy. -/
def State.rRec (s : State) (r : Requester) (off : Nat) : Option Word :=
  let c := s.swCopy r
  if off = 0xC0 then some c.code else if off = 0xC8 then some c.p0 else if off = 0xD0 then some c.p1
  else if off = 0xD8 then some c.p2 else none

/-! ### Commands -/

/-- RECORDER_EVENT (R608). -/
def execRecorderEvent (code : BitVec 16) (source : Byte) (sev : BitVec 3) (p0 p1 p2 : Word) (s : State) :
    Host.Outcome State Fault Refusal :=
  .next (if code = 0 then s else s.event code.toNat source.toNat sev.toNat p0.toNat p1.toNat p2.toNat)

/-- RECORDER_WRITE (R608). The recorder lies in PD0 and runs through an eclipse and last gasp. -/
def execRecorderWrite (s : State) : Host.Outcome State Fault Refusal := .next s.recordNext

/-- CLEAR_VERIFIED (R613). The attempt's nonce needs the random source (R606), so it waits for it (DESIGN CHOICE, log 107). -/
def execClearVerified (s : State) : Host.Outcome State Fault Refusal :=
  .next (if s.live pgSEC && s.enabled pgSEC && s.flag F.SEC.RNG_STATUS.READY then s.clearVerified else s)

/-- CLEAR_ERASE_END (R613). -/
def execClearEraseEnd (s : State) : Host.Outcome State Fault Refusal := .next s.clearEnd

end Sys2Proof.Machine
end

