-- ==== Sys2Proof/Machine/Security.lean ====
section
/-! DEFINITION. Warden cores' watchdog and expert grants, fuses, the key vault, crypto jobs and random numbers
(R590–R606, R615–R618). -/

namespace Sys2Proof.Machine

/-! ### Watchdog and grants (R592, R593, R616) -/

/-- The warden core of a requester. -/
def reqWcore : Requester → Option Nat
  | .ctx c pl => if pl = 3#2 ∧ isWardenCid c then some (c.toNat / 8 % 4) else none
  | _ => none

/-- Restart a warden core: both contexts stop after their landings, context 0 starts at WDOG_PC. -/
def State.wardenRestart (s : State) (k : Nat) : State :=
  let c0 : Cid := BitVec.ofNat 12 (0x200 + 8 * k)
  let c1 : Cid := BitVec.ofNat 12 (0x201 + 8 * k)
  let stop (s : State) (c : Cid) : State := (s.stopStr c).stopRun c .halted none
  let s1 := stop (stop s c0) c1
  let s2 := s1.modCx c0 (fun x => { x with pc := s.reg R.WRD.WDOG_PC, sr := srReset c0 })
  ((s2.startRun c0).put F.WRD.WDOG_STATUS.RESTARTED (s.get F.WRD.WDOG_STATUS.RESTARTED ||| 2 ^ k)).event 0x0D02 0x0D 4 k
    (s.get F.WRD.WDOG_PC.PC) 0

/-- A period of a watched core ends without its kick. -/
def State.wdogExpiry (s : State) (k : Nat) : State :=
  if !bitOf (s.get F.WRD.WDOG_CFG.EN) k then s
  else if bitOf (s.get F.WRD.WDOG_STATUS.EXPIRED) k then s.wardenRestart k
  else ((s.put F.WRD.WDOG_STATUS.EXPIRED (s.get F.WRD.WDOG_STATUS.EXPIRED ||| 2 ^ k)).pageInt pgWRD (1 + k)).event 0x0D01 0x0D 3 k
    (s.get F.WRD.WDOG_CFG.PERIOD) 0

/-- SYS.EXPERT_GRANT changes (R45, R46, R593): the event names the writer; a grant from zero starts the
countdown. -/
def State.changeGrant (s : State) (v : Word) (writer : Nat) : State :=
  let old := s.reg R.SYS.EXPERT_GRANT
  let s1 := s.writeGrant v
  let new := s1.reg R.SYS.EXPERT_GRANT
  if new = old then s1
  else
    let s2 := if old = 0 then { s1.put F.WRD.GRANT_EXPIRE.LEFT (s.get F.WRD.GRANT_EXPIRE.SECONDS) with grantTicks := 0 } else s1
    let s3 := if new = 0 then s2.put F.WRD.GRANT_EXPIRE.LEFT 0 else s2
    s3.event 0x0D03 0x0D 1 old.toNat new.toNat writer

/-- A write of WDOG_CFG (R592, R616): a PERIOD out of range keeps its value, an EN bit that may not be set stays clear, and
the rest is written. -/
def State.wWdogCfg (s : State) (r : Requester) (v : Word) : State :=
  let p := getF v 0 16
  let old := s.get F.WRD.WDOG_CFG.EN
  let en := getF v 16 4
  let badP := decide (p < 1) || decide (60000 < p)
  let badEn := getF (v &&& ~~~(s.reg R.WRD.WDOG_CFG)) 16 4 != 0 && !codeOk (s.reg R.WRD.WDOG_PC)
  let s1 := if badP then s.pageErr pgWRD 0x13 0x40 r true else s.put F.WRD.WDOG_CFG.PERIOD p
  if badEn then (s1.pageErr pgWRD 0x12 0x40 r true).put F.WRD.WDOG_CFG.EN (en &&& old) else s1.put F.WRD.WDOG_CFG.EN en

/-- A write of a WRD register (R616): warden contexts only. -/
def State.wWrd (s : State) (r : Requester) (off : Nat) (v : Word) : Option State :=
  if !reqWarden r then some (s.pageErr pgWRD 0x11 off r true)
  else if off = 0x40 then some (s.wWdogCfg r v)
  else if off = 0x48 then
    match reqWcore r with
    | some k =>
      let e := s.get F.WRD.WDOG_STATUS.EXPIRED
      some (if v.getLsbD 0 && bitOf e k then s.put F.WRD.WDOG_STATUS.EXPIRED (e - 2 ^ k) else s)
    | none => some s
  else none

/-! ### Revocation (R597) -/

/-- A write of SEC.REVOKE. -/
def State.revoke (s : State) (r : Requester) (v : Word) : State :=
  let k := getF v 0 2
  let revoked := s.get F.SEC.BOOT_STATUS.REVOKED
  let other := (List.range 4).any (fun j => j != k && bitOf (s.get F.SEC.BOOT_STATUS.PROG) j && !bitOf revoked j)
  if !reqWarden r then s.pageErr pgSEC 0x11 0x58 r true
  else if !v.getLsbD 2 then s
  else if k = s.get F.SEC.BOOT_STATUS.KEY || !other || !s.protFree then s.pageErr pgSEC 0x12 0x58 r true
  else (s.put F.SEC.BOOT_STATUS.REVOKED (revoked ||| 2 ^ k)).event 0x1A01 0x1A 2 k (s.get F.SEC.BOOT_STATUS.KEY) 0

/-! ### The vault (R598, R599, R618) -/

/-- A slot's key material. -/
def State.key (s : State) (n : Nat) : List Byte := tabGet [] s.vault n

/-- SLOTn_ATTR fields. -/
def State.slotType (s : State) (n : Nat) : Nat := s.get (F.VAULT.SLOT_ATTR.TYPE n)
def State.slotValid (s : State) (n : Nat) : Bool := s.flag (F.VAULT.SLOT_ATTR.VALID n)
def State.slotUse (s : State) (n bit : Nat) : Bool := bitOf (s.get (F.VAULT.SLOT_ATTR.USAGE n)) bit

/-- Fill a slot, or empty it with no bytes. VALID follows, and its change sets bit 1 of the vault page. -/
def State.setKey (s : State) (n : Nat) (k : List Byte) : State :=
  let v := b2n (k != [])
  let s1 := ({ s with vault := tabSet [] s.vault n k } : State).put (F.VAULT.SLOT_ATTR.VALID n) v
  if v = s.get (F.VAULT.SLOT_ATTR.VALID n) then s1 else s1.pageInt pgVAULT 1

/-- X ‖ Y of a P-256 slot. -/
def State.pubOf (s : State) (n : Nat) : List Byte :=
  if s.slotType n = 3 then p256Public (beVal (s.key n)) else s.key n

/-- The KEY_ID bytes 0 to 4 of a slot for event 0x1A03: zero for a symmetric key. -/
def State.keyId (s : State) (n : Nat) : Nat :=
  if s.slotType n = 3 ∨ s.slotType n = 4 then leVal ((sha256 (s.pubOf n)).take 5) else 0

/-- A write of SLOTn_ATTR (R618): a TYPE that is not assigned keeps its value, and the rest is written. -/
def State.wVault (s : State) (r : Requester) (off : Nat) (v : Word) : Option State :=
  if 0x40 ≤ off ∧ off < 0x240 then
    let n := (off - 0x40) / 8
    if !reqWarden r then some (s.pageErr pgVAULT 0x11 off r true)
    else if s.slotValid n || s.flag (F.VAULT.SLOT_ATTR.FIXED n) then some (s.pageErr pgVAULT 0x10 off r true)
    else if getF v 0 3 < 1 ∨ 4 < getF v 0 3 then
      some ((s.pageErr pgVAULT 0x13 off r true).plainWrite .vault (pgVAULT + off) (putF v 0 3 (s.slotType n)))
    else none
  else none

/-! ### Jobs (R600–R604) -/

/-- A job descriptor. -/
structure Desc where
  op : Nat
  slot : Nat
  slot2 : Nat
  flags : Nat
  src : Nat
  srcLen : Nat
  dst : Nat
  dstLen : Nat
  aux : Nat
  auxLen : Nat
  aadLen : Nat
  zero : Bool
deriving DecidableEq, Repr

/-- The address of a channel's descriptor, as JOBc_ADDR gave it at GO (DESIGN CHOICE, log 107). -/
def State.jobAddr (s : State) (ch : Nat) : Nat := (s.jobs[ch]?.map (·.addr)).getD 0

/-- The descriptor of a channel. -/
def State.desc (s : State) (ch : Nat) : Desc :=
  let b := s.bytes (s.jobAddr ch) 64
  let f (i n : Nat) := leVal ((b.drop i).take n)
  { op := f 0 1, slot := f 1 1, slot2 := f 2 1, flags := f 3 1, src := f 4 5, srcLen := f 9 3, dst := f 12 5, dstLen := f 17 3
    aux := f 20 5, auxLen := f 25 2, aadLen := f 27 3
    zero := f 30 2 == 0 && f 33 1 == 0 && f 37 27 == 0 && decide (f 3 1 < 2) }

/-- Slot type and usage bit an operation asks of SLOT (R602): types, and the USAGE bit counted from bit 4 of
ATTR. -/
def opSlot (d : Desc) : Option (List Nat × Option Nat) :=
  match d.op with
  | 0x02 => some ([2], some 2) | 0x03 => some ([1], some 0) | 0x04 => some ([1], some 1) | 0x05 => some ([1], some 0)
  | 0x06 => some ([1], some 0) | 0x07 => some ([1], some 1) | 0x08 => some ([3], some 2)
  | 0x09 => if d.flags = 1 then none else some ([3, 4], some 3)
  | 0x0A => some ([3], some 4) | 0x0C => some ([3, 4], none) | 0x0D => some ([1], some 5)
  | _ => none

/-- Does an operation write SLOT2? -/
def opSlot2 (op : Nat) : Bool := op == 0x0A || op == 0x0B || op == 0x0D || op == 0x0F || op == 0x10

/-- Does an operation draw random bits (R606)? -/
def opRandom (op : Nat) : Bool := op == 0x08 || op == 0x0B || op == 0x0E

/-- The unit that runs a job: 1 for the public-key unit. -/
def State.opUnit (s : State) (d : Desc) : Nat :=
  b2n (d.op == 0x08 || d.op == 0x09 || d.op == 0x0A || d.op == 0x0C || d.op == 0x10 || (d.op == 0x0B && s.slotType d.slot2 == 3))

/-- Check 2 of R603. -/
def State.slot2Ok (s : State) (ch : Nat) (d : Desc) : Bool :=
  let n := d.slot2
  if !opSlot2 d.op then true
  else decide (n < 64) && (decide (ch < 2) || (d.op != 0x0F && d.op != 0x10 && decide (32 ≤ n))) &&
    !s.flag (F.VAULT.SLOT_ATTR.FIXED n) && (d.op == 0x0F || !s.slotValid n) &&
    (decide (32 ≤ n) || s.flag F.SEC.BOOT_STATUS.VERIFIED) &&
    (match d.op with
      | 0x0A => s.slotType n == 2
      | 0x0B => decide (1 ≤ s.slotType n) && decide (s.slotType n ≤ 3)
      | 0x0D => s.slotType n != 0
      | 0x10 => s.slotType n == 4
      | _ => true)

/-- Check 3 of R603. -/
def State.slotOk (s : State) (ch : Nat) (d : Desc) : Bool :=
  match opSlot d with
  | none => true
  | some (ts, use) =>
    decide (d.slot < 64) && s.slotValid d.slot && ts.contains (s.slotType d.slot) && (use.all (s.slotUse d.slot)) &&
      (decide (ch < 2) || s.flag (F.VAULT.SLOT_ATTR.SUP d.slot)) && (decide (32 ≤ d.slot) || s.flag F.SEC.BOOT_STATUS.VERIFIED)

/-- The buffers an operation uses: address, length, and whether it is written. -/
def Desc.bufs (d : Desc) : List (Nat × Nat × Bool) :=
  let src := (d.src, d.srcLen, false)
  let dst := (d.dst, d.dstLen, true)
  let aux := (d.aux, d.auxLen, false)
  match d.op with
  | 0x01 | 0x02 | 0x08 => [src, dst]
  | 0x03 | 0x04 | 0x05 | 0x06 | 0x07 => [src, dst, aux]
  | 0x09 => if d.flags = 1 then [src, aux] else [src]
  | 0x0A => [aux]
  | 0x0C | 0x0E => [dst]
  | 0x0D => [src, aux]
  | 0x10 => [src]
  | _ => []

/-- Are the lengths as R602 requires? -/
def State.lengthsOk (s : State) (d : Desc) : Bool :=
  match d.op with
  | 0x01 | 0x02 => d.dstLen == 32
  | 0x03 => d.auxLen == 12 && decide (d.aadLen ≤ d.srcLen) && d.dstLen == d.srcLen - d.aadLen + 16
  | 0x04 => d.auxLen == 12 && decide (d.srcLen ≤ 65536) && decide (d.aadLen + 16 ≤ d.srcLen) && d.dstLen == d.srcLen - d.aadLen - 16
  | 0x05 => d.auxLen == 16 && d.dstLen == d.srcLen
  | 0x06 | 0x07 => d.auxLen == 16 && d.srcLen % 16 == 0 && d.dstLen == d.srcLen
  | 0x08 => d.srcLen == 32 && d.dstLen == 64
  | 0x09 => d.srcLen == 96 && (d.flags == 0 || d.auxLen == 64)
  | 0x0A => d.auxLen == 64
  | 0x0C => d.dstLen == 64
  | 0x0D => d.auxLen == 12 && d.srcLen == (if s.slotType d.slot2 = 4 then 80 else 48)
  | 0x10 => d.srcLen == 64
  | _ => true

/-- Does every frame of a buffer carry a key, with fuel over its frames? -/
def State.framesKeyed (s : State) (key : Nat) : Nat → Nat → Nat → Bool
  | 0, _, _ => true
  | f + 1, frame, last => if last < frame then true
    else (s.keyByte frame).toNat % 16 == key && s.framesKeyed key f (frame + 1) last

/-- Does a buffer lie in assigned DRAM, in frames of the channel's key? -/
def State.bufOk (s : State) (key : Nat) (b : Nat × Nat × Bool) : Bool :=
  b.2.1 == 0 || (s.inDram b.1 b.2.1 && s.framesKeyed key (b.2.1 / 4096 + 2) (b.1 / 4096) ((b.1 + b.2.1 - 1) / 4096))

/-- May SRC and DST lie as they do? -/
def Desc.overlapOk (d : Desc) : Bool :=
  let uses := d.bufs.any (fun b => b.2.2) && d.bufs.any (fun b => b.1 == d.src && b.2.1 == d.srcLen && !b.2.2)
  let overlap := decide (d.src < d.dst + d.dstLen) && decide (d.dst < d.src + d.srcLen)
  !uses || !overlap || (d.src == d.dst && decide (3 ≤ d.op) && decide (d.op ≤ 7))

/-- Does a buffer that is read meet an uncorrectable error? -/
def State.bufUe (s : State) (b : Nat × Nat × Bool) : Bool :=
  !b.2.2 && s.ue.any (fun e => decide (b.1 < 64 * e.1 + 64) && decide (64 * e.1 < b.1 + b.2.1))

/-- Checks 1 to 6 of R603 as far as they need no result: the first failing status. -/
def State.jobCheck (s : State) (ch : Nat) (d : Desc) : Nat :=
  let key := s.get (F.SEC.JOB_CTRL.KEY ch)
  if d.op = 0 ∨ 0x10 < d.op ∨ !d.zero then 1
  else if !s.slot2Ok ch d || !s.slotOk ch d then 2
  else if !s.lengthsOk d || !d.bufs.all (s.bufOk key) || !d.overlapOk then 3
  else if opSlot2 d.op && decide (d.slot2 < 32) && !s.protFree then 7
  else if d.bufs.any s.bufUe then 6
  else if opRandom d.op && !s.flag F.SEC.RNG_STATUS.READY then 5
  else 0

/-- Fill SLOT2 and record a persistent slot's write (R609, R620). -/
def State.fillSlot (s : State) (d : Desc) (k : List Byte) : State :=
  let s1 := s.setKey d.slot2 k
  if d.slot2 < 32 then s1.event 0x1A03 0x1A 1 d.slot2 d.op (s1.keyId d.slot2) else s1

/-- What a job writes (R602): its status, its output, and the state with its slots. -/
def State.jobRun (s : State) (d : Desc) : Nat × List Byte × State :=
  let src := s.bytes d.src d.srcLen
  let aux := s.bytes d.aux d.auxLen
  let k := s.key d.slot
  let aad := src.take d.aadLen
  let body := src.drop d.aadLen
  match d.op with
  | 0x01 => (0, sha256 src, s)
  | 0x02 => (0, hmac256 k src, s)
  | 0x03 => let ct := gcmCtr k aux body; (0, ct ++ gcmTag k aux aad ct, s)
  | 0x04 =>
    let ct := body.take (body.length - 16)
    if gcmTag k aux aad ct = body.drop (body.length - 16) then (0, gcmCtr k aux ct, s) else (4, [], s)
  | 0x05 => (0, aesCtr k aux src, s)
  | 0x06 => (0, cbcEnc k (d.srcLen / 16) aux src, s)
  | 0x07 => (0, cbcDec k (d.srcLen / 16) aux src, s)
  | 0x08 => let (r, s1) := s.drbg 40; (0, ecdsaSign (beVal k) (privOf (leVal r)) src, s1)
  | 0x09 =>
    let pub := if d.flags = 1 then aux else s.pubOf d.slot
    (if ecdsaVerify pub (src.take 32) (src.drop 32) then 0 else 4, [], s)
  | 0x0A =>
    match ptOf aux with
    | none => (4, [], s)
    | some q => (0, [], s.fillSlot d ((ptBytes (ptMul 256 (beVal k) (some q))).take 32))
  | 0x0B =>
    let (r, s1) := s.drbg 40
    (0, [], s1.fillSlot d (if s.slotType d.slot2 = 3 then beBytes 32 (privOf (leVal r)) else r.take 32))
  | 0x0C => (0, s.pubOf d.slot, s)
  | 0x0D =>
    let n := d.srcLen - 16
    let ct := src.take n
    let attr := leBytes 5 (putF (putF (s.reg (R.VAULT.SLOT_ATTR d.slot2)) 3 1 0) 13 1 0).toNat
    if gcmTag k aux attr ct = src.drop n then (0, [], s.fillSlot d (gcmCtr k aux ct)) else (4, [], s)
  | 0x0E => let (r, s1) := s.drbg d.dstLen; (0, r, s1)
  | 0x0F =>
    let s1 := s.setKey d.slot2 []
    (0, [], if d.slot2 < 32 && s.slotValid d.slot2 then s1.event 0x1A04 0x1A 1 d.slot2 0 0 else s1)
  | _ => match ptOf src with
    | none => (4, [], s)
    | some _ => (0, [], s.fillSlot d src)

/-- The slots a job uses while it runs. -/
def jobSlots (d : Desc) : List Nat :=
  (match opSlot d with | some _ => [d.slot] | none => []) ++ (if opSlot2 d.op && d.op != 0x0F then [d.slot2] else [])

/-- Mark slots in use, or free. -/
def State.markUse (s : State) (ns : List Nat) (v : Nat) : State :=
  (ns.filter (· < 64)).foldl (fun s n => s.put (F.VAULT.SLOT_ATTR.INUSE n) v) s

/-- Can the journal's signature be made: its key is there and there is entropy (R447, R606)? -/
def State.canSign (s : State) : Bool :=
  let key := s.get F.JRN.CFG.SIGN_KEY
  s.slotValid key && s.slotType key == 3 && s.slotUse key 2 && s.flag F.SEC.RNG_STATUS.READY

/-- Has the internal channel a job waiting (R600): a clear's verification, or the journal's signature? -/
def State.internalWaits (s : State) : Bool :=
  !s.clears.isEmpty || (s.canSign && s.jr.batch.any (fun b => b.close.isSome && b.sigDue && !b.sigDone))

/-- Is a unit free? -/
def State.unitFree (s : State) (u : Nat) : Bool :=
  s.jobs.toList.all (fun j => match j.res with | some r => r.unit != u | none => true)

/-- Does a channel hold a job that this unit has still to serve? -/
def State.jobWaits (s : State) (u : Nat) (ch : Nat) : Bool :=
  match s.jobs[ch]? with
  | some j => j.run && j.res.isNone && s.opUnit (s.desc ch) == u
  | none => false

/-- The channel a unit takes next: rotating from the one after the last it served. -/
def State.nextJob (s : State) (u : Nat) : Option Nat :=
  let l := s.unitLast[u]?.getD 3
  ((List.range 4).map (fun i => (l + 1 + i) % 4)).find? (s.jobWaits u)

/-- Do the crypto units run? -/
def State.secRuns (s : State) : Bool := s.live pgSEC && s.enabled pgSEC

/-- The engine serves the job of a channel with an operation: it reads the descriptor (R27), makes the checks of R603, and
runs the job. Its output is written; OUTLEN and STATUS follow at its end (R604). -/
def State.serveJob (s : State) (ch : Fin 4) (op : Nat) : State :=
  let d := s.desc ch
  let u := s.opUnit d
  let waits := d.op == 0x0F && s.flag (F.VAULT.SLOT_ATTR.INUSE d.slot2)
  if !s.secRuns || d.op != op || s.internalWaits || !s.unitFree u || s.nextJob u != some ch.val || waits then s
  else
    let st := s.jobCheck ch d
    let s0 := s.engineReads (s.jobAddr ch) 64
    let (st, out, s1) := if st = 0 then s0.jobRun d else (st, [], s0)
    let used := if st = 0 then jobSlots d else []
    let s2 := (if out.isEmpty then s1 else s1.engineWrite d.dst out).markUse used 1
    { s2 with
      jobs := s2.jobs.set ch { run := true, addr := s.jobAddr ch
                               res := some { unit := u, status := st, outlen := out.length, slots := used } }
      unitLast := s2.unitLast.setIfInBounds u ch }

/-- The job of a channel ends (R601, R603): OUTLEN, then STATUS, the interrupt bit and the channel's status. A
job whose operation is not assigned ends here with status OP. -/
def State.endJob (s : State) (ch : Fin 4) : State :=
  let fin (s : State) (st outlen : Nat) : State :=
    let a := s.jobAddr ch
    let s1 := (s.engineWrite (a + 34) (leBytes 3 outlen)).engineWrite (a + 32) (leBytes 1 st)
    ((({ s1 with jobs := s1.jobs.set ch Job.idle } : State).put (F.SEC.JOB_CTRL.GO ch) 0).put
      (F.SEC.JOB_CTRL.STATUS ch) st).pageInt pgSEC (1 + ch)
  if !s.secRuns then s
  else match s.jobs[ch].res with
    | some r =>
      let s1 := s.markUse r.slots 0
      let still := (s.jobs.set ch Job.idle).toList.flatMap (fun j => (j.res.elim [] (·.slots)))
      fin (s1.markUse still 1) r.status r.outlen
    | none =>
      let op := (s.desc ch).op
      if s.jobs[ch].run && (op == 0 || decide (0x10 < op)) then fin (s.engineReads (s.jobAddr ch) 64) 1 0 else s

/-- Every job of channels 0 to 3 stops with no status written (R615). -/
def State.stopJobs (s : State) : State :=
  let s1 := { s with jobs := Vector.replicate 4 Job.idle }.markUse (List.range 64) 0
  (List.range 4).foldl (fun s c => s.put (F.SEC.JOB_CTRL.GO c) 0) s1

/-! ### Register writes (R600, R606, R617) -/

/-- A write of JOBc_CTRL. -/
def State.wJobCtrl (s : State) (r : Requester) (ch : Fin 4) (v : Word) : State :=
  let off := 0x88 + 0x10 * ch.val
  let may := reqWarden r || (decide (2 ≤ ch.val) && reqSup r)
  if !may then s.pageErr pgSEC 0x11 off r true
  else
    let s1 := if getF v 5 4 = s.get (F.SEC.JOB_CTRL.KEY ch) then s
      else if reqWarden r then s.put (F.SEC.JOB_CTRL.KEY ch) (getF v 5 4) else s.pageErr pgSEC 0x11 off r true
    if !v.getLsbD 0 then s1
    else if s.jobs[ch].run then s1.pageErr pgSEC 0x10 off r true
    else
      let j : Job := { run := true, addr := 64 * s.get (F.SEC.JOB_ADDR.ADDR ch), res := none }
      ({ s1 with jobs := s1.jobs.set ch j } : State).put (F.SEC.JOB_CTRL.GO ch) 1

/-- A write of a SEC register with an effect of its own. -/
def State.wSec (s : State) (r : Requester) (off : Nat) (v : Word) : Option State :=
  if off = 0x58 then some (s.revoke r v)
  else if off = 0x78 then
    some (if v.getLsbD 0 && !s.flag F.SEC.RNG_CTRL.RESTART then ((((s.put F.SEC.RNG_CTRL.RESTART 1).put F.SEC.RNG_STATUS.READY 0).put F.SEC.RNG_STATUS.FAIL 0).put
      F.SEC.RNG_STATUS.RCT 0).put F.SEC.RNG_STATUS.APT 0 else s)
  else if off = 0x88 then some (s.wJobCtrl r 0 v)
  else if off = 0x98 then some (s.wJobCtrl r 1 v)
  else if off = 0xA8 then some (s.wJobCtrl r 2 v)
  else if off = 0xB8 then some (s.wJobCtrl r 3 v)
  else if off = 0x800 then (if getF v 0 16 = 0 then some (s.pageErr pgSEC 0x13 off r true) else none)
  else none

/-- RNG_NOISE as read: a sample of the source, zero to other than a warden context (R617). -/
def State.rSec (s : State) (r : Requester) (off : Nat) : Option (Word × State) :=
  if off = 0x808 then
    if reqWarden r then let (n, s1) := s.draw; some (Config.freeWord n &&& 0x1FF, s1) else some (0, s)
  else none

/-! ### Commands -/

/-- WDOG_EXPIRY (R592). -/
def execWdogExpiry (k : Fin 4) (s : State) : Host.Outcome State Fault Refusal :=
  .next (if s.live pgWRD then s.wdogExpiry k else s)

/-- GRANT_EXPIRY (R593). -/
def execGrantExpiry (s : State) : Host.Outcome State Fault Refusal :=
  .next (if s.live pgWRD && s.get F.WRD.GRANT_EXPIRE.LEFT != 0 then s.changeGrant 0 0xFFFFF else s)

/-- One job of the engine, by its operation (R602). -/
def jobOp (ch : Fin 4) (op : Nat) (s : State) : Host.Outcome State Fault Refusal := .next (s.serveJob ch op)

def execSha256 (ch : Fin 4) (s : State) : Host.Outcome State Fault Refusal := jobOp ch 0x01 s
def execHmac (ch : Fin 4) (s : State) : Host.Outcome State Fault Refusal := jobOp ch 0x02 s
def execGcmEnc (ch : Fin 4) (s : State) : Host.Outcome State Fault Refusal := jobOp ch 0x03 s
def execGcmDec (ch : Fin 4) (s : State) : Host.Outcome State Fault Refusal := jobOp ch 0x04 s
def execCtr (ch : Fin 4) (s : State) : Host.Outcome State Fault Refusal := jobOp ch 0x05 s
def execCbcEnc (ch : Fin 4) (s : State) : Host.Outcome State Fault Refusal := jobOp ch 0x06 s
def execCbcDec (ch : Fin 4) (s : State) : Host.Outcome State Fault Refusal := jobOp ch 0x07 s
def execSign (ch : Fin 4) (s : State) : Host.Outcome State Fault Refusal := jobOp ch 0x08 s
def execVerify (ch : Fin 4) (s : State) : Host.Outcome State Fault Refusal := jobOp ch 0x09 s
def execEcdh (ch : Fin 4) (s : State) : Host.Outcome State Fault Refusal := jobOp ch 0x0A s
def execGenerate (ch : Fin 4) (s : State) : Host.Outcome State Fault Refusal := jobOp ch 0x0B s
def execPublicKey (ch : Fin 4) (s : State) : Host.Outcome State Fault Refusal := jobOp ch 0x0C s
def execUnwrap (ch : Fin 4) (s : State) : Host.Outcome State Fault Refusal := jobOp ch 0x0D s
def execRandom (ch : Fin 4) (s : State) : Host.Outcome State Fault Refusal := jobOp ch 0x0E s
def execErase (ch : Fin 4) (s : State) : Host.Outcome State Fault Refusal := jobOp ch 0x0F s
def execLoadpub (ch : Fin 4) (s : State) : Host.Outcome State Fault Refusal := jobOp ch 0x10 s

/-- JOB_END (R601). -/
def execJobEnd (ch : Fin 4) (s : State) : Host.Outcome State Fault Refusal := .next (s.endJob ch)

/-- RNG_TEST_FAIL (R606): the repetition count test, or the adaptive proportion test. -/
def execRngTestFail (apt : Bool) (s : State) : Host.Outcome State Fault Refusal :=
  .next (if s.live pgSEC then
      ((((s.put F.SEC.RNG_STATUS.FAIL 1).put F.SEC.RNG_STATUS.READY 0).put
        (if apt then F.SEC.RNG_STATUS.APT else F.SEC.RNG_STATUS.RCT) 1).pageInt pgSEC 5).event 0x1A05 0x1A 3 (if apt then 2 else 1)
        (s.get F.SEC.RNG_STATUS.RESEEDS) 0
    else s)

/-- RNG_READY (R606): 5 ms of passing tests after cold reset or RESTART. -/
def execRngReady (s : State) : Host.Outcome State Fault Refusal :=
  .next (if s.live pgSEC && !s.flag F.SEC.RNG_STATUS.FAIL then
      (s.put F.SEC.RNG_STATUS.READY 1).put F.SEC.RNG_CTRL.RESTART 0 else s)

end Sys2Proof.Machine
end

