-- ==== Sys2Proof/Machine/IxSend.lean ====
section
/-! DEFINITION. Sending on the Ixlink (R568–R570): the port a packet takes, credits, the replay buffer. -/

namespace Sys2Proof.Machine

/-- This device's ID (R397). -/
def State.selfId (s : State) : Nat := s.get F.TLY.SELF.ID

/-- Is a port ACTIVE (R567)? -/
def State.ixActive (s : State) (p : Nat) : Bool := s.get (F.IXP.XSTATUS.STATE (pgIxp p)) == 4

/-- The 16-byte units of a packet (R568, R569). -/
def ixUnits (k : IxPkt) : Nat := 1 + (k.payload.length + 15) / 16

/-- Bytes of a packet in the replay buffer. -/
def ixBytes (k : IxPkt) : Nat := 16 * ixUnits k + 4

/-- Choose the packets a port sends now: in order, each that its virtual channel has credit for and the replay buffer
room, none before an earlier one of its channel. Answers the packets sent, those that stay, the credits and the next SEQ. -/
def sendNow : List IxPkt → List Nat → Nat → Vector Nat 4 → BitVec 12 → List IxPkt × List IxPkt × Vector Nat 4 × BitVec 12
  | [], _, _, cr, sq => ([], [], cr, sq)
  | k :: r, blocked, room, cr, sq =>
    let have_ := cr[k.vc]?.getD 0
    if blocked.contains k.vc || have_ < ixUnits k || room < ixBytes k then
      let (a, b, c, d) := sendNow r (k.vc :: blocked) room cr sq
      (a, k :: b, c, d)
    else
      let (a, b, c, d) := sendNow r blocked (room - ixBytes k) (cr.setIfInBounds k.vc (have_ - ixUnits k)) (sq + 1)
      ({ k with seq := sq } :: a, b, c, d)

/-- A port sends what it can; each packet stays in the replay buffer until it is acknowledged. -/
def State.ixPump (s : State) (p : Fin 2) : State :=
  if s.ixActive p then
    let q := s.ix[p]
    let (sent, rest, cr, sq) := sendNow q.txq [] (16384 - (q.replay.map ixBytes).sum) q.credit q.seq
    { s with ix := s.ix.set p { q with txq := rest, replay := q.replay ++ sent, credit := cr, seq := sq } }
  else s

/-- The port toward a device: the learned one, or the one that is ACTIVE (R570). -/
def State.ixRoute (s : State) (d : Nat) : Fin 2 :=
  if s.get (F.IXL.RT_ENTRY.HOPS d) != 0 then (if s.get (F.IXL.RT_ENTRY.PORT d) = 1 then 1 else 0)
  else if s.ixActive 0 then 0 else 1

/-- Is a port idle: DISABLED, REFUSED or DOWN (R567)? -/
def State.ixIdle (s : State) (p : Nat) : Bool := [0, 6, 7].contains (s.get (F.IXP.XSTATUS.STATE (pgIxp p)))

/-- A fire-and-forget posting. -/
def ffPost (k : IxPkt) : Bool := k.type == 0x10 && k.payload.getD 3 0 == 0

/-- Packets leave this device's hands without the owner's word: its own fire-and-forget postings among them are noted (R388),
`sure` where they cannot have arrived. -/
def State.ixLose (s : State) (sure : Bool) (ks : List IxPkt) : State :=
  { s with ffOut := s.ffOut ++ (ks.filter (fun k => k.src == s.selfId && ffPost k)).map (fun k => (leVal (k.payload.take 3), sure)) }

/-- Put a packet on a port. On an idle port it is lost (R583). -/
def State.ixPut (s : State) (p : Fin 2) (k : IxPkt) : State :=
  if s.ixIdle p then s.ixLose true [k] else
  ({ s with ix := s.ix.set p { s.ix[p] with txq := s.ix[p].txq ++ [k] } } : State).ixPump p

/-- Does a port still hold ordered packets for a device? -/
def State.ixBusyFor (s : State) (p : Fin 2) (k : IxPkt) : Bool :=
  (s.ix[p].txq ++ s.ix[p].replay).any (fun x => x.dst == k.dst && !x.bcast && (x.vc == 1 || x.vc == 2))

/-- Must a packet wait for its route's change to settle (R570)? -/
def State.ixHeld (s : State) (k : IxPkt) : Bool :=
  (k.vc == 1 || k.vc == 2) && s.ixBusyFor (1 - s.ixRoute k.dst) k

/-- Send a packet to its destination. -/
def State.ixSend (s : State) (k : IxPkt) : State :=
  if s.ixHeld k || s.ixHold.any (fun x => x.dst == k.dst && x.vc == k.vc) then { s with ixHold := s.ixHold ++ [k] }
  else s.ixPut (s.ixRoute k.dst) k

/-- Packets held for a route change go on once they may, in order. -/
def State.ixUnhold (s : State) : State :=
  s.ixHold.foldl (fun s k => s.ixSend k) { s with ixHold := [] }

/-- Broadcast a packet: on both ports in a chain, on port 1 in a ring (R570). -/
def State.ixBcast (s : State) (k : IxPkt) : State :=
  if s.ixRing then s.ixPut 1 k else (s.ixPut 0 k).ixPut 1 k

/-- A packet of this device, with 8 ARGS bytes and a payload of whole 16-byte units. -/
def State.pkt (s : State) (type vc dst : Nat) (bcast : Bool) (args payload : List Byte) : IxPkt :=
  { type := type, src := s.selfId, dst := dst, vc := vc, seq := 0, hops := 7, bcast := bcast, tag := s.ixTag
    args := (args ++ List.replicate 8 0).take 8
    payload := payload ++ List.replicate ((16 - payload.length % 16) % 16) 0 }

/-- Send a link packet. -/
def State.sendLink (s : State) (p : Fin 2) (type : Nat) (args : List Byte) : State :=
  { s with ixLnk := tabIns s.ixLnk (4 * p.val + type) (s.pkt type 0 0 false args []) }

/-- Return a packet's credit to the neighbour (R569). -/
def State.sendCredit (s : State) (p : Fin 2) (k : IxPkt) : State :=
  s.sendLink p 3 (((List.range 4).map (fun v => leBytes 2 (if v = k.vc then ixUnits k else 0))).flatten)

/-- Use up a transaction tag. DEDUCED, log 49. -/
def State.nextTag (s : State) : State := { s with ixTag := (s.ixTag + 1) % 65536 }

/-- A satellite that holds fewer than two JSN blocks asks the primary it accepts for one (R579). -/
def State.jsnAsk (s : State) : State :=
  if s.enabled pgIXL && !s.flag F.IXL.ROLE.IS_PRIMARY && s.flag F.IXL.ROLE.KNOWN && decide (s.jr.jsns.length < 2) && !s.jsnAsked then
    ({ s with jsnAsked := true } : State).ixSend
      (s.pkt 0x40 0 (s.get F.IXL.ROLE.PRIMARY_ID) false (leBytes 1 (s.get F.JRN.CFG.GRANT_SIZE)) [])
  else s

end Sys2Proof.Machine
end

