-- ==== Sys2Proof/Machine/Tally.lean ====
section
/-! DEFINITION. The tally engine (R348–R400): accounts, ranges, tickets, the intake, banks, cuts and replay.
The instructions that issue operations are in `TallyIsa.lean`. -/

namespace Sys2Proof.Machine

/-! ### Status bits (R398) -/

def F.TLY.SEEDED : Fld := ⟨R.HDR.PG_STATUS pgTLY, 8, 1⟩
def F.TLY.STAMPING : Fld := ⟨R.HDR.PG_STATUS pgTLY, 9, 1⟩
def F.TLY.REPLAY_OPEN : Fld := ⟨R.HDR.PG_STATUS pgTLY, 10, 1⟩

/-- PSN `a` precedes PSN `b` (R373). -/
def psnBefore (a b : Word) : Bool := let d := (b - a).toNat; decide (1 ≤ d ∧ d < 2 ^ 39)

/-! ### Accounts and ranges (R348–R353) -/

/-- An account nothing has touched. -/
def State.acctZero (s : State) : Account :=
  { v := 0, n := 0, lpsn := 0, ovf := false, ce := s.ceBase, bad := false, cv := 0, cn := 0 }

/-- The record of a local account. DESIGN CHOICE, log 46. -/
def State.account (s : State) (a : Nat) : Account := tabGet s.acctZero s.acct a

/-- Write the record of a local account. -/
def State.setAccount (s : State) (a : Nat) (r : Account) : State := { s with acct := tabSet s.acctZero s.acct a r }

/-- The valid ranges now: FIRST, LAST and BIN, lowest number first. -/
def State.rangesNow (s : State) : List (Nat × Nat × Bool) :=
  (List.range 16).filterMap (fun i =>
    if s.flag (F.TLY.RANGE_ATTR.VALID i) then
      some (s.get (F.TLY.RANGE_BOUNDS.FIRST i), s.get (F.TLY.RANGE_BOUNDS.LAST i), s.flag (F.TLY.RANGE_ATTR.BIN i))
    else none)

/-- The format ranges give an account: true is binary (R350). -/
def fmtIn (rs : List (Nat × Nat × Bool)) (a : Nat) : Bool :=
  match rs.find? (fun r => decide (r.1 ≤ a) && decide (a ≤ r.2.1)) with
  | some r => r.2.2
  | none => false

/-- FMT of an account (R351). -/
def State.fmt (s : State) (a : Nat) : Bool := fmtIn s.fmtRanges a

/-- The storage key of a local account's range (R350). -/
def State.acctKey (s : State) (a : Nat) : Nat :=
  match (List.range 16).find? (fun i => s.flag (F.TLY.RANGE_ATTR.VALID i) &&
      decide (s.get (F.TLY.RANGE_BOUNDS.FIRST i) ≤ a) && decide (a ≤ s.get (F.TLY.RANGE_BOUNDS.LAST i))) with
  | some i => s.get (F.TLY.RANGE_ATTR.KEY i)
  | none => 0

/-- The account and device fields of an account number (R353). -/
def acctOf (n : BitVec 21) : Nat := n.toNat % 2 ^ 18
def devOf (n : BitVec 21) : Nat := n.toNat / 2 ^ 18

/-- The bank and page of an account (R375). -/
def bankOf (a : Nat) : Fin 8 :=
  let x := BitVec.ofNat 18 a
  (x.extractLsb' 0 3 ^^^ x.extractLsb' 3 3 ^^^ x.extractLsb' 6 3 ^^^ x.extractLsb' 9 3 ^^^ x.extractLsb' 12 3 ^^^
    x.extractLsb' 15 3).toFin

/-- Stamp the formats from the ranges (R351): an account whose FMT changes keeps its LPSN only. -/
def State.stamp (s : State) : State :=
  let rs := s.rangesNow
  let old := s.fmtRanges
  (s.acct.map (·.1)).foldl (fun s a =>
    if fmtIn old a == fmtIn rs a then s
    else s.setAccount a { s.acctZero with lpsn := (s.account a).lpsn, ce := (s.account a).ce }) { s with fmtRanges := rs }

/-! ### Values (R348, R349, R355) -/

/-- V as an integer. -/
def acctVal (bin : Bool) (v : BitVec 88) : Int := if bin then sint 88 v.toNat else decVal 22 v.toNat

/-- An integer as V. -/
def acctOfVal (bin : Bool) (i : Int) : BitVec 88 := BitVec.ofNat 88 (if bin then umod 88 i else decOf 22 i)

/-- Is a value in an account's range? -/
def acctFits (bin : Bool) (i : Int) : Bool :=
  if bin then decide (-(2 ^ 87 : Nat) ≤ i ∧ i < (2 ^ 87 : Nat)) else decFits 22 i

/-- Is a count in range? -/
def countFits (i : Int) : Bool := decide (-(2 ^ 39 : Nat) ≤ i ∧ i < (2 ^ 39 : Nat))

/-! ### Tickets (R362–R369) -/

/-- A ticket that was never allocated. -/
def Ticket.init : Ticket :=
  { gen := 0, cid := 0, stamp := 0, held := false, flushed := false, done := false, status := 0, device := 0, op := 0, psn := 0 }

/-- A ticket. -/
def State.ticket (s : State) (i : Nat) : Ticket := tabGet Ticket.init s.tickets i

/-- Write a ticket. -/
def State.setTicket (s : State) (i : Nat) (t : Ticket) : State := { s with tickets := tabSet Ticket.init s.tickets i t }

/-- The tickets allocated to a context and not yet released, a flushed one that is still pending among them (R368, R369). -/
def State.ticketsOf (s : State) (c : Cid) : List Ticket := (s.tickets.map (·.2)).filter (fun t => t.held && t.cid == c)

/-- Is a ticket complete: its operation has ended, and so have all earlier ones of its context (R367)? -/
def State.tktComplete (s : State) (t : Ticket) : Bool :=
  t.done && (s.ticketsOf t.cid).all (fun u => u.done || decide (t.stamp ≤ u.stamp))

/-- Is every ticket that a context holds complete (R366)? A flushed one is no longer the context's to wait for (R391). -/
def State.allComplete (s : State) (c : Cid) : Bool := (s.ticketsOf c).all (fun t => t.flushed || s.tktComplete t)

/-- May a context allocate a ticket now (R365)? -/
def State.ticketFree (s : State) (c : Cid) : Bool :=
  decide (s.get F.TLY.TICKET_USE.IN_USE < 32768) && decide ((s.ticketsOf c).length < s.get F.TLY.TICKET_LIMIT.LIMIT)

/-- Allocate a ticket for an operation (R362). Which free ticket is taken is the device's choice. Answers its
index and handle. DESIGN CHOICE, log 13. -/
def State.allocTicket (s : State) (c : Cid) (op : Nat) : Nat × Word × State :=
  let start := Config.freeNat s.free
  let i := ((List.range 32768).find? (fun k => !(s.ticket ((start + k) % 32768)).held)).elim 0 (fun k => (start + k) % 32768)
  let g := (s.ticket i).gen + 1
  let s1 := ({ s with free := s.free + 1, tktStamp := s.tktStamp + 1 } : State).setTicket i
    { gen := g, cid := c, stamp := s.tktStamp, held := true, flushed := false, done := false, status := 5
      device := s.selfId, op := op, psn := 0 }
  let n := s.get F.TLY.TICKET_USE.IN_USE + 1
  let s2 := s1.put F.TLY.TICKET_USE.IN_USE n
  let s3 := if s.get F.TLY.TICKET_USE.HIGH < n then s2.put F.TLY.TICKET_USE.HIGH n else s2
  (i, BitVec.ofNat 40 (i + 2 ^ 15 + 2 ^ 16 * g.toNat + 2 ^ 24 * c.toNat),
    if 32768 < n + 4096 then s3.pageInt pgTLY 5 else s3)

/-- Release a ticket (R363, R369). -/
def State.releaseTicket (s : State) (i : Nat) : State :=
  (s.setTicket i { s.ticket i with held := false, flushed := false }).put F.TLY.TICKET_USE.IN_USE
    (s.get F.TLY.TICKET_USE.IN_USE - 1)

/-- A context in WAITT or WAITTA goes on once its tickets are complete (R366), or were flushed (R391). During a Conjunction
transition it stays waiting (R116). -/
def State.wakeTickets (s : State) (c : Cid) : State :=
  if (s.cx c).moving then s
  else match (s.cx c).wait with
  | some (.ticket i) =>
    let t := s.ticket i
    if !t.held || t.flushed || t.cid != c || s.tktComplete t then (s.finishWait c).dispatch (coreIdx c) else s
  | some .allTickets => if s.allComplete c then (s.finishWait c).dispatch (coreIdx c) else s
  | _ => s

/-- Every flushed ticket of a context that is complete by now is released (R369). -/
def State.releaseFlushed (s : State) (c : Cid) : State :=
  (s.tickets.filter (fun p => p.2.held && p.2.flushed && p.2.cid == c && s.tktComplete p.2)).foldl
    (fun s p => s.releaseTicket p.1) s

/-- A ticket receives its status and PSN (R363). It completes once every earlier one of its context has (R367); those that
were flushed are then released (R369). -/
def State.completeTicket (s : State) (i : Nat) (status device : Nat) (psn : Word) : State :=
  let t := s.ticket i
  ((s.setTicket i { t with done := true, status := status, device := device, psn := psn }).releaseFlushed t.cid).wakeTickets t.cid

/-- TKT_FLUSH (R369): complete tickets of a context are released at once, pending ones when they complete; a WAITT
on one of them continues (R391). -/
def State.flushTickets (s : State) (c : Cid) : State :=
  let s1 := (s.tickets.filter (fun p => p.2.held && p.2.cid == c)).foldl (fun s p =>
    s.setTicket p.1 { p.2 with flushed := true }) s
  (s1.releaseFlushed c).wakeTickets c

/-! ### Fire-and-forget postings not applied (R361) -/

/-- Count a fire-and-forget posting that is not applied. -/
def State.ffFailed (s : State) (acct : Nat) (status : Nat) : State :=
  (((s.bumpSat F.TLY.FF_COUNT.COUNT).put F.TLY.FF_LAST.ACCOUNT acct).put F.TLY.FF_LAST.STATUS status).pageInt pgTLY 3

/-! ### Landing a read (R379, R389, R390) -/

/-- Sign-extend the value of an account to the width of X. -/
def State.xOfAcct (s : State) (c : Cid) (bin : Bool) (v : BitVec 88) : XWord :=
  if s.wide c then
    BitVec.ofNat 176 (if bin then sext 88 176 v.toNat else decOf 44 (decVal 22 v.toNat))
  else BitVec.ofNat 176 v.toNat

/-- Write a D register at its place. -/
def State.putLoc (s : State) (c : Cid) (l : DLoc) (v : DWord) : State :=
  match l with
  | .own n => s.modCx c (fun x => { x with d := x.d.set n v })
  | .win w n => s.modCx c (fun x => { x with win := x.win.set w (x.win[w].set n v) })
  | .fast n => let k := coreIdx c; s.setCore k { s.core_ k with fastD := (s.core_ k).fastD.set n v }

/-- A PREAD or PREADC result lands. -/
def State.landRead (s : State) (o : TOp) (bin : Bool) (v : BitVec 88) (n : Word) (ovf lost : Bool) : State :=
  let c := o.cid
  let s1 := s.modCx c (fun x =>
    let i := acctVal bin v
    { x with
      x := x.x.set o.xreg (s.xOfAcct c bin v)
      sr := setCVZN x.sr lost ovf (i == 0) (decide (i < 0))
      pend := (((x.pend.erase (.x o.xreg)).erase (.d o.dloc)).erase .flags).erase .check })
  s1.putLoc c o.dloc (BitVec.ofNat 80 (if s.wide c then sext 40 80 n.toNat else n.toNat))

/-- The lost answer of a remote read lands zero with SR.C 1 (R389). -/
def State.landLost (s : State) (o : TOp) : State := s.landRead o false 0 0 false true

/-! ### The end of an operation -/

/-- A posting, POSTL or PSET ends with a status: its ticket completes, a remote origin is answered, an
unapplied fire-and-forget posting is counted (R359–R364, R572). -/
def State.opDone (s : State) (o : TOp) (status : Nat) (psn : Word) : State :=
  match o.origin with
  | some (dev, tag, handle) =>
    if handle = 0 then (if status = 0 then s else s.ffFailed o.acct.toNat status)
    else s.ixSend { s.pkt 0x11 1 dev false [] (leBytes 5 handle.toNat ++ leBytes 1 status ++
      List.replicate 17 0 ++ leBytes 5 psn.toNat ++ List.replicate 4 0) with tag := tag }
  | none =>
    match o.ticket with
    | some i => s.completeTicket i status s.selfId psn
    | none => if status = 0 then s else s.ffFailed o.acct.toNat status

/-- The answer of a read to another device (R572): STATUS, OVF, VALUE, N or LPSN. -/
def State.answerRead (s : State) (dev tag : Nat) (handle : Word) (status : Nat) (ovf : Bool) (v : BitVec 88) (n : Word) : State :=
  s.ixSend { s.pkt 0x11 1 dev false [] (leBytes 5 handle.toNat ++ leBytes 1 status ++ leBytes 1 (b2n ovf) ++
    leBytes 11 v.toNat ++ leBytes 5 n.toNat ++ List.replicate 9 0) with tag := tag }

/-! ### Banks (R359, R360, R375–R380, R392) -/

/-- An account record meets an uncorrectable error (R392). -/
def State.markBad (s : State) (a : Nat) : State :=
  let b := bankOf a
  let p := pgBank b
  let s1 := (s.setAccount a { s.account a with bad := true }).put (F.BANK.UE_LAST.ACCOUNT p) a
  (((s1.bumpSat (F.BANK.UE_COUNT.COUNT p)).event 0x0A01 0x0A 3 a b 0).pageInt pgTLY 4).pageInt p 1

/-- A record is read: an error found there, or the armed test injection (R392, R398). -/
def State.readRecord (s : State) (a : Nat) (e : EccErr) : State :=
  let armed := s.flag F.TLY.ECC_INJECT.GO && s.get F.TLY.ECC_INJECT.ACCOUNT == a
  let s1 := if armed then s.put F.TLY.ECC_INJECT.GO 0 else s
  let e1 := if armed then (if s.flag F.TLY.ECC_INJECT.DOUBLE then EccErr.uncorrectable else
    match e with | .uncorrectable => .uncorrectable | _ => .corrected) else e
  match e1 with
  | .none => s1
  | .corrected => s1.bumpSat (F.BANK.CE_COUNT.COUNT (pgBank (bankOf a)))
  | .uncorrectable => s1.markBad a

/-- The epoch E (R376). -/
def State.cutEpoch (s : State) : Bool := s.flag F.TLY.CUT_STATUS.EPOCH

/-- Copy the cut values of an account before it changes (R377): due where its CE differs from E. -/
def State.copyCut (s : State) (a : Nat) : State :=
  let r := s.account a
  if r.ce == s.cutEpoch then s else s.setAccount a { r with cv := r.v, cn := r.n, ce := s.cutEpoch }

/-- `apply_posting` of R359, after the cut copy. -/
def State.applyPosting (s : State) (o : TOp) : State :=
  let a := acctOf o.acct
  let r := s.account a
  let f := s.fmt a
  if r.bad then s.opDone o 4 o.psn
  else if o.b != f then s.opDone o 3 o.psn
  else
    let v := acctVal f r.v + acctVal f o.amount
    let n := sint 40 r.n.toNat + sint 40 o.count.toNat
    if !acctFits f v || !countFits n then (s.setAccount a { r with ovf := true }).opDone o 1 o.psn
    else if o.kind == .postl && decide (v < acctVal f o.floor) then s.opDone o 2 o.psn
    else (s.setAccount a { r with v := acctOfVal f v, n := BitVec.ofInt 40 n, lpsn := o.psn }).opDone o 0 o.psn

/-- PSET (R360). -/
def State.applyPset (s : State) (o : TOp) : State :=
  let a := acctOf o.acct
  let r := s.account a
  if o.b != s.fmt a then s.opDone o 3 o.psn
  else (s.setAccount a { r with v := o.amount, n := o.count, ovf := false, bad := false }).opDone o 0 o.psn

/-- A replay entry (R385). -/
def State.applyReplay (s : State) (o : TOp) : State :=
  let a := acctOf o.acct
  let r := s.account a
  let f := s.fmt a
  let skip := s.bumpSat F.TLY.REPLAY_SKIPPED.COUNT
  if o.b != f || r.bad || (!f && !bcdOk 20 o.amount.toNat) then skip
  else
    let amt : Int := if f then sint 80 o.amount.toNat else decVal 20 o.amount.toNat
    let v := acctVal f r.v + amt
    let n := sint 40 r.n.toNat + sint 40 o.count.toNat
    if !acctFits f v || !countFits n then skip.setAccount a { r with ovf := true }
    else (s.setAccount a { r with
        v := acctOfVal f v, n := BitVec.ofInt 40 n
        lpsn := if psnBefore r.lpsn o.psn then o.psn else r.lpsn }).bumpSat F.TLY.REPLAY_APPLIED.COUNT

/-- A read finds its account BAD: vector 17 with reason 5 is due at the read (R357, R358). -/
def State.readBad (s : State) (o : TOp) : State :=
  s.modCx o.cid (fun x => { x with
    late := some { pc := o.pc, vec := 17, fault := 0, info := 0, synd := 5 }
    pend := (((x.pend.erase (.x o.xreg)).erase (.d o.dloc)).erase .flags).erase .check })

/-- PREAD and PREADC in their bank (R357, R379, R572). A local read of a BAD account raises vector 17 with
reason 5 at the read (R357); `State.takeLate` takes it. -/
def State.applyRead (s : State) (o : TOp) : State :=
  let a := acctOf o.acct
  let r := s.account a
  let cutV := o.kind == .preadc && r.ce == s.cutEpoch
  let v := if cutV then r.cv else r.v
  let n := if o.kind == .preadc then (if cutV then r.cn else r.n) else if o.lpsn then r.lpsn else r.n
  match o.origin with
  | some (dev, tag, handle) =>
    if r.bad || (o.kind == .preadc && !s.flag F.TLY.CUT_STATUS.HELD) then s.answerRead dev tag handle 4 false 0 0
    else s.answerRead dev tag handle 0 r.ovf v n
  | none => if r.bad then s.readBad o else s.landRead o (s.fmt a) v n r.ovf false

/-- LEVEL.NOW of a bank follows its queue. -/
def State.bankLevel (s : State) (b : Fin 8) : State :=
  let n := s.banks[b].length
  let s1 := s.put (F.BANK.LEVEL.NOW (pgBank b)) n
  if s.get (F.BANK.LEVEL.HIGH (pgBank b)) < n then s1.put (F.BANK.LEVEL.HIGH (pgBank b)) n else s1

/-- A bank applies the operation at the head of its queue. A PREADC of a cut that is not ready waits there
(R379); the mark of a PCUT only passes. -/
def State.bankApply (s : State) (b : Fin 8) (e : EccErr) : State :=
  match s.banks[b] with
  | [] => s
  | o :: rest =>
    if o.kind == .preadc && s.flag F.TLY.CUT_STATUS.HELD && !s.flag F.TLY.CUT_STATUS.READY then s
    else
      let s1 := ({ s with banks := s.banks.set b rest } : State).bankLevel b
      if o.kind == .pcut then s1
      else
        let a := acctOf o.acct
        let s2 := (s1.bump (F.BANK.APPLIED.COUNT (pgBank b)) 1).readRecord a e
        let s3 := if rest.any (fun q => q.kind == .pcut) then s2 else s2.copyCut a
        match o.kind with
        | .post | .postl => s3.applyPosting o
        | .pset => s3.applyPset o
        | .replay => s3.applyReplay o
        | _ => s3.applyRead o

/-! ### The intake (R370–R376, R380) -/

/-- Is a bank's queue short of 64 (R375)? -/
def State.bankRoom (s : State) (b : Fin 8) : Bool := decide (s.banks[b].length < 64)

/-- Is an operation for another device (R353)? -/
def State.isRemote (s : State) (o : TOp) : Bool :=
  o.origin.isNone && (o.kind != .pcut && o.kind != .prel && o.kind != .replay) && devOf o.acct != s.selfId

/-- Has the operation's bank room? A PCUT goes to every bank. -/
def State.roomFor (s : State) (o : TOp) : Bool :=
  match o.kind with
  | .pcut => (List.finRange 8).all s.bankRoom
  | .prel => true
  | _ => s.isRemote o || s.bankRoom (bankOf (acctOf o.acct))

/-- Put an operation in a bank's queue. -/
def State.toBank (s : State) (b : Fin 8) (o : TOp) : State :=
  ({ s with banks := s.banks.set b (s.banks[b] ++ [o]) } : State).bankLevel b

/-- A PCUT takes the cut (R376), or completes with the status that refuses it. -/
def State.takeCut (s : State) (o : TOp) (glob : Bool) : State :=
  let b := s.get F.TLY.PSN_NEXT.PSN
  let s1 := (((s.put F.TLY.CUT_STATUS.HELD 1).put F.TLY.CUT_STATUS.READY 0).put F.TLY.CUT_STATUS.GLOBAL (b2n glob)).put
    F.TLY.CUT_STATUS.EPOCH (1 - s.get F.TLY.CUT_STATUS.EPOCH)
  let s2 := { s1.put F.TLY.CUT_BOUNDARY.B b with cutOp := some { o with psn := BitVec.ofNat 40 b } }
  (List.finRange 8).foldl (fun s k => s.toBank k o) s2

/-- The status that refuses a PCUT now, if any. -/
def State.cutRefused (s : State) : Option Nat :=
  if s.flag F.TLY.CUT_STATUS.HELD || s.flag F.TLY.CUT_STATUS.RELEASING then some 7
  else if s.flag F.TLY.REPLAY_OPEN then some 8 else none

/-- PREL at its grant (R380). -/
def State.grantPrel (s : State) (o : TOp) : State :=
  if !s.flag F.TLY.CUT_STATUS.HELD then s.opDone o 9 0
  else { ((((s.put F.TLY.CUT_STATUS.HELD 0).put F.TLY.CUT_STATUS.READY 0).put F.TLY.CUT_STATUS.GLOBAL 0).put
      F.TLY.CUT_STATUS.RELEASING 1) with prelOp := some o }

/-- The OP code of an operation in POST_FWD (R571). -/
def TOp.fwdOp (o : TOp) : Nat :=
  match o.kind with
  | .postl => 2
  | .pread => if o.lpsn then 4 else 3
  | .preadc => 5
  | _ => if o.ticket.isSome then 1 else 0

/-- Carry an operation to the device that owns its account (R387, R572). -/
def State.forward (s : State) (o : TOp) : State :=
  let handle := match o.ticket with
    | some i => let t := s.ticket i; i + 2 ^ 15 + 2 ^ 16 * t.gen.toNat + 2 ^ 24 * t.cid.toNat
    | none => 0
  let k := s.pkt 0x10 1 (devOf o.acct) false [] (leBytes 3 o.acct.toNat ++ leBytes 1 o.fwdOp ++ leBytes 1 (b2n o.b) ++
    leBytes 11 o.amount.toNat ++ leBytes 5 o.count.toNat ++ leBytes 11 o.floor.toNat ++ leBytes 5 handle ++
    List.replicate 11 0)
  let s1 := (s.ixSend k).nextTag
  if o.fwdOp = 0 then s1 else { s1 with remoteOps := s1.remoteOps ++ [{ o with tag := s.ixTag }] }

/-- Grant one operation (R371, R376, R380). -/
def State.grantOp (s : State) (o : TOp) : State :=
  if s.isRemote o then s.forward o
  else match o.kind with
  | .pcut => match s.cutRefused with
    | some st => s.opDone o st 0
    | none => s.takeCut o false
  | .prel => s.grantPrel o
  | .post | .postl =>
    let p := s.get F.TLY.PSN_NEXT.PSN
    let s1 := s.bump F.TLY.PSN_NEXT.PSN 1
    s1.toBank (bankOf (acctOf o.acct)) { o with psn := BitVec.ofNat 40 p }
  | .pset => s.toBank (bankOf (acctOf o.acct)) { o with psn := BitVec.ofNat 40 (s.get F.TLY.PSN_NEXT.PSN) }
  | _ => s.toBank (bankOf (acctOf o.acct)) o

/-- A granted posting is counted (R701) and traced with its PSN where PTRACE takes its port (R699). -/
def State.noteGrant (s : State) (p : Nat) (o : TOp) : State :=
  if (o.kind != .post && o.kind != .postl) || s.isRemote o then s
  else
    let s1 := s.count 11 none 1
    if s1.flag F.DBG.TR_CTRL.EN && s1.flag F.DBG.TR_CTRL.PTRACE && bitOf (s1.get F.DBG.TR_FILT.PORTS) p then
      s1.traceRec (leBytes 1 5 ++ leBytes 1 p ++ leBytes 3 o.acct.toNat ++ leBytes 5 (s1.get F.TLY.PSN_NEXT.PSN) ++
        leBytes 5 o.amount.toNat ++ leBytes 1 (b2n o.b + 2 * b2n o.wide + 4 * b2n (o.kind == .postl) + 8 * b2n (decide (2 ^ 40 ≤ o.amount.toNat))))
    else s1

/-- The operation a port presents: its head, once SEEDED (replay entries excepted, R374). -/
def State.presents (s : State) (p : Fin 11) : Option TOp :=
  match s.tports[p] with
  | [] => none
  | o :: _ => if (o.kind == .replay || s.flag F.TLY.SEEDED) && s.roomFor o then some o else none

/-- The scan of one grant cycle (R371) from port `ptr + k` on: `fuel` ports are left. -/
def grantScan (ptr : Nat) : Nat → Nat → Nat → Option Nat → State → State × Option Nat
  | 0, _, _, last, s => (s, last)
  | fuel + 1, k, granted, last, s =>
    let p : Fin 11 := ⟨(ptr + k) % 11, Nat.mod_lt _ (by decide)⟩
    if granted < 4 then
      match s.presents p with
      | some o => grantScan ptr fuel (k + 1) (granted + 1) (some p)
          ((({ s with tports := s.tports.set p (s.tports[p].drop 1) } : State).noteGrant p o).grantOp o)
      | none => grantScan ptr fuel (k + 1) granted last s
    else (s, last)

/-- Does the intake grant: not in a restart, the cold clear or stamping, nor after PFAIL_N falls, nor in a
full eclipse (R349, R351, R393, R395)? -/
def State.tallyRuns (s : State) : Bool :=
  s.live pgTLY && !s.coldClear && !s.flag F.TLY.STAMPING

/-- One grant cycle. -/
def State.grantCycle (s : State) : State :=
  if s.tallyRuns then
    let (s1, last) := grantScan s.tptr 11 0 0 none s
    match last with
    | some p => { s1 with tptr := (p + 1) % 11 }
    | none => s1
  else s

/-- Put an operation at the end of a port's queue. -/
def State.tallyPush (s : State) (p : Fin 11) (o : TOp) : State := { s with tports := s.tports.set p (s.tports[p] ++ [o]) }

/-- The intake port of a context (R370). -/
def tallyPort (c : Cid) : Fin 11 := if isWardenCid c then 8 else ⟨c.toNat / 64 % 8, by omega⟩

/-! ### Cuts (R378, R380) -/

/-- Every bank has applied what was granted before the PCUT: the cut is ready. -/
def State.cutReady (s : State) : State :=
  match s.cutOp with
  | none => s
  | some o =>
    if s.banks.toList.any (fun q => q.any (fun k => k.kind == .pcut)) then s
    else
      let s1 := { s with cutOp := none }
      let s2 := if s.flag F.TLY.CUT_STATUS.HELD then (s1.put F.TLY.CUT_STATUS.READY 1).pageInt pgTLY 1 else s1
      s2.opDone o 0 o.psn

/-- The release sweep ends: every account's CE is E. It does not end before the banks have applied the PCUT it releases and
the reads of that cut granted before the PREL (R378, R379). DEDUCED, log 104. -/
def State.sweepEnd (s : State) : State :=
  match s.prelOp with
  | none => s
  | some o =>
    if s.cutOp.isSome || s.banks.toList.any (fun q => q.any (fun k => k.kind == .preadc)) then s
    else
    let e := s.cutEpoch
    let old := s.acct
    let s1 : State := old.foldl (fun s p => s.setAccount p.1 { p.2 with ce := e }) { s with acct := [], ceBase := e, prelOp := none }
    let inj := s1.get F.TLY.ECC_INJECT.ACCOUNT
    let s1 := if s1.flag F.TLY.ECC_INJECT.GO then s1.readRecord inj .none else s1
    ((s1.put F.TLY.CUT_STATUS.RELEASING 0).pageInt pgTLY 6).opDone o 0 0

/-! ### Replay (R382–R386) -/

/-- Write PSN_NEXT once (R382). -/
def State.seed (s : State) (psn : Nat) : State :=
  ((s.put F.TLY.PSN_NEXT.PSN psn).put F.TLY.SEEDED 1).event 0x0A03 0x0A 0 (psn % 2 ^ 40) 0 0

/-- Close replay: a running run ends first (R386). -/
def State.finishReplay (s : State) : State :=
  if s.get F.TLY.REPLAY_STATUS.STATE = 1 then s.put F.TLY.REPLAY_CTRL.FINISH 1
  else if s.flag F.TLY.REPLAY_OPEN then
    ((s.put F.TLY.REPLAY_OPEN 0).put F.TLY.REPLAY_CTRL.FINISH 0).event 0x0A04 0x0A 0
      (s.get F.TLY.REPLAY_APPLIED.COUNT) (s.get F.TLY.REPLAY_SKIPPED.COUNT) 0
  else s.put F.TLY.REPLAY_CTRL.FINISH 0

/-- A run ends in a state (R383, R384). -/
def State.endRun (s : State) (st : Nat) : State :=
  let s1 := ((s.put F.TLY.REPLAY_STATUS.STATE st).put F.TLY.REPLAY_CTRL.START 0).pageInt pgTLY 2
  if s.flag F.TLY.REPLAY_CTRL.FINISH then s1.finishReplay else s1

/-- A run stops at a malformed record (R384). -/
def State.replayStop (s : State) : State :=
  ((s.pageErr pgTLY 0x13 0 .engine false).event 0x0A02 0x0A 2 (s.get F.TLY.REPLAY_ADDR.ADDR) 0 0).endRun 3

/-- The posting entries of a body (R76), 24 bytes each. -/
def entriesOf : Nat → List Byte → List (List Byte)
  | 0, _ => []
  | n + 1, bs => bs.take 24 :: entriesOf n (bs.drop 24)

/-- Has an entry a reserved bit set (R76)? -/
def entryBad (e : List Byte) : Bool :=
  (e.getD 0 0).toNat / 8 != 0 || (e.getD 3 0).toNat / 32 != 0

/-- The operation of a replay entry. -/
def entryOp (e : List Byte) : TOp :=
  { kind := .replay, acct := BitVec.ofNat 21 (leVal ((e.drop 1).take 3)), b := bitOf (e.getD 0 0).toNat 1
    amount := BitVec.ofNat 88 (leVal ((e.drop 9).take 10)), count := BitVec.ofNat 40 (leVal ((e.drop 19).take 5))
    floor := 0, psn := BitVec.ofNat 40 (leVal ((e.drop 4).take 5)), ticket := none, cid := 0, xreg := 0, dloc := .own 0
    lpsn := false, wide := false, pc := 0, origin := none, tag := 0 }

/-- Supply one entry to port 10, or pass over it (R385). -/
def State.supplyEntry (s : State) (e : List Byte) : State :=
  let o := entryOp e
  if devOf o.acct != s.selfId || (s.flag F.TLY.REPLAY_CTRL.FILTER && psnBefore o.psn (s.reg R.TLY.REPLAY_FROM)) then
    s.bumpSat F.TLY.REPLAY_SKIPPED.COUNT
  else s.tallyPush 10 o

/-- Supply the entries of the record under way while port 10 has room. -/
def State.supply (s : State) : State :=
  let k := 64 - s.tports[(10 : Fin 11)].length
  (s.replayEntries.take k).foldl State.supplyEntry { s with replayEntries := s.replayEntries.drop k }

/-- The replay DMA goes on with its record or takes the next one (R384). -/
def State.replayRecord (s : State) : State :=
  if s.get F.TLY.REPLAY_STATUS.STATE != 1 || !s.powered 11 || s.frozen none then s
  else if s.replayEntries != [] then
    let s1 := s.supply
    if s1.replayEntries = [] ∧ s1.get F.TLY.REPLAY_LEN.LEN = 0 then s1.endRun 2 else s1
  else
    let a := s.get F.TLY.REPLAY_ADDR.ADDR
    let len := s.get F.TLY.REPLAY_LEN.LEN
    if len = 0 then s.endRun 2
    else if len < 16 then s.replayStop
    else
      let h := s.bytes a 16
      let n := leVal ((h.drop 2).take 2)
      let posting := h.getD 0 0 == 1
      let es := if posting then entriesOf (n / 24) (s.bytes (a + 16) n) else []
      if len < 16 + n || (posting && n % 24 != 0) || es.any entryBad then s.replayStop
      else
        let s1 := (s.put F.TLY.REPLAY_ADDR.ADDR (a + 16 + n)).put F.TLY.REPLAY_LEN.LEN (len - 16 - n)
        let s2 := ({ s1 with replayEntries := es } : State).supply
        if s2.replayEntries = [] ∧ len = 16 + n then s2.endRun 2 else s2

/-! ### Register writes (R351, R369, R382, R383, R386, R398) -/

/-- The PRESENT bits of DEV_MAP, which are not a warden's alone (R398). -/
def devPresent : Word := 0x8421084210

/-- A write of a TLY register with an effect of its own: `none` where the plain write applies. A field that is a warden's
alone keeps its value under another requester's write, which records code 0x15, and the register's other fields are written.
ECC_INJECT takes a write while GO reads 0 only (R6). -/
def State.wTly (s : State) (r : Requester) (off : Nat) (v : Word) : Option State :=
  let err (code : Nat) := some (s.pageErr pgTLY code off r true)
  let run := s.get F.TLY.REPLAY_STATUS.STATE == 1
  if off = 0x48 then
    if !s.flag F.TLY.SEEDED && (reqWarden r || r == .engine) then some (s.seed v.toNat) else err 0x11
  else if off = 0x50 then
    if reqWarden r || r == .engine then none
    else some ((s.setReg R.TLY.DEV_MAP ((s.reg R.TLY.DEV_MAP &&& ~~~devPresent) ||| (v &&& devPresent))).pageErr pgTLY 0x15 off r true)
  else if off = 0x58 then (if 1 ≤ getF v 0 16 ∧ getF v 0 16 ≤ 32768 then none else err 0x14)
  else if off = 0x80 then
    if !reqWarden r then err 0x15 else some (if v.getLsbD 12 then s.flushTickets (v.extractLsb' 0 12) else s)
  else if off = 0x88 ∨ off = 0x90 then (if run then some s else none)
  else if off = 0xA0 then
    let s1 := s.put F.TLY.REPLAY_CTRL.FILTER (getF v 1 1)
    let s2 := if v.getLsbD 0 then
        if run || !s.enabled pgTLY || !s.inDram (s.get F.TLY.REPLAY_ADDR.ADDR) (s.get F.TLY.REPLAY_LEN.LEN) then
          s1.pageErr pgTLY 0x12 off r true
        else (s1.put F.TLY.REPLAY_STATUS.STATE 1).put F.TLY.REPLAY_CTRL.START 1
      else s1
    some (if v.getLsbD 2 then s2.finishReplay else s2)
  else if 0x100 ≤ off ∧ off < 0x200 then (if s.enabled pgTLY then err 0x10 else none)
  else if off = 0x800 then (if 100 ≤ getF v 0 16 ∧ getF v 0 16 ≤ 60000 then none else err 0x14)
  else if off = 0x808 then
    let free := !s.flag F.TLY.ECC_INJECT.GO
    let keep : Word := if reqWarden r then 0 else 0x3FFFF
    let s1 := if free then s.setReg R.TLY.ECC_INJECT ((s.reg R.TLY.ECC_INJECT &&& keep) ||| (v &&& 0xFFFFF &&& ~~~keep)) else s
    some (if reqWarden r then s1 else s1.pageErr pgTLY 0x15 off r true)
  else none

/-- ENABLE goes from 0 to 1: formats are stamped (R351). -/
def State.tallyEnabled (s : State) : State := s.put F.TLY.STAMPING 1

/-- Format stamping ends. -/
def State.stampingDone (s : State) : State := if s.flag F.TLY.STAMPING then s.stamp.put F.TLY.STAMPING 0 else s

/-! ### Reset (R393, R394) -/

/-- Have the banks applied every granted operation? -/
def State.banksEmpty (s : State) : Bool := s.banks.toList.all (·.isEmpty)

/-- Apply every granted operation of every bank, with fuel; a cut that becomes ready on the way lets its reads go on. -/
def drainRounds : Nat → State → State
  | 0, s => s
  | f + 1, s =>
    if s.banksEmpty then s.cutReady
    else drainRounds f ((List.finRange 8).foldl (fun s b => s.bankApply b .none) s).cutReady

/-- The banks apply every granted operation (R393, R394): a queue holds 64, and each operation waits for one cut at most. -/
def State.drainBanks (s : State) : State := drainRounds 192 s

/-- Warm reset ends a replay run (R394): the record it is in is supplied whole, and the entries of port 10 are granted and
applied. -/
def State.replayDrain : Nat → State → State
  | 0, s => s
  | f + 1, s =>
    let ops := s.tports[(10 : Fin 11)]
    if ops.isEmpty && s.replayEntries.isEmpty then s
    else State.replayDrain f ((ops.foldl State.grantOp { s with tports := s.tports.set 10 [] }).drainBanks.supply)

end Sys2Proof.Machine
end

