-- ==== Sys2Proof/Machine/Journal.lean ====
section
/-! DEFINITION. The journal engine (R435–R477, R729): intake, batches, commits, rollover and mirror, the recovery scan,
read runs, identification, erasure and power failure. -/

namespace Sys2Proof.Machine

/-! ### Registers and slots -/

def State.jstate (s : State) : Nat := s.get F.JRN.STATE.STATE

/-- JRN.STATE changes; bit 4 notes 3, 4 and 5 (R474). -/
def State.setJstate (s : State) (n : Nat) : State :=
  let s1 := s.put F.JRN.STATE.STATE n
  if n != s.jstate && (n == 3 || n == 4 || n == 5) then s1.pageInt pgJRN 4 else s1

def State.jslot (s : State) (k : Nat) : Slot := s.jr.slots[k]?.getD Slot.empty
def State.setJslot (s : State) (k : Nat) (x : Slot) : State := { s with jr := { s.jr with slots := s.jr.slots.setIfInBounds k x } }

/-- CRT.STATUS.STATE of a slot (R465). -/
def State.crtState (s : State) (k : Nat) : Nat := s.get (F.CRT.STATUS.STATE (pgCrt k))

/-- Is the journal closing and committing its batch for a warm reset or a block restart (R475)? -/
def State.flushing (s : State) : Bool := s.boot == .warm || s.restarting pgJRN

/-- A slot changes state: the latch is held in ACTIVE and CLOSING (R465, R467). -/
def State.setCrt (s : State) (k n : Nat) : State :=
  let p := pgCrt k
  let s1 := (s.put (F.CRT.STATUS.STATE p) n).put (F.CRT.STATUS.LATCHED p) (b2n (n == 4 || n == 5))
  if n = s.crtState k then s1 else s1.pageInt p 1

/-- The slots that take the batch. -/
def State.writers (s : State) : List Nat := [0, 1].filter (fun k => s.crtState k == 4 || s.crtState k == 5)

/-- JOURNAL_ID (R441, R594). -/
def State.journalId (s : State) : Nat := s.get F.SEC.DEV_ID_LO.ID % 2 ^ 32

def State.mirror (s : State) : Bool := s.flag F.JRN.CFG.MODE

/-- The PSN_SEEN bits (R474). -/
def F.JRN.PSN_SEEN : Fld := ⟨R.HDR.PG_STATUS pgJRN, 8, 8⟩

/-- Write the write point of a slot. -/
def State.setPoint (s : State) (k s' i : Nat) : State :=
  let x := s.jslot k
  let s1 := s.setJslot k { x with wstripe := s', wpos := i }
  match x.cart with
  | some c => s1.put (F.CRT.WRITE_POS.SEQ (pgCrt k)) (seqOf c s' i)
  | none => s1

/-! ### Life and retirement (R461, R463, R464) -/

/-- The device's copies for a cartridge. -/
def State.lifeCopy (s : State) (id : BitVec 64) : Nat × Nat :=
  match s.jr.life.find? (fun e => e.1 == id) with | some e => e.2 | none => (0, 0)

/-- The IDs of the cartridges in the slots. -/
def State.presentIds (s : State) : List (BitVec 64) := [0, 1].filterMap (fun k => (s.jslot k).cart.map (·.id))

/-- A life table without its longest-absent cartridge. -/
def dropAbsent (here : List (BitVec 64)) (l : List (BitVec 64 × Nat × Nat)) : List (BitVec 64 × Nat × Nat) :=
  (l.reverse.eraseP (fun x => !here.contains x.1)).reverse

/-- Set the device's copies. The table holds 16: a new cartridge takes the place of the longest-absent one. -/
def State.setLifeCopy (s : State) (id : BitVec 64) (e g : Nat) : State :=
  let l := s.jr.life
  let l1 := if l.any (·.1 == id) then l.map (fun x => if x.1 = id then (id, e, g) else x)
    else (id, e, g) :: (if l.length < 16 then l else dropAbsent s.presentIds l)
  { s with jr := { s.jr with life := l1 } }

/-- A cartridge leaves: of the absent ones it is the last to go from the table. -/
def State.noteAbsent (s : State) (id : BitVec 64) : State :=
  { s with jr := { s.jr with life := s.jr.life.filter (·.1 == id) ++ s.jr.life.filter (·.1 != id) } }

/-- LIFE of the cartridge in a slot. -/
def State.life (s : State) (k : Nat) : Nat :=
  match (s.jslot k).cart with
  | some c => let e := s.lifeCopy c.id; c.lifeOf e.1 e.2
  | none => 0

/-- Is the other slot a standby? -/
def State.standby (s : State) (k : Nat) : Bool := s.crtState (1 - k) == 3

/-! ### Trailers (R444–R447) -/

/-- The timebase as a trailer holds it. -/
def State.closeTime (s : State) : List Byte := leBytes 4 s.tbNs ++ leBytes 6 s.tbSec

/-- The trailer of a batch closed at a time, with zero SIG. -/
def State.buildTrailer (s : State) (b : Batch) (close : Nat) (final pfail : Bool) (time : List Byte) : List Byte :=
  let n := batchPages b.bytes.length
  let signed := b.number % 256 == 0 || b.zcut || final
  let flags := b2n signed + 2 * b2n b.zcut + 4 * b2n final + 8 * b2n pfail + 16 * b2n s.mirror + 32 * b2n b.link
  let psn := (List.range 8).flatMap (fun d => leBytes 5 (s.get (F.JRN.PSN_MAX.PSN d)))
  let head := beBytes 4 0x4A54524C ++ [1] ++ leBytes 1 flags ++ leBytes 1 n ++ leBytes 1 close ++ leBytes 5 b.number ++
    leBytes 5 b.first ++ leBytes 5 b.last ++ leBytes 4 b.bytes.length ++ time ++ psn ++
    leBytes 1 (s.get F.JRN.PSN_SEEN) ++ [0, 0]
  let key := if signed then (sha256 (s.pubOf (s.get F.JRN.CFG.SIGN_KEY))).take 8 else List.replicate 8 0
  head ++ s.jr.prevHash ++ batchHash s.jr.prevHash b.bytes head ++ key ++ List.replicate 100 0 ++ beBytes 4 0xA53CC35A

/-- The open batch closes (R448). A batch never closes empty. DEDUCED, log 54. -/
def State.jclose (s : State) (close : Nat) (final pfail : Bool) : State :=
  match s.jr.batch with
  | some b =>
    if b.close.isSome || b.count = 0 then s
    else
      let t := s.buildTrailer b close final pfail s.closeTime
      { s with jr := { s.jr with batch := some { b with close := some close, trailer := t, sigDue := bitOf (tf t 5 1) 0 } } }
  | none => s

/-- A batch retried on another cartridge carries no FINAL; it keeps the time of its close. -/
def State.unfinal (s : State) : State :=
  match s.jr.batch with
  | some b =>
    match b.close with
    | some c =>
      if bitOf (tf b.trailer 5 1) 2 then
        let t := s.buildTrailer b c false (bitOf (tf b.trailer 5 1) 3) ((b.trailer.drop 27).take 10)
        { s with jr := { s.jr with batch := some { b with trailer := t, sigDue := bitOf (tf t 5 1) 0, sigDone := false } } }
      else s
    | none => s
  | none => s

/-- Data of a page of the batch, with the trailer on its last. -/
def Batch.page (b : Batch) (k : Nat) : List Byte :=
  let d := (b.bytes.drop (16384 * k)).take 16384
  let n := batchPages b.bytes.length
  if b.close.isSome ∧ k + 1 = n then (d ++ List.replicate 16128 0).take 16128 ++ b.trailer
  else (d ++ List.replicate 16384 0).take 16384

/-! ### DOWN, rollover and join (R451, R468–R470) -/

/-- No slot can take the batch: DOWN, and the staged batch is copied to the shadow. -/
def State.jdown (s : State) : State :=
  let s0 := s.jclose 6 false false
  let s1 := (s0.setJstate 4).event 0x0E0B 0x0E 4 4 (s.get F.JRN.COMMIT_BATCH.BATCH) 0
  let base := 4096 * s.get F.JRN.SHADOW.BASE
  match s1.jr.batch with
  | some b =>
    if base != 0 && s1.inDram base 262144 then
      s1.engineWrite base ((List.range (batchPages b.bytes.length)).flatMap b.page)
    else s1
  | none => s1

/-- A rollover begins from slot `k` to the standby (R468): cause 0 closes the open batch with FINAL; cause 1 leaves
the batch to be programmed on the new cartridge. A slot that is ACTIVE passes through CLOSING (R470). -/
def State.beginRoll (s : State) (cause k : Nat) : State :=
  if s.jr.roll.isSome then s
  else
    let s1 := { s with jr := { s.jr with roll := some (cause, k), rollDue := false } }
    let s2 := if cause = 0 then s1.jclose 6 true false else s1
    if s.crtState k = 4 then s2.setCrt k 5 else s2

/-- The cartridge of a slot is FULL (R470). -/
def State.jfull (s : State) (k : Nat) : State :=
  if !s.mirror && s.standby k then s.beginRoll 1 k
  else if s.jstate = 5 then s
  else (s.setJstate 5).event 0x0E0B 0x0E 4 5 (s.get F.JRN.COMMIT_BATCH.BATCH) 0

/-- LIFE of an active cartridge has changed (R464): the warning at 10, rollover or closing at 2. -/
def State.lifeCheck (s : State) (k : Nat) : State :=
  let l := s.life k
  let id : BitVec 64 := match (s.jslot k).cart with | some c => c.id | none => 0
  let s0 := s.put (F.CRT.STATUS.LIFE (pgCrt k)) l
  if s.crtState k != 4 then s0
  else
    let s1 := if l ≤ 10 ∧ !s.jr.warned.contains id then
        (({ s0 with jr := { s0.jr with warned := id :: s0.jr.warned } } : State).event 0x0E09 0x0E 2 k id.toNat 0).pageInt pgJRN 5
      else s0
    if 2 < l then s1
    else if s1.mirror then
      (if s1.crtState (1 - k) = 4 ∧ !(s1.jslot (1 - k)).leaving then s1.setJslot k { s1.jslot k with leaving := true } else s1)
    else if s1.standby k then s1.beginRoll 0 k
    else { s1 with jr := { s1.jr with rollDue := true } }

/-- Retire a block (R461). -/
def State.retireBlock (s : State) (k cs b : Nat) : State :=
  let x := s.jslot k
  match x.cart with
  | none => s
  | some c =>
    if badBlock c x.passed cs b then s
    else
      let (e, g) := s.lifeCopy c.id
      let s1 := if c.retired.length < c.gmax then
          (s.setJslot k { x with cart := some { c with retired := c.retired ++ [(cs, b)], grown := c.grown + 1 } }).setLifeCopy c.id e (g + 1)
        else (s.setJslot k { x with passed := x.passed ++ [(cs, b)] }).setLifeCopy c.id e (max g c.gmax)
      let full := b2n (!decide (c.retired.length < c.gmax))
      let s2 := s1.event 0x0E04 0x0E 1 k (b % 65536 + 65536 * cs + 131072 * full) 0
      (s2.put (F.CRT.BAD.GROWN (pgCrt k)) (s2.lifeCopy c.id).2).lifeCheck k

/-- A slot in FAULT no longer takes the batch (R450, R467–R469). -/
def State.slotLost (s : State) (k : Nat) : State :=
  if (s.jstate != 2 && s.jstate != 5) || s.flushing then s
  else if s.writers != [] then s
  else if !s.mirror && s.standby k then { s with jr := { s.jr with roll := none } }.beginRoll 1 k
  else s.jdown

/-- Put a slot in FAULT. -/
def State.slotFault (s : State) (k : Nat) : State := (s.setCrt k 7).slotLost k

/-- The journal is on the cartridge of slot `k`. -/
def State.noteLast (s : State) (k : Nat) : State :=
  match (s.jslot k).cart with
  | some c => { s with jr := { s.jr with lastId := c.id } }
  | none => s

/-- A slot that is READY becomes ACTIVE. -/
def State.activate (s : State) (k : Nat) : State :=
  ((s.setJslot k { s.jslot k with done := 0, fails := 0, leaving := false }).setCrt k 4).noteLast k

/-- The cartridge link record naming the cartridge that the journal was last on (R439). -/
def State.linkRecord (s : State) : Nat × List Byte :=
  (4, leBytes 8 s.jr.lastId.toNat ++ leBytes 5 (s.get F.JRN.COMMIT_BATCH.BATCH) ++ s.jr.prevHash ++ [0, 0, 0])

/-! ### Sequence numbers (R438, R453, R579) -/

/-- Does the device take its JSNs from a primary? -/
def State.cascade (s : State) : Bool := s.enabled pgIXL

/-- The JSN after a JSN: never 0 nor all ones. -/
def jsnSucc (n : Nat) : Nat := if n + 2 < 2 ^ 40 then n + 1 else 1

/-- The primary draws a block of JSNs for a GRANT_SIZE (R579). -/
def State.drawJsns (s : State) (size : Nat) : Nat × Nat × State :=
  let f := s.get F.IXL.JSN_NEXT.JSN
  let n := 256 * (size + 1)
  let (f, l) := if f + n ≤ 2 ^ 40 - 1 then (f, f + n - 1) else (1, n)
  (f, l, (s.put F.IXL.JSN_NEXT.JSN (l + 1)).put F.IXL.JSN_HIGH.JSN l)

/-- A primary that holds no block takes one. -/
def State.ownBlock (s : State) : State :=
  if s.cascade && s.jr.jsns.isEmpty && s.flag F.IXL.ROLE.IS_PRIMARY then
    let (f, l, s1) := s.drawJsns (s.get F.JRN.CFG.GRANT_SIZE)
    { s1 with jr := { s1.jr with jsns := [(f, l)] } }
  else s

/-- Is a JSN at hand? -/
def State.hasJsn (s : State) : Bool := !s.cascade || !s.jr.jsns.isEmpty

/-- Take the next JSN: whether it ends its block. -/
def State.takeJsn (s : State) : Nat × Bool × State :=
  if !s.cascade then
    let n := s.get F.JRN.NEXT_JSN.JSN
    (n, false, s.put F.JRN.NEXT_JSN.JSN (jsnSucc n))
  else match s.jr.jsns with
    | [] => (0, false, s)
    | (n, l) :: r =>
      let rest := if n = l then r else (n + 1, l) :: r
      let nxt := match rest with | (m, _) :: _ => m | [] => jsnSucc n
      (n, n == l, { s with jr := { s.jr with jsns := rest } }.put F.JRN.NEXT_JSN.JSN nxt)

/-! ### Staging (R438, R443, R446, R448) -/

/-- Does a record fit the open batch, or a new one? -/
def State.fitsBatch (s : State) (rec : List Byte) : Bool :=
  match s.jr.batch with
  | some b => decide (b.bytes.length + rec.length ≤ 261888)
  | none => true

/-- PSN_MAX of the device a record names rises (R446). -/
def State.notePsn (s : State) (rec : List Byte) : State :=
  let fl := tf rec 1 1
  if !bitOf fl 3 then s
  else
    let d := fl % 8
    let psn := BitVec.ofNat 40 (tf rec 11 5)
    let seen := s.get F.JRN.PSN_SEEN
    if !bitOf seen d || psnBefore (s.reg (R.JRN.PSN_MAX d)) psn then
      (s.setReg (R.JRN.PSN_MAX d) psn).put F.JRN.PSN_SEEN (seen ||| 2 ^ d)
    else s

/-- Stage a record with the next JSN: it opens a batch or joins the open one, and may close it. -/
def State.stage (s : State) (rec : List Byte) (done : Nat) : State :=
  let (j, ends, s1) := s.takeJsn
  let r := rec.take 6 ++ leBytes 5 j ++ rec.drop 11
  let b0 : Batch := s1.jr.batch.getD { number := s1.get F.JRN.NEXT_BATCH.BATCH, bytes := [], count := 0, first := j, last := j
                                       zcut := false, link := false, close := none, trailer := [], sigDue := false, sigDone := false }
  let z := r.getD 0 0 == 2 && r.getD 21 0 == 1
  let b := { b0 with bytes := b0.bytes ++ r, count := b0.count + 1, last := j, zcut := b0.zcut || z
                     link := b0.link || (b0.count == 0 && r.getD 0 0 == 4) }
  let s2 := ({ s1 with jr := { s1.jr with batch := some b } } : State).notePsn r
  let s3 := if done = 0 then s2 else s2.engineWrite done (leBytes 5 j)
  if z then s3.jclose 2 false false
  else if ends then s3.jclose 4 false false
  else if 261888 < b.bytes.length + 16 then s3.jclose 0 false false
  else s3

/-- A record of the engine's own (R439). -/
def engineRecord (type : Nat) (body : List Byte) : List Byte :=
  leBytes 1 type ++ [0] ++ leBytes 2 body.length ++ leBytes 2 0xFFFF ++ List.replicate 10 0 ++ body

/-- May the engine stage a record now? -/
def State.canStage (s : State) : Bool :=
  s.hasJsn && s.jstate == 2 && s.jr.roll.isNone && !s.flushing && (match s.jr.batch with | some b => b.close.isNone | none => true)

/-- The next batch opens: the engine's own records are its first, then a record that did not fit. A batch that is open
already goes on without them. -/
def State.reopen (s : State) : State :=
  let s0 := s.ownBlock
  let s1 := if s0.jr.batch.isSome then s0 else s0.jr.pre.foldl (fun s r =>
    if s.canStage then ({ s with jr := { s.jr with pre := s.jr.pre.drop 1 } } : State).stage (engineRecord r.1 r.2) 0 else s) s0
  match s1.jr.carry with
  | some c => if s1.canStage && (s1.jr.pre.isEmpty || s1.jr.batch.isSome) && s1.fitsBatch c.bytes then
      ({ s1 with jr := { s1.jr with carry := none } } : State).stage c.bytes c.done else s1
  | none => s1

/-! ### Commit (R449, R450, R464, R469) -/

/-- The identity CLOSE command: the cartridge is closed for good. -/
def State.closeCart (s : State) (k : Nat) : State :=
  let x := s.jslot k
  match x.cart with
  | none => s
  | some c => ((s.setJslot k { x with cart := some { c with closed := true }, leaving := false }).put
      (F.CRT.STATUS.CLOSED (pgCrt k)) 1).event 0x0E0A 0x0E 2 k c.id.toNat 0

/-- In mirror mode, a worn cartridge closes once its batch is committed and the other goes on. -/
def State.dropWorn (s : State) : State :=
  [0, 1].foldl (fun s k => if (s.jslot k).leaving && s.crtState k == 4 then (s.setCrt k 6).closeCart k else s) s

/-- In mirror mode, a READY cartridge joins between batches (R469). -/
def State.join (s : State) : State :=
  match s.writers with
  | [w] =>
    if s.mirror && s.jstate == 2 && s.standby w && s.jr.batch.isNone then
      let s1 := s.activate (1 - w)
      { s1 with jr := { s1.jr with pre := s1.jr.pre ++ [(s.noteLast w).linkRecord] } }
    else s
  | _ => s

/-- The batch is committed in the journal. DESIGN CHOICE, log 55. -/
def State.commitBatch (s : State) (b : Batch) : State :=
  let s1 := (((s.put F.JRN.COMMIT_BATCH.BATCH b.number).put F.JRN.COMMIT_JSN.JSN b.last).put F.JRN.NEXT_BATCH.BATCH (b.number + 1)).pageInt
    pgJRN 1
  let s2 := s.writers.reverse.foldl State.noteLast
    { s1 with jr := { s1.jr with batch := none, prevHash := (b.trailer.drop 112).take 32 } }
  let s3 := [0, 1].foldl (fun s k => s.setJslot k { s.jslot k with done := 0, fails := 0 }) s2
  if s.jstate = 6 then
    let (n, s4) := s3.draw
    [0, 1].foldl (fun s k => s.put (F.CRT.STATUS.LATCHED (pgCrt k)) 0)
      (s4.event 0x0E0D 0x0E 0 b.number (Config.freeNat n) s.jr.gaspRetries)
  else s3.dropWorn.join.reopen

/-- The batch commits once its trailer has passed on every active cartridge. -/
def State.tryCommit (s : State) : State :=
  match s.jr.batch with
  | some b =>
    if b.close.isSome && s.writers != [] && s.writers.all (fun k => (s.jslot k).done == batchPages b.bytes.length) then s.commitBatch b
    else s
  | none => s

/-! ### Programming (R449–R451, R471) -/

/-- Is the stripe at a slot's write point ready to be programmed? -/
def State.pointClean (s : State) (k : Nat) : Bool :=
  let x := s.jslot k
  match x.cart with
  | none => false
  | some c => (x.wpos != 0 || (c.inStripe x.wstripe).isEmpty) && x.erasing != some x.wstripe && x.torn != some x.wstripe &&
      decide (x.wpos < stripeLen c x.passed x.wstripe)

/-- The page of the batch a slot programs next, when it may. -/
def State.nextPage (s : State) (k : Nat) : Option Nat :=
  match s.jr.batch with
  | none => none
  | some b =>
    let i := (s.jslot k).done
    let n := batchPages b.bytes.length
    let ok := if b.close.isNone then decide (i < b.bytes.length / 16384)
      else decide (i + 1 < n) || (i + 1 == n && (!b.sigDue || b.sigDone))
    if ok && s.pointClean k && s.writers.contains k then some i else none

/-- DEGRADED and COMMITTING follow their sources, and CTRL.CLOSE and ROLL read 1 while what they began goes on (R5, R474). -/
def State.jrefresh (s : State) : State :=
  let w := s.writers
  let deg := s.mirror && w.length == 1 && s.jstate != 0
  let com := match s.jr.batch with
    | some b => b.close.isSome && w.any (fun k => s.nextPage k == some (batchPages b.bytes.length - 1))
    | none => false
  let closing := match s.jr.batch with | some b => b.close.isSome | none => false
  (((s.put F.JRN.STATE.DEGRADED (b2n deg)).put F.JRN.STATE.COMMITTING (b2n com)).put F.JRN.CTRL.CLOSE
    (b2n (s.flag F.JRN.CTRL.CLOSE && closing))).put F.JRN.CTRL.ROLL (b2n (s.flag F.JRN.CTRL.ROLL && s.jr.roll.isSome))

/-- Is the write point at a stripe that may not be erased (R470)? -/
def State.pointBlocked (s : State) (k : Nat) : Bool :=
  let x := s.jslot k
  match x.cart with
  | none => false
  | some c => x.wpos == 0 && !(c.inStripe x.wstripe).isEmpty &&
      !c.erasable s.journalId (s.get F.JRN.ARCHIVED.BATCH) (s.flag (F.CRT.CTRL.WIPE_OK (pgCrt k))) x.wstripe

/-- A write point that has moved may find its cartridge FULL. -/
def State.pointMoved (s : State) (k : Nat) : State :=
  if s.crtState k == 4 && (s.jstate == 2 || s.jstate == 5) && s.pointBlocked k then s.jfull k else s

/-- A page of a batch: its batch number, its index, whether it holds the trailer, and its data. -/
structure BatchPage where
  batch : Nat
  index : Nat
  last : Bool
  data : List Byte
deriving DecidableEq, Repr

/-- Page `i` of the batch under way. -/
def Batch.toPage (b : Batch) (i : Nat) : BatchPage :=
  { batch := b.number, index := i, last := b.close.isSome && i + 1 == batchPages b.bytes.length, data := b.page i }

/-- Put a page on the cartridge at the write point. -/
def State.putPage (s : State) (k : Nat) (g : BatchPage) (errs : List Nat) : State :=
  let x := s.jslot k
  match x.cart with
  | none => s
  | some c =>
    let (cs, pg) := place c x.passed x.wstripe x.wpos
    let q := seqOf c x.wstripe x.wpos
    let info := pageInfo s.journalId g.batch g.index g.last q
    let page : NandPage := { pos := q, data := g.data, info := info, spare := pageSpare c.spare g.data info, errs := errs }
    s.setJslot k { x with cart := some { c with pages := tabIns c.pages (pageKey x.wstripe cs pg) page } }

/-- A page is programmed with status pass: the write point moves on. -/
def State.programPass (s : State) (k : Nat) (g : BatchPage) : State :=
  let s1 := s.putPage k g (List.replicate 8 0)
  let x := s1.jslot k
  match x.cart with
  | none => s1
  | some c => let (st, p) := c.advance x.passed x.wstripe x.wpos; s1.setPoint k st p

/-- A page fails to program: the block is retired and the retry recorded (R450). -/
def State.programFail (s : State) (k : Nat) (g : BatchPage) : State :=
  let x := s.jslot k
  match x.cart with
  | none => s
  | some c =>
    let (cs, _) := place c x.passed x.wstripe x.wpos
    ((s.putPage k g [73]).event 0x0E03 0x0E 3 g.batch k (seqOf c x.wstripe x.wpos)).retireBlock k cs x.wstripe

/-- A page of the batch passes. -/
def State.pagePass (s : State) (k : Nat) (b : Batch) (i : Nat) : State :=
  let s1 := s.programPass k (b.toPage i)
  ((s1.setJslot k { s1.jslot k with done := i + 1 }).tryCommit).pointMoved k

/-- The stripe a retry goes to: the next, and in last gasp the next erased stripe with two good blocks, with fuel. -/
def retryStripe (c : Cartridge) (passed : List (Nat × Nat)) (gasp : Bool) : Nat → Nat → Option Nat
  | 0, _ => none
  | f + 1, st =>
    let n := c.after passed st
    if !gasp || ((goodCs c passed n).length == 2 && (c.inStripe n).isEmpty) then some n else retryStripe c passed gasp f n

/-- A page of the batch fails (R450): the batch is retried on the next stripe; a second failure puts the slot in FAULT. The
commit before a reset keeps the bounds of last gasp (R475). -/
def State.pageFail (s : State) (k : Nat) (b : Batch) (i : Nat) : State :=
  let x := s.jslot k
  match x.cart with
  | none => s
  | some c =>
    let gasp := s.jstate == 6
    let s2 := s.programFail k (b.toPage i)
    let s3 := if gasp then { s2 with jr := { s2.jr with gaspRetries := s2.jr.gaspRetries + 1 } } else s2
    let y := s3.jslot k
    let c2 := y.cart.getD c
    match (if x.fails = 0 then retryStripe c2 y.passed (gasp || s.flushing) c.blocks x.wstripe else none) with
    | some n => (((s3.setJslot k { y with fails := 1, done := 0 }).setPoint k n 0)).pointMoved k
    | none =>
      let s4 := (s3.setJslot k { y with fails := 2, done := 0 }).slotFault k
      s4.tryCommit

/-- Does the journal engine run: also in last gasp, and to commit its batch before a block restart (R19, R471, R475)? -/
def State.journalRuns (s : State) : Bool :=
  s.live pgJRN || (s.powered 13 && !s.frozen none && (s.jstate == 6 || (s.restarting pgJRN && !s.stopped)))

/-! ### Erasure (R460, R463) -/

/-- The stripes the engine keeps erased: from the write point on, ERASE_AHEAD beyond it. -/
def aheadOf (c : Cartridge) (passed : List (Nat × Nat)) : Nat → Nat → List Nat
  | 0, _ => []
  | n + 1, st => let m := c.after passed st; m :: aheadOf c passed n m

/-- The engine starts to erase the first stripe ahead that holds pages and may be erased; a write point that
reaches one that may not makes the cartridge FULL. -/
def State.stripeErase (s : State) (k : Nat) : State :=
  let x := s.jslot k
  match x.cart with
  | none => s
  | some c =>
    if !s.journalRuns || s.jstate == 6 || !s.writers.contains k || x.erasing.isSome then s
    else if s.pointBlocked k then s.jfull k
    else
      let here := if x.wpos = 0 then [x.wstripe] else []
      let ss := here ++ aheadOf c x.passed (s.get F.JRN.ERASE_AHEAD.STRIPES) x.wstripe
      let ok (st : Nat) : Bool := (!(c.inStripe st).isEmpty || x.torn == some st) &&
        c.erasable s.journalId (s.get F.JRN.ARCHIVED.BATCH) (s.flag (F.CRT.CTRL.WIPE_OK (pgCrt k))) st
      match ss.find? ok with
      | some st => s.setJslot k { x with erasing := some st }
      | none => s

/-- The erase of a stripe ends; a block that fails to erase is retired, as are those marked for it. -/
def State.eraseDone (s : State) (k : Nat) (fail0 fail1 : Bool) : State :=
  let x := s.jslot k
  match x.cart, x.erasing with
  | some c, some st =>
    let n := (goodCs c x.passed st).length
    let c2 := c.erase x.passed st
    let e := (s.lifeCopy c.id).1 + n
    let retire := x.toRetire.filter (fun b => b.2 == st)
    let s1 := (s.setJslot k { x with cart := some { c2 with erases := max c2.erases e }, erasing := none
                                     torn := if x.torn = some st then none else x.torn
                                     toRetire := x.toRetire.filter (fun b => b.2 != st) }).setLifeCopy c.id e (s.lifeCopy c.id).2
    let s2 := s1.put (F.CRT.ERASES.COUNT (pgCrt k)) e
    let bad := retire ++ (if fail0 then [(0, st)] else []) ++ (if fail1 then [(1, st)] else [])
    (bad.foldl (fun s b => s.retireBlock k b.1 b.2) s2).lifeCheck k
  | _, _ => s

/-! ### The recovery scan (R454–R457) -/

/-- Note what reading pages found: corrected codewords, and blocks to retire (R442). -/
def State.noteRead (s : State) (k : Nat) (ps : List NandPage) : State :=
  let lim := s.get F.JRN.RETIRE_BITS.BITS
  let x := s.jslot k
  match x.cart with
  | none => s
  | some c =>
    let fixed := (ps.map (fun p => (p.errs.filter (fun e => 0 < e ∧ e ≤ 72)).length)).sum
    let worn := (c.pages.filter (fun q => ps.any (fun p => p.pos == q.2.pos) && q.2.errs.any (fun e => lim ≤ e ∧ e ≤ 72))).map
      (fun q => (q.1 / 1024 % 2, q.1 / 2048))
    let s1 := s.setJslot k { x with toRetire := x.toRetire ++ worn.filter (fun w => !x.toRetire.contains w) }
    let v := (s1.reg (R.CRT.CORRECTED (pgCrt k))).toNat + fixed
    s1.setReg (R.CRT.CORRECTED (pgCrt k)) (BitVec.ofNat 40 (min v (2 ^ 40 - 1)))

/-- The images on the cartridge of a slot. -/
def State.slotImages (s : State) (k : Nat) : List Image :=
  match (s.jslot k).cart with | some c => c.images s.journalId | none => []

/-- The slots a scan covers: those with a cartridge identified and writable, both in mirror mode, else PREFER or
the other. -/
def State.scanSlots (s : State) : List Nat :=
  let ready := [0, 1].filter (fun k => s.crtState k == 3 || s.crtState k == 4)
  if s.mirror then ready
  else
    let p := s.get F.JRN.CFG.PREFER
    if ready.contains p then [p] else ready.take 1

/-- The chain check of one slot: none when clean or empty, else the last good batch. -/
def State.chainBreak (s : State) (k : Nat) : Option Nat :=
  let bs := s.slotImages k
  match chainBase bs, topImage bs with
  | some b, some t =>
    if b.signed && !ecdsaVerify (s.pubOf (s.get F.JRN.CFG.SIGN_KEY)) (sha256 (b.trailer.take 144)) ((b.trailer.drop 152).take 64) then
      some (b.number - 1)
    else
      let e := chainTo bs bs.length b
      if e.number = t.number then none else some e.number
  | _, _ => none

/-- Do two mirrored cartridges agree (R456)? The batch of the conflict where they do not. -/
def State.mirrorConflict (s : State) : Option Nat :=
  match topImage (s.slotImages 0), topImage (s.slotImages 1) with
  | some a, some b =>
    let n := min a.number b.number
    match (s.slotImages 0).find? (fun x => x.number == n), (s.slotImages 1).find? (fun x => x.number == n) with
    | some x, some y => if x.hash = y.hash then none else some n
    | _, _ => some n
  | _, _ => none

/-- The slot whose journal stands: the one with the highest batch. -/
def State.bestSlot (s : State) (ks : List Nat) : Option Nat :=
  (ks.foldl (fun (b : Option (Nat × Nat)) k =>
    match topImage (s.slotImages k) with
    | none => b
    | some t => match b with
      | none => some (k, t.number)
      | some (_, m) => if m < t.number then some (k, t.number) else b) none).map (·.1)

/-- The recovery scan: it ends clean, empty, in BREAK or in CONFLICT. -/
def State.recoveryScan (s : State) : State :=
  let ks := s.scanSlots
  if s.jstate != 1 || s.jr.scanned.isSome || ks.isEmpty then s
  else
    let s0 := ks.foldl (fun s k => s.noteRead k (((s.slotImages k).filter (fun im =>
      (chainBase (s.slotImages k)).any (fun b => b.number ≤ im.number))).flatMap (·.pages))) s
    match ks.findSome? (fun k => (s.chainBreak k).map (fun b => (k, b))) with
    | some (k, b) => ((s0.put F.JRN.SCAN.RESULT 3).setJstate 3).event 0x0E01 0x0E 4 b k 0
    | none =>
      match (if s.mirror ∧ ks.length = 2 then s.mirrorConflict else none) with
      | some n => ((s0.put F.JRN.SCAN.RESULT 4).setJstate 3).event 0x0E0C 0x0E 4 n 0 0
      | none =>
        let best := s.bestSlot ks
        { s0.put F.JRN.SCAN.RESULT (if best.isSome then 1 else 2) with jr := { s0.jr with scanned := some best } }

/-- Make a scanned slot ACTIVE at its write point. -/
def State.openSlot (s : State) (k : Nat) : State :=
  let x := s.jslot k
  match x.cart with
  | none => s
  | some c =>
    let (st, i) := c.writePoint s.journalId x.passed (topImage (c.images s.journalId))
    (s.activate k).setPoint k st i

/-- The images of a slot above a batch number, lowest first. -/
def State.imagesAbove (s : State) (k n : Nat) : List Image :=
  let bs := s.slotImages k
  (List.range ((topImage bs).elim 0 (·.number))).filterMap (fun i => if n ≤ i then bs.find? (fun b => b.number == i + 1) else none)

/-- The journal start record (R439). -/
def State.startRecord (s : State) : Nat × List Byte :=
  let pub := s.pubOf (s.get F.JRN.CFG.SIGN_KEY)
  (5, leBytes 5 (s.get F.JRN.COMMIT_BATCH.BATCH) ++ leBytes 5 (s.get F.JRN.COMMIT_JSN.JSN) ++ leBytes 4 (s.get F.REC.PCYCLES.COUNT) ++
    (sha256 pub).take 8 ++ (pub ++ List.replicate 64 0).take 64 ++ leBytes 1 (s.get F.JRN.SCAN.RESULT) ++ [0])

/-! #### Copying to a mirror (R456) -/

/-- How copying a batch ends. -/
inductive CopyEnd where
  | copied | blocked | failed
deriving DecidableEq, Repr

/-- The pages of a committed batch. -/
def imagePages (im : Image) : List BatchPage :=
  im.pages.map (fun p => { batch := p.batch, index := p.index, last := p.last, data := p.data })

/-- Move the write point to an erased position, erasing its stripe first where R460 allows; none where it does not. With fuel. -/
def State.copyReady (k : Nat) : Nat → State → Option State
  | 0, _ => none
  | f + 1, s =>
    if s.pointClean k then some s
    else
      let x := s.jslot k
      match x.cart with
      | none => none
      | some c =>
        if x.wpos != 0 || stripeLen c x.passed x.wstripe == 0 then State.copyReady k f (s.setPoint k (c.after x.passed x.wstripe) 0)
        else if s.pointBlocked k then none
        else State.copyReady k f ((s.setJslot k { x with erasing := some x.wstripe }).eraseDone k false false)

/-- Program pages on a slot in order; the page of index `bad` fails, and the write point goes to the next stripe. -/
def State.copyPages (k : Nat) (bad : Option Nat) : List BatchPage → State → State × CopyEnd
  | [], s => (s, .copied)
  | g :: gs, s =>
    match s.copyReady k (2 * ((s.jslot k).cart.elim 0 (·.blocks)) + 2) with
    | none => (s, .blocked)
    | some s1 =>
      if bad = some g.index then
        let s2 := s1.programFail k g
        let y := s2.jslot k
        (s2.setPoint k (y.cart.elim 0 (fun c => c.after y.passed y.wstripe)) 0, .failed)
      else State.copyPages k bad gs (s1.programPass k g)

/-- Copy a batch onto the cartridge of a slot: it passes, fails once and passes at the retry, or fails twice. -/
def State.copyImage (s : State) (k : Nat) (im : Image) : State × CopyEnd :=
  let (n, s1) := s.draw
  let how := Config.freeNat n
  let gs := imagePages im
  let bad := some (how / 3 % gs.length)
  if how % 3 = 0 then s1.copyPages k none gs
  else match s1.copyPages k bad gs with
    | (s2, .failed) => s2.copyPages k (if how % 3 = 1 then none else bad) gs
    | r => r

/-- Copy batches in order; a copy that fails twice puts the slot in FAULT. -/
def State.copyImages (k : Nat) : List Image → State → State × CopyEnd
  | [], s => (s, .copied)
  | im :: ims, s => match s.copyImage k im with
    | (s1, .copied) => State.copyImages k ims s1
    | (s1, .blocked) => (s1, .blocked)
    | (s1, .failed) => (s1.setCrt k 7, .failed)

/-! #### The end of a scan (R457) -/

/-- The journal goes on from its last valid trailer, or from nothing as a new one. -/
def State.takeJournal (s : State) (top : Option Image) : State :=
  let tr := match top with | some t => t.trailer | none => []
  let at_ (i n : Nat) : Nat := tf tr i n
  let s1 := (List.range 8).foldl (fun (s : State) d => s.setReg (R.JRN.PSN_MAX d) (BitVec.ofNat 40 (at_ (37 + 5 * d) 5))) s
  let s2 := (((s1.put F.JRN.PSN_SEEN (at_ 77 1)).put F.JRN.COMMIT_BATCH.BATCH (at_ 8 5)).put F.JRN.COMMIT_JSN.JSN (at_ 18 5)).put
    F.JRN.NEXT_BATCH.BATCH (at_ 8 5 + 1)
  { s2.put F.JRN.NEXT_JSN.JSN (jsnSucc (at_ 18 5)) with
    jr := { s2.jr with prevHash := match top with | some t => t.hash | none => List.replicate 32 0 } }

/-- PSN_NEXT is seeded from PSN_MAX, intake opens, and a journal start record is staged. -/
def State.openIntake (s : State) : State :=
  let d := s.selfId
  let psn := if bitOf (s.get F.JRN.PSN_SEEN) d then (s.get (F.JRN.PSN_MAX.PSN d) + 1) % 2 ^ 40 else 0
  let s1 := if s.flag F.JRN.CFG.SEED then (s.wTly .engine 0x48 (BitVec.ofNat 40 psn)).getD s else s
  let s2 := s1.setJstate 2
  ({ s2 with jr := { s2.jr with scanned := none, pre := s2.startRecord :: s2.jr.pre } } : State).reopen

/-- The slots that a scan's end makes ACTIVE. A mirror without a valid trailer joins later, under R469. DEDUCED, log 53. -/
def State.scanOpens (s : State) (best : Option Nat) : List Nat :=
  match best with
  | some k => if s.crtState (1 - k) == 7 || (topImage (s.slotImages (1 - k))).isNone then [k] else s.scanSlots
  | none => s.scanSlots

/-- The scan has ended well, or a warden has accepted one cartridge: the slots become ACTIVE, a mirror that lacks batches gets
them, and the journal goes on (R456, R457). A copy that meets a stripe it may not erase waits as FULL (R470). -/
def State.scanComplete (s : State) : State :=
  match s.jr.scanned with
  | none => s
  | some best =>
    if s.jstate != 1 && s.jstate != 5 then s
    else
      let ks := s.scanOpens best
      let top := best.bind (fun k => topImage (s.slotImages k))
      let s1 := ks.foldl State.openSlot s
      let r := match best with
        | some k => if s.mirror && ks.length == 2 then
            State.copyImages (1 - k) (s.imagesAbove k ((topImage (s.slotImages (1 - k))).elim 0 (·.number))) s1
          else (s1, .copied)
        | none => (s1, .copied)
      if r.2 = .blocked then
        (if s.jstate = 5 then r.1 else (r.1.setJstate 5).event 0x0E0B 0x0E 4 5 (s.get F.JRN.COMMIT_BATCH.BATCH) 0)
      else ks.foldl State.pointMoved (((best.elim r.1 r.1.noteLast).takeJournal top).openIntake)

/-- ACCEPT (R456): the journal of a slot stands; the other goes to FAULT. -/
def State.accept (s : State) (k : Nat) : State :=
  if s.jstate != 3 then s
  else
    let s1 := if (s.jslot (1 - k)).cart.isSome then s.setCrt (1 - k) 7 else s
    let best := if (topImage (s.slotImages k)).isSome then some k else none
    { s1.setJstate 1 with jr := { s1.jr with scanned := some best } }

/-! ### Intake (R435–R438) -/

/-- The journal queues that hold an element, by number. -/
def State.journalQueues (s : State) : List Nat :=
  ((List.range 8).filterMap (fun r =>
    let n := s.get (F.JRN.INQ.QUEUE r)
    let q := s.queue n
    if s.flag (F.JRN.INQ.VALID r) && q.valid && q.ckind == 1 && q.count != 0 then some n else none))

/-- The lowest of some queue numbers at or above `m`. -/
def lowestFrom (m : Nat) (ns : List Nat) : Option Nat :=
  ns.foldl (fun b n => if n < m then b else match b with | none => some n | some x => if n < x then some n else some x) none

/-- The queue the engine takes from next: the round's next, else the first of a new round. -/
def State.nextQueue (s : State) : Option Nat :=
  let ns := s.journalQueues
  match s.jr.round with
  | some r => (lowestFrom (r + 1) ns).orElse (fun _ => lowestFrom 0 ns)
  | none => lowestFrom 0 ns

/-- Do a range's frames carry REF_KEY, in assigned DRAM, without an uncorrectable error? -/
def State.refOk (s : State) (a n : Nat) : Bool :=
  s.bufOk (s.get F.JRN.CFG.REF_KEY) (a, n, false) && !s.bufUe (a, n, false)

/-- Checks 4 to 6 of R437 on a record. -/
def recordReason (r : List Byte) : Nat :=
  let t := tf r 0 1
  let n := tf r 2 2
  let body := (r.drop 16).take n
  if !(t == 1 || t == 2 || t == 3 || decide (0x80 ≤ t)) || tf r 1 1 / 16 != 0 || decide (4096 < n) then 4
  else if t = 1 ∧ (n % 24 ≠ 0 ∨ (entriesOf (n / 24) body).any entryBad) then 5
  else if t = 2 ∧ (n ≠ 8 ∨ 1 < tf body 5 1 ∨ 1 < tf body 6 1 ∨ tf body 7 1 ≠ 0) then 6
  else if t = 3 ∧ (n ≠ 8 ∨ 524288 < tf body 5 3) then 6
  else 0

/-- What an element brings: a reason, the record, and its DONE address (R436, R437). -/
def State.elementRecord (s : State) (e : List Byte) : Nat × List Byte × Nat :=
  let p := e.drop 8
  let type := elType e
  let len := elLen e
  if type = 0x10 then
    let n := tf p 2 2
    if len != 16 + n || decide (56 < len) then (2, [], 0) else (recordReason (p.take len), p.take len, 0)
  else if type = 0x11 then
    let a := tf p 0 5
    let done := tf p 5 5
    let doneOk := done == 0 || s.refOk done 5
    if len != 10 then (2, [], if doneOk && decide (10 ≤ len) then done else 0)
    else if !s.refOk a 16 || !s.refOk a (16 + tf (s.bytes a 16) 2 2) || !doneOk then (3, [], if doneOk then done else 0)
    else
      let r := s.bytes a (16 + min (tf (s.bytes a 16) 2 2) 4096)
      (recordReason r, r, done)
  else (1, [], 0)

/-- An element is rejected. -/
def State.jreject (s : State) (n reason : Nat) (e : List Byte) (done : Nat) : State :=
  let s1 := (((s.bumpSat F.JRN.REJECTS.COUNT).put F.JRN.REJECT_LAST.QUEUE n).put F.JRN.REJECT_LAST.REASON reason).put
    F.JRN.REJECT_LAST.SOURCE (elSrc e)
  let s2 := (s1.event 0x0E02 0x0E 2 n reason (elSrc e)).pageInt pgJRN 2
  if done = 0 then s2 else s2.engineWrite done (leBytes 5 (2 ^ 40 - 1))

/-- Has a slot fewer unprogrammed full pages than its limit (R449)? -/
def State.stageRoom (s : State) (k : Nat) : Bool :=
  let x := s.jslot k
  let lim := match x.cart with | some c => if (goodCs c x.passed x.wstripe).length = 2 then 7 else 3 | none => 3
  match s.jr.batch with
  | some b => decide (b.bytes.length / 16384 - x.done < lim)
  | none => true

/-- May the engine take an element? -/
def State.intakeOpen (s : State) : Bool :=
  s.live pgJRN && s.enabled pgJRN && s.canStage && s.jr.carry.isNone && (s.jr.pre.isEmpty || s.jr.batch.isSome) &&
    s.writers.all s.stageRoom && s.writers != []

/-- The engine takes the next element of a round. -/
def State.journalTake (s : State) : State :=
  let s0 := if s.live pgJRN && s.enabled pgJRN then s.reopen else s
  if !s0.intakeOpen then s0
  else match s0.nextQueue with
    | none => s0
    | some n =>
      match s0.hwHead n with
      | (none, s1) => s1
      | (some e, s1) =>
        let s2 := { s1.hwTake n with jr := { s1.jr with round := some n } }
        let (reason, r, done) := s2.elementRecord e
        if reason != 0 then s2.jreject n reason e done
        else if s2.fitsBatch r then s2.stage r done
        else ({ s2 with jr := { s2.jr with carry := some { bytes := r, done := done } } } : State).jclose 0 false false

/-! ### Signature (R447) -/

/-- The signature of the trailer is made with the key of CFG.SIGN_KEY; without a private key or entropy the trailer
waits. -/
def State.signTrailer (s : State) : State :=
  match s.jr.batch with
  | none => s
  | some b =>
    let key := s.get F.JRN.CFG.SIGN_KEY
    if b.close.isSome && b.sigDue && !b.sigDone && s.canSign then
      let (r, s1) := s.drbg 40
      let sig := ecdsaSign (beVal (s.key key)) (privOf (leVal r)) (sha256 (b.trailer.take 144))
      let t := b.trailer.take 152 ++ sig ++ b.trailer.drop 216
      { s1 with jr := { s1.jr with batch := some { b with trailer := t, sigDone := true } } }
    else s

/-! ### Rollover ends (R468) -/

/-- The old cartridge is CLOSED, the new one ACTIVE, and the next batch will open with a link record. Where the standby has gone
the journal is DOWN (R472). -/
def State.rolloverEnd (s : State) : State :=
  match s.jr.roll with
  | none => s
  | some (cause, old) =>
    let new := 1 - old
    if cause = 0 ∧ s.jr.batch.isSome then s
    else
      let worn := cause == 0 && decide (s.life old ≤ 2)
      let s1 := if s.crtState old == 4 || s.crtState old == 5 then s.setCrt old 6 else s
      let s2 := if worn then s1.closeCart old else s1
      if s.crtState new != 3 then { s2 with jr := { s2.jr with roll := none } }.slotLost old
      else
        let newId := match (s.jslot new).cart with | some c => c.id.toNat | none => 0
        let s3 := (s2.activate new).unfinal
        let s4 := { s3 with jr := { s3.jr with roll := none, pre := s3.jr.pre ++ [s.linkRecord] } }
        let s5 := (s4.event 0x0E08 0x0E 1 s.jr.lastId.toNat newId (s.get F.JRN.COMMIT_BATCH.BATCH)).pageInt pgJRN 6
        let s6 := if s5.jstate == 4 || s5.jstate == 5 then s5.setJstate 2 else s5
        (s6.pointMoved new).reopen

/-- A cartridge has become READY: a waiting journal uses it (R451, R468–R470). -/
def State.standbyArrives (s : State) (k : Nat) : State :=
  let o := 1 - k
  if s.jstate = 4 then
    let s1 := (s.activate k).unfinal.setJstate 2
    let s2 := if (s.jslot k).cart.any (fun c => c.id != s.jr.lastId) then
        { s1 with jr := { s1.jr with pre := s1.jr.pre ++ [s.linkRecord] } } else s1
    (s2.pointMoved k).reopen
  else if s.jstate = 5 ∧ s.jr.scanned.isNone then s.beginRoll 1 o
  else if s.jr.rollDue && s.crtState o == 4 then s.beginRoll 0 o
  else s.join.reopen

/-! ### Identification and presence (R462, R463, R465–R467) -/

/-- The engine identifies the cartridge of a slot in IDENT, with the cartridge root key of vault slot 63 (R598). A challenge
needs the random source. -/
def State.identifyCart (s0 : State) (k : Nat) (how : IdentOutcome) : State :=
  let p := pgCrt k
  let x := s0.jslot k
  match x.cart with
  | none => s0
  | some c =>
    if s0.crtState k != 1 || !s0.flag F.SEC.RNG_STATUS.READY then s0
    else
      let s := ((s0.put (F.CRT.CTRL.IDENTIFY p) 0).drbg 32).2
      let reason := identReason (s.pubOf 63) c how
      if reason != 0 then ((s.setCrt k 2).put (F.CRT.STATUS.REASON p) reason).event 0x0E06 0x0E 2 k reason 0
      else
        let (e, g) := s.lifeCopy c.id
        let e' := max e c.erases
        let g' := max g c.grown
        let s1 := (s.setJslot k { x with cart := some { c with erases := e', grown := g' }, passed := [], toRetire := []
                                         leaving := false, done := 0, fails := 0, erasing := none, torn := none }).setLifeCopy c.id e' g'
        let s2 := ((((s1.put (F.CRT.ID.ID p) c.id.toNat).put (F.CRT.ID_HI.ID p) (c.id.toNat / 2 ^ 40)).put (F.CRT.ID_HI.MODEL p)
          c.model.toNat).put (F.CRT.GEOMETRY.S p) c.blocks).put (F.CRT.GEOMETRY.P p) c.ppb
        let s3 := ((((s2.put (F.CRT.ERASES.COUNT p) e').put (F.CRT.BAD.FACTORY p) c.factory.length).put (F.CRT.BAD.GROWN p) g').put
          (F.CRT.STATUS.REASON p) 0).put (F.CRT.STATUS.CLOSED p) (b2n c.closed)
        let s4 := (s3.put (F.CRT.STATUS.LIFE p) (s3.life k)).event 0x0E05 0x0E 0 c.id.toNat k (s3.life k)
        if c.closed then s4.setCrt k 6
        else ((s4.setCrt k 3).setPoint k (c.standbyPoint s.journalId []) 0).standbyArrives k

/-- A presence change has survived its debounce. A cartridge already in the slot is the one found. -/
def State.presence (s : State) (k : Nat) (cart : Option Cartridge) : State :=
  let p := pgCrt k
  let x := s.jslot k
  let was := s.flag (F.CRT.STATUS.PRESENT p)
  match cart with
  | some c =>
    if was then s
    else (((s.setJslot k { x with cart := x.cart.orElse (fun _ => some c) }).put (F.CRT.STATUS.PRESENT p) 1).pageInt p 2).setCrt k 1
  | none =>
    if !was then s
    else
      let s0 := match x.cart with | some c => s.noteAbsent c.id | none => s
      let s1 := ((((s0.setJslot k { x with cart := none }).put (F.CRT.STATUS.PRESENT p) 0).put (F.CRT.CTRL.WIPE_OK p) 0).put
        (F.CRT.CTRL.IDENTIFY p) 0).pageInt p 2
      if s.flag (F.CRT.STATUS.LATCHED p) then
        let ob := match s.jr.batch with | some b => b.number | none => 0
        (((s1.event 0x0E07 0x0E 4 k ob 0).pageInt p 3).slotFault k).tryCommit
      else s1.setCrt k 0

/-! ### Read runs (R458) -/

/-- A run ends. -/
def State.readEnd (s : State) (stop : Nat) : State :=
  ({ (s.put F.JRN.RD_STATUS.STOP stop).put F.JRN.RD_CTRL.START 0 with jr := { s.jr with rd := none } }).pageInt pgJRN 3

/-- The slot a run reads. -/
def State.readSlot (s : State) : Option Nat :=
  if s.mirror then (let k := s.get F.JRN.RD_CTRL.SLOT; if s.crtState k == 4 then some k else none)
  else [0, 1].find? (fun k => s.crtState k == 4)

/-- The trailers of committed batches that can be read on a cartridge, each with its batch number. -/
def State.trailers (s : State) (c : Cartridge) : List (Nat × List Byte) :=
  ((c.pages.map (·.2)).filter (fun p => p.reads && p.magic && p.last && p.journal == s.journalId &&
    decide (p.batch ≤ s.get F.JRN.COMMIT_BATCH.BATCH))).map (fun p => (p.batch, p.data.drop 16128))

/-- The batch MODE 1 begins at: the first whose PSN_MAX does not precede RD_PSN. -/
def State.psnBatch (s : State) (c : Cartridge) : Option Nat :=
  let d := s.get F.JRN.RD_CTRL.DEV
  let psn := s.reg R.JRN.RD_PSN
  (s.trailers c).foldl (fun b t =>
    if bitOf (tf t.2 77 1) d && !psnBefore (BitVec.ofNat 40 (tf t.2 (37 + 5 * d) 5)) psn then
      match b with | none => some t.1 | some n => some (min t.1 n)
    else b) none

/-- Is a committed batch on a cartridge: some page of it can be read, or a page that cannot follows the batch before?
DEDUCED, log 54. -/
def State.holdsBatch (s : State) (c : Cartridge) (n : Nat) : Bool :=
  let own (p : NandPage) (m : Nat) : Bool := p.reads && p.magic && p.journal == s.journalId && p.batch == m
  decide (n ≤ s.get F.JRN.COMMIT_BATCH.BATCH) && c.pages.any (fun e =>
    own e.2 n || (!e.2.reads && (c.pageBefore e.2).any (fun q => q.last && own q (n - 1))))

/-- RD_CTRL.START. -/
def State.readStart (s : State) (r : Requester) : State :=
  if s.jr.rd.isSome || !s.inDram (s.get ⟨R.JRN.RD_ADDR, 0, 40⟩) (s.get ⟨R.JRN.RD_LEN, 0, 40⟩) then s.pageErr pgJRN 0x12 0xC0 r true
  else
    let s1 := (s.put F.JRN.RD_CTRL.START 1).put F.JRN.RD_STATUS.STOP 0
    match s.readSlot.bind (fun k => (s.jslot k).cart.map (fun c => (k, c))) with
    | none => s1.readEnd 6
    | some (k, c) =>
      let at_ := (s.reg R.JRN.RD_BATCH).toNat
      let first := if s.flag F.JRN.RD_CTRL.MODE then s.psnBatch c else if s.holdsBatch c at_ then some at_ else none
      match first with
      | none => s1.readEnd 6
      | some n =>
        let cnt := s.get F.JRN.RD_CTRL.COUNT
        let s2 := if s.flag F.JRN.RD_CTRL.MODE then s1.setReg R.JRN.RD_BATCH (BitVec.ofNat 40 n) else s1
        { s2 with jr := { s2.jr with rd := some { slot := k, next := n, left := if cnt = 0 ∨ 65536 < cnt then 65536 else cnt
                                                  prev := none } } }

/-- A run copies its next batch. -/
def State.readBatch (s : State) : State :=
  match s.jr.rd with
  | none => s
  | some run =>
    if !s.live pgJRN then s
    else match (s.jslot run.slot).cart with
    | none => s.readEnd 5
    | some c =>
      if s.get F.JRN.COMMIT_BATCH.BATCH < run.next then s.readEnd 2
      else
        let tops := (c.pages.map (·.2)).filter (fun p => p.reads && p.magic && p.last && p.batch == run.next && p.journal == s.journalId)
        match c.find s.journalId run.next with
        | none => if tops.isEmpty ∨ tops.all (fun p => (c.pagesTo s.journalId p.index p [p]).isNone) then s.readEnd 5 else s.readEnd 4
        | some im =>
          let s1 := s.noteRead run.slot im.pages
          let out := if s.flag F.JRN.RD_CTRL.RAW then (im.pages.map (·.data)).flatten else im.bytes
          let a := (s.reg R.JRN.RD_ADDR).toNat
          let len := (s.reg R.JRN.RD_LEN).toNat
          let prev := run.prev.orElse (fun _ => (c.find s.journalId (run.next - 1)).map Image.hash)
          if prev.any (fun h => h != im.prev) then s1.readEnd 4
          else if len < out.length then s1.readEnd 3
          else
            let s2 := ((if s.inDram a out.length then s1.engineWrite a out else s1).setReg R.JRN.RD_ADDR (BitVec.ofNat 40 (a + out.length))).setReg R.JRN.RD_LEN
              (BitVec.ofNat 40 (len - out.length))
            if run.left = 1 then s2.readEnd 1
            else if run.next = s.get F.JRN.COMMIT_BATCH.BATCH then s2.readEnd 2
            else { s2 with jr := { s2.jr with rd := some { run with next := run.next + 1, left := run.left - 1, prev := some im.hash } } }

/-! ### Power failure, restart and reset (R471, R472, R475) -/

/-- PFAIL_N falls: intake stops, the open batch closes with CLOSE 5, an erase is aborted. -/
def State.journalGasp (s : State) : State :=
  let st := if s.jstate = 0 then s.jr.resume else s.jstate
  if st = 1 ∨ st = 3 ∨ st = 0 then { s with jr := { s.jr with rd := none } }.setJstate 6
  else
    let ob := s.jr.batch
    let s1 := (s.jclose 5 false true).setJstate 6
    let s2 := [0, 1].foldl (fun s k =>
      let x := s.jslot k
      s.setJslot k { x with torn := x.erasing.orElse (fun _ => x.torn), erasing := none }) s1
    let s3 := { s2 with jr := { s2.jr with rd := none, roll := none, gaspRetries := 0 } }
    if ob.isNone then [0, 1].foldl (fun s k => s.put (F.CRT.STATUS.LATCHED (pgCrt k)) 0) s3 else s3

/-- Warm reset and block restart close the open batch with CLOSE 7 (R475). A record not yet staged is lost, and a rollover
stops. -/
def State.journalFlush (s : State) : State :=
  ({ s with jr := { s.jr with carry := none, pre := [], roll := none } } : State).jclose 7 false false

/-- Is the batch that a reset waits for committed, or lost within the bounds of R471? It is lost where no slot can program what is
left of it, or where its signature cannot be made. DEDUCED, log 54. -/
def State.journalSettled (s : State) : Bool :=
  match s.jr.batch with
  | none => true
  | some b =>
    b.close.isNone || (b.sigDue && !b.sigDone && !s.canSign) ||
      s.writers.all (fun k => (s.jslot k).done == batchPages b.bytes.length || s.pointBlocked k || (s.jslot k).cart.isNone)

/-- The journal's own state after a reset: the staging buffer is empty and a scan is due. -/
def State.journalReset (s : State) : State :=
  { s with jr := { s.jr with batch := none, pre := [], round := none, carry := none, roll := none, rollDue := false, scanned := none
                             rd := none, jsns := [], resume := 0
                             slots := s.jr.slots.map (fun x => { x with done := 0, fails := 0, erasing := none }) } }

/-- The shadow is cleared at warm reset (R475). -/
def State.clearShadow (s : State) : State :=
  let base := 4096 * s.get F.JRN.SHADOW.BASE
  if base != 0 && s.inDram base 262144 then
    { s with mem := s.mem.filter (fun p => decide (p.1 < base) || decide (base + 262144 ≤ p.1)) }
  else s

/-- ENABLE goes from 0 to 1: after a reset the recovery scan comes first (R454), else the engine goes on. -/
def State.journalEnabled (s : State) : State :=
  if s.jstate != 0 then s
  else if s.jr.resume = 0 then s.setJstate 1
  else
    let s1 := { s with jr := { s.jr with resume := 0 } }.put F.JRN.STATE.STATE s.jr.resume
    ([0, 1].foldl (fun (s : State) k => if s.crtState k == 7 then s.slotLost k else s) s1).join.reopen

/-- ENABLE goes from 1 to 0: the engine is stopped and takes no element. A batch closed before still commits.
DESIGN CHOICE, log 54. -/
def State.journalStopped (s : State) : State :=
  if s.jstate = 0 ∨ s.jstate = 6 then s
  else { s with jr := { s.jr with resume := s.jstate } }.put F.JRN.STATE.STATE 0

/-! ### Register writes (R473–R476) -/

/-- A write of a JRN register with an effect of its own. -/
def State.wJrn (s : State) (r : Requester) (off : Nat) (v : Word) : Option State :=
  let err (code : Nat) := some (s.pageErr pgJRN code off r true)
  let trust := reqWarden r || r == .engine
  if off = 0x40 then
    if s.enabled pgJRN then err 0x10
    else
      let v1 := if trust then v else putF v 18 6 (s.get F.JRN.CFG.SIGN_KEY)
      let s1 := if trust then s else s.pageErr pgJRN 0x11 off r true
      some (s1.rangedWrite .jrn r 0x13 R.JRN.CFG v1 [(8, 10, decide (getF v 8 10 < 1) || decide (1000 < getF v 8 10))])
  else if off = 0x70 then (if v.toNat < s.get F.JRN.ARCHIVED.BATCH then err 0x15 else
    let s1 := s.setReg R.JRN.ARCHIVED v
    some (if s.jstate = 5 ∧ s.jr.scanned.isNone ∧ !(s.writers.any s1.pointBlocked) then (s1.setJstate 2).reopen else s1))
  else if off = 0x78 then
    let s1 := if v.getLsbD 0 && s.enabled pgJRN && s.jr.batch.any (fun b => b.close.isNone && b.count != 0) then
        (s.jclose 3 false false).put F.JRN.CTRL.CLOSE 1 else s
    let s2 := if v.getLsbD 1 && s1.jr.roll.isNone then
        (match s1.writers with
          | [k] => if s1.jstate = 2 ∧ s1.standby k ∧ !s1.mirror then (s1.beginRoll 0 k).put F.JRN.CTRL.ROLL 1
            else s1.pageErr pgJRN 0x14 off r true
          | _ => s1.pageErr pgJRN 0x14 off r true)
      else s1
    some (if v.getLsbD 2 then (if trust then s2.accept (getF v 3 1) else s2.pageErr pgJRN 0x11 off r true) else s2).jrefresh
  else if 0xA0 ≤ off ∧ off ≤ 0xA8 then (if s.jr.rd.isSome then some s else none)
  else if off = 0xC0 then
    if s.jr.rd.isSome then (if v.getLsbD 0 then err 0x12 else none)
    else
      let s1 := s.setReg R.JRN.RD_CTRL (v &&& 0xFFFFFE)
      some (if v.getLsbD 0 then s1.readStart r else s1)
  else if 0x100 ≤ off ∧ off < 0x140 then
    (if (s.queue (getF v 0 13)).ckind != 1 then err 0x13 else none)
  else if off = 0x800 then (if getF v 0 4 < 1 ∨ 8 < getF v 0 4 then err 0x13 else none)
  else if off = 0x808 then (if getF v 0 7 < 16 ∨ 72 < getF v 0 7 then err 0x13 else none)
  else none

/-- A write of a slot's CTRL (R476). -/
def State.wCrt (s : State) (r : Requester) (k : Nat) (off : Nat) (v : Word) : Option State :=
  if off = 0x48 then
    let p := pgCrt k
    let err (s : State) (code : Nat) := s.pageErr p code off r true
    let st := s.crtState k
    let present := s.flag (F.CRT.STATUS.PRESENT p)
    let s1 := if v.getLsbD 0 && !s.flag (F.CRT.CTRL.IDENTIFY p) then
        (if st = 3 ∨ st = 2 ∨ st = 6 ∨ (st = 0 ∧ present) then (s.setCrt k 1).put (F.CRT.CTRL.IDENTIFY p) 1 else err s 0x10) else s
    let s2 := if v.getLsbD 1 then
        (if st = 3 ∨ st = 6 ∨ st = 2 then s1.setCrt k 0 else err s1 0x10) else s1
    some (if v.getLsbD 2 then
        (if reqWarden r then s2.put (F.CRT.CTRL.WIPE_OK p) 1 else err s2 0x11) else s2)
  else none

/-! ### Commands -/

/-- JOURNAL_TAKE (R435). -/
def execJournalTake (s : State) : Host.Outcome State Fault Refusal := .next s.journalTake.jrefresh.jsnAsk

/-- CLOSE_TIMER (R448). -/
def execCloseTimer (s : State) : Host.Outcome State Fault Refusal :=
  .next (if s.live pgJRN then (s.jclose 1 false false).jrefresh else s)

/-- PAGE_PROGRAM_DONE (R449, R450). -/
def execPageProgramDone (k : Fin 2) (pass : Bool) (s : State) : Host.Outcome State Fault Refusal :=
  .next (match s.jr.batch, s.nextPage k with
    | some b, some i =>
      if !s.journalRuns then s else if pass then (s.pagePass k b i).jrefresh else (s.pageFail k b i).jrefresh
    | _, _ => s)

/-- JOURNAL_SIGNATURE_DONE (R447). -/
def execJournalSignatureDone (s : State) : Host.Outcome State Fault Refusal :=
  .next (if s.journalRuns then s.signTrailer.jrefresh else s)

/-- RECOVERY_SCAN (R454). -/
def execRecoveryScan (s : State) : Host.Outcome State Fault Refusal :=
  .next (if s.live pgJRN then s.recoveryScan.jrefresh else s)

/-- SCAN_COMPLETE (R457). -/
def execScanComplete (s : State) : Host.Outcome State Fault Refusal :=
  .next (if s.live pgJRN then s.scanComplete.jrefresh else s)

/-- ROLLOVER_END (R468). -/
def execRolloverEnd (s : State) : Host.Outcome State Fault Refusal :=
  .next (if s.live pgJRN then s.rolloverEnd.jrefresh else s)

/-- STRIPE_ERASE (R460). -/
def execStripeErase (k : Fin 2) (s : State) : Host.Outcome State Fault Refusal := .next (s.stripeErase k).jrefresh

/-- ERASE_DONE (R463). A NAND operation runs on through an eclipse (R685). -/
def execEraseDone (k : Fin 2) (fail0 fail1 : Bool) (s : State) : Host.Outcome State Fault Refusal :=
  .next (if s.stopped then s else (s.eraseDone k fail0 fail1).jrefresh)

/-- READ_BATCH (R458). -/
def execReadBatch (s : State) : Host.Outcome State Fault Refusal := .next s.readBatch

/-- PRESENCE_DEBOUNCED (R466). -/
def execPresenceDebounced (k : Fin 2) (cart : Option Cartridge) (s : State) : Host.Outcome State Fault Refusal :=
  .next (if s.journalRuns then (s.presence k cart).jrefresh else s)

/-- CARTRIDGE_IDENTIFY (R462). -/
def execCartridgeIdentify (k : Fin 2) (how : IdentOutcome) (s : State) : Host.Outcome State Fault Refusal :=
  .next (if s.live pgJRN then (s.identifyCart k how).jrefresh else s)

end Sys2Proof.Machine
end

