-- ==== Sys2Proof/Machine/Owners.lean ====
section
/-! DEFINITION. Owners and claims of lane I/O resources (R518–R523). -/

namespace Sys2Proof.Machine

/-- A resource that nobody owns. -/
def OwnRec.free : OwnRec := { held := false, owner := 0, units := 0 }

/-- The owner identity of a requester (R519). -/
def ownerId : Requester → Nat
  | .ctx c _ => c.toNat
  | .host => 0xFFF
  | .engine => 0xF0F

/-- Claims: KIND 0 a line, 1 a timer, 2 a port's pool quota. -/
def State.claimOf (s : State) (kind i : Nat) : OwnRec := tabGet OwnRec.free s.own (256 * kind + i)

/-- Replace a claim; a line's CLAIMED follows it (R545). -/
def State.setClaim (s : State) (kind i : Nat) (o : OwnRec) : State :=
  let s1 := { s with own := tabSet OwnRec.free s.own (256 * kind + i) o }
  if kind = 0 then s1.put (F.GPIO.GP.CLAIMED i) (b2n o.held) else s1

/-- Units of the pool that no port holds. -/
def State.freeUnits (s : State) : Nat := s.get F.LIO.POOL.FREE

/-- Pool space of a message: its bytes rounded up to a multiple of 64 (R525). -/
def poolSize (n : Nat) : Nat := (n + 63) / 64 * 64

/-- The port, in the series of R518, of a binding and of a transmit path. -/
def bindPort (b : Nat) : Nat := if b < 256 then b / 16 else if b < 304 then b - 240 else 64 + (b - 304) / 8 % 8
def txPort (t : Nat) : Nat := if t < 256 then t / 16 else if t < 304 then t - 240 else if t < 312 then t - 240 else (t - 312) % 16

/-- A framer that hunts. -/
def Framer.hunt : Framer :=
  { phase := 0, prof := { frame := 0, pre := 0, suf := 0, check := 0, limits := 0 }, bind := 0, got := 0, buf := [], len := none
    dead := false }

/-- A framer's pool space: the message received so far. -/
def Framer.size (f : Framer) : Nat := if f.phase = 0 ∨ f.dead then 0 else poolSize (f.got + f.buf.length)

/-- Bytes of its quota that a port has in use. DEDUCED, log 60. -/
def State.usedBytes (s : State) (port : Nat) : Nat :=
  ((s.ready.filter (fun m => bindPort m.b == port)).map (·.size)).sum +
  ((s.framers.filter (fun p => bindPort p.1 == port)).map (·.2.size)).sum +
  ((s.txHeld.filter (fun p => txPort p.1 == port)).map (fun p => poolSize p.2.length)).sum +
  ((s.ctlReq.filter (fun p => p.1 == port)).map (fun p => poolSize (p.2.length - 1))).sum

/-- The port's units in use, and its free bytes. -/
def State.usedUnits (s : State) (port : Nat) : Nat := (s.usedBytes port + 1023) / 1024
def State.quotaBytes (s : State) (port : Nat) : Nat := 1024 * (s.claimOf 2 port).units

/-- POOL.LOW follows the pool's free space (R550). -/
def State.poolLow (s : State) : State :=
  let used := (s.ready.map (·.size)).sum + (s.framers.map (·.2.size)).sum + (s.txHeld.map (fun p => poolSize p.2.length)).sum +
    (s.ctlReq.map (fun p => poolSize (p.2.length - 1))).sum
  let free := (2097152 - used) / 1024
  if free < s.get F.LIO.POOL.LOW then s.put F.LIO.POOL.LOW free else s

/-- Indexes of a KIND. -/
def kindCount (kind : Nat) : Nat := if kind = 0 then 192 else if kind = 1 then 64 else 72

/-- Is a queue-consuming or receiving path of the port enabled (R520)? -/
def State.portActive (s : State) (port : Nat) : Bool :=
  if port < 16 then
    (List.range 16).any (fun k => s.flag (F.USBP.PIPE_BIND.ENABLE (pgUsb port) (port % 4) k)) || s.flag (F.USBP.CTLQ.VALID (pgUsb port) (port % 4))
  else if port < 64 then
    let u := port - 16
    s.flag (F.UARTP.UA_BIND.ENABLE (pgUart u) (u % 16)) || s.flag (F.UARTP.UA_TXQ.ENABLE (pgUart u) (u % 16))
  else (List.range 8).any (fun f => s.flag (F.CANP.FILT_BIND.ENABLE (port - 64) f)) || s.flag (F.CANP.CAN_TXQ.ENABLE (port - 64))

/-- Give a resource to an owner: the claim's status and the state (R519). -/
def State.claim (s : State) (me kind i units : Nat) : Nat × State :=
  if kind = 3 ∨ kindCount kind ≤ i then (6, s)
  else
    let o := s.claimOf kind i
    if o.held && o.owner != me then (if kind = 0 then 1 else if kind = 1 then 2 else 3, s)
    else if kind = 2 then
      if s.freeUnits + o.units < units ∨ units < s.usedUnits i then (3, s)
      else (0, (s.setClaim 2 i { held := true, owner := me, units := units }).put F.LIO.POOL.FREE (s.freeUnits + o.units - units))
    else (0, s.setClaim kind i { held := true, owner := me, units := 0 })

/-- A timer stops with its output inactive (R520, R549). -/
def State.stopTimer (s : State) (t : Nat) : State :=
  { s.put (F.TIMER.TM_CFG.GO t) 0 with tmOut := s.tmOut &&& ~~~(1#64 <<< t) }

/-- Set or clear a timer's flag. -/
def State.timerFlag (s : State) (t v : Nat) : State :=
  if t < 40 then s.put ⟨R.TIMER.TM_FLAG0, t, 1⟩ v else s.put ⟨R.TIMER.TM_FLAG1, t - 40, 1⟩ v

/-- Release a resource (R520): the status and the state. -/
def State.release (s : State) (r : Requester) (kind i : Nat) : Nat × State :=
  if kind = 3 ∨ kindCount kind ≤ i then (6, s)
  else
    let o := s.claimOf kind i
    let me := ownerId r
    if !(reqWarden r || (o.held && o.owner == me)) then (4, s)
    else if kind = 2 && s.portActive i then (5, s)
    else
      let s1 := if reqWarden r && o.held && o.owner != me then s.event 0x1004 0x10 1 (kind + 4 * i) o.owner me else s
      let s2 := s1.setClaim kind i OwnRec.free
      (0, if kind = 0 then ((s2.put (F.GPIO.GP.FUNC i) 0).put (F.GPIO.GP.FLAG i) 0).put (F.GPIO.GP.IE i) 0
          else if kind = 1 then (s2.stopTimer i).timerFlag i 0
          else s2.put F.LIO.POOL.FREE (s.freeUnits + o.units))

/-- Writes of CLAIM and OWN_SELECT (R519–R522). -/
def State.wOwn (s : State) (r : Requester) (off : Nat) (v : Word) : Option State :=
  let me := ownerId r
  if off = 0x40 then
    let kind := getF v 0 2
    let i := getF v 2 8
    let (st, s1) := if v.getLsbD 10 then s.release r kind i else s.claim me kind i (getF v 11 12)
    some { s1 with claimRes := tabSet 0 s1.claimRes me st }
  else if off = 0x50 then some { s with ownSel := tabSet 0 s.ownSel me (v &&& 0x3FF) }
  else none

/-- Reads of CLAIM_RESULT, OWN_SELECT and OWN_READ, each requester's own (R522). -/
def State.rOwn (s : State) (r : Requester) (off : Nat) : Option Word :=
  let me := ownerId r
  if off = 0x48 then some (BitVec.ofNat 40 (tabGet 0 s.claimRes me))
  else if off = 0x50 then some (tabGet 0 s.ownSel me)
  else if off = 0x58 then
    let sel := tabGet 0 s.ownSel me
    let kind := getF sel 0 2
    let i := getF sel 2 8
    let o := if kind = 3 ∨ kindCount kind ≤ i then OwnRec.free else s.claimOf kind i
    some (BitVec.ofNat 40 (o.owner + 2 ^ 12 * b2n o.held + 2 ^ 13 * o.units + 2 ^ 25 * (if kind = 2 ∧ o.held then s.usedUnits i else 0)))
  else none

/-- May a requester write a resource's registers (R523)? The error code when it may not. -/
def State.ownTest (s : State) (r : Requester) (kind i : Nat) : Option Nat :=
  let o := s.claimOf kind i
  if reqWarden r then none
  else if !o.held then some 0x11
  else if o.owner != ownerId r then some 0x10
  else none

end Sys2Proof.Machine
end

