-- ==== Sys2Proof/Machine/LaneIO.lean ====
section
/-! DEFINITION. Lane I/O (R517–R553): framing, delivery, transmission, USB, UART, CAN FD, general I/O lines and timers. -/

namespace Sys2Proof.Machine

/-! ### Paths -/

/-- BIND and STATS of a binding: 16 × port + pipe for USB, 256 + UART, 304 + 8 × controller + filter for CAN. -/
def bindAddr (b : Nat) : Nat :=
  if b < 256 then R.USBP.PIPE_BIND (pgUsb (b / 16)) (b / 16 % 4) (b % 16)
  else if b < 304 then R.UARTP.UA_BIND (pgUart (b - 256)) ((b - 256) % 16)
  else R.CANP.FILT_BIND ((b - 304) / 8) (b % 8)
def statsAddr (b : Nat) : Nat :=
  if b < 256 then R.USBP.PIPE_STATS (pgUsb (b / 16)) (b / 16 % 4) (b % 16)
  else if b < 304 then R.UARTP.UA_STATS (pgUart (b - 256)) ((b - 256) % 16)
  else R.CANP.CAN_STATS ((b - 304) / 8)

/-- The header's source field (R71, R518). -/
def bindSrc (b : Nat) : Nat :=
  if b < 256 then 0x1000 + b / 16 else if b < 304 then 0x1100 + (b - 256) else 0x1200 + (b - 304) / 8

/-- The binding whose STATS counts a transmit path's discards. -/
def txStats (t : Nat) : Nat := if t < 304 then statsAddr t else if t < 312 then R.CANP.CAN_STATS (t - 304) else statsAddr (16 * (t - 312))

/-- Does lane I/O run? -/
def State.lioRuns (s : State) : Bool := s.live pgLIO && s.enabled pgLIO

/-- Does the interface that a binding receives from run? -/
def State.portRuns (s : State) (port : Nat) : Bool :=
  s.lioRuns &&
    (if port < 16 then s.flag (F.USBP.PORT_CTRL.ENABLE (pgUsb port) (port % 4)) && s.flag (F.USBP.PORT_STATUS.ENABLED (pgUsb port) (port % 4))
     else if port < 64 then s.flag (F.UARTP.UA_CFG.ENABLE (pgUart (port - 16)) ((port - 16) % 16))
     else s.flag (F.CANP.CAN_CFG.ENABLE (port - 64)) && s.get (F.CANP.CAN_STATUS.STATE (port - 64)) != 2)

/-! ### Drops (R526) -/

/-- The second of the model's clock, for rates of recorder events: a tick is 10 ns. DEDUCED, log 64. -/
def State.second (s : State) : Nat := s.ticks / 100000000

/-- A drop or discard is recorded: STATS field of the reason, DROP_LAST, and the control page's interrupt bit. -/
def State.noteDrop (s : State) (stats port reason queue bit : Nat) : State :=
  let lo := 8 * (reason - 1)
  let s1 := s.put ⟨stats, lo, 8⟩ (s.get ⟨stats, lo, 8⟩ + 1)
  (s1.setReg R.LIO.DROP_LAST (BitVec.ofNat 40 (port + 128 * reason + 1024 * queue))).pageInt pgLIO bit

/-- The queue a binding delivers to. -/
def State.bindQueue (s : State) (bind : Word) : Nat :=
  if bind.getLsbD 20 then s.get (F.LIO.AREA_QUEUE.QUEUE (getF bind 21 5)) else getF bind 0 13

/-- A message for `queue` is dropped whole: 1 QFULL, 2 POOL, 3 CHECK, 4 FORM. -/
def State.dropFor (s : State) (b queue reason : Nat) : State :=
  let port := bindPort b
  let s1 := s.noteDrop (statsAddr b) port reason queue 1
  if tabGet 0 s1.dropSec port = s1.second + 1 then s1
  else ({ s1 with dropSec := tabSet 0 s1.dropSec port (s1.second + 1) } : State).event 0x1001 0x10 2 port reason (s1.reg (statsAddr b)).toNat

/-- A message of a binding is dropped whole. -/
def State.dropMsg (s : State) (b : Nat) (bind : Word) (reason : Nat) : State := s.dropFor b (s.bindQueue bind) reason

/-- A transmit element is discarded (R533). -/
def State.txDrop (s : State) (t queue : Nat) : State := s.noteDrop (txStats t) (txPort t) 5 queue 2

/-! ### Framing profiles (R529–R532) -/

/-- The registers of profile p. -/
def State.profile (s : State) (p : Nat) : Prof :=
  { frame := s.reg (R.PROFP.FRAME (pgProf p) (p % 16)), pre := s.reg (R.PROFP.PREFIX (pgProf p) (p % 16))
    suf := s.reg (R.PROFP.SUFFIX (pgProf p) (p % 16)), check := s.reg (R.PROFP.CHECK (pgProf p) (p % 16))
    limits := s.reg (R.PROFP.LIMITS (pgProf p) (p % 16)) }

def Prof.ends (p : Prof) : Nat := getF p.frame 0 3
def Prof.nsuf (p : Prof) : Nat := getF p.frame 6 3
def Prof.loff (p : Prof) : Nat := getF p.frame 9 4
def Prof.lsize (p : Prof) : Nat := getF p.frame 13 2
def Prof.ladj (p : Prof) : Int := sint 5 (getF p.frame 16 5)
def Prof.valid (p : Prof) : Bool := p.frame.getLsbD 24
def Prof.prefixBytes (p : Prof) : List Byte := (leBytes 4 p.pre.toNat).take (getF p.frame 3 3)
def Prof.suffixBytes (p : Prof) : List Byte := (leBytes 4 p.suf.toNat).take (getF p.frame 6 3)
def Prof.kind (p : Prof) : Nat := getF p.check 0 4
def Prof.cstart (p : Prof) : Nat := getF p.check 4 4
def Prof.maxlen (p : Prof) : Nat := getF p.limits 0 13
def Prof.ito (p : Prof) : Nat := getF p.limits 13 16

/-- Bytes of the check (R531). -/
def Prof.checkLen (p : Prof) : Nat :=
  match p.kind with
  | 1 | 2 | 3 | 4 => 1
  | 5 | 6 | 7 | 8 => 2
  | 9 => 4
  | _ => 0

/-- A byte-wise CRC of width `w`, most significant bit first. -/
def crcMsb (w poly : Nat) (init : Nat) (bs : List Byte) : Nat :=
  bs.foldl (fun c b => (List.range 8).foldl (fun c _ =>
    if c / 2 ^ (w - 1) % 2 = 1 then ((c * 2) % 2 ^ w) ^^^ poly else (c * 2) % 2 ^ w) (c ^^^ (b.toNat * 2 ^ (w - 8)))) init

/-- A byte-wise reflected CRC: `poly` is the reversed polynomial. -/
def crcLsb (poly : Nat) (init : Nat) (bs : List Byte) : Nat :=
  bs.foldl (fun c b => (List.range 8).foldl (fun c _ => if c % 2 = 1 then (c / 2) ^^^ poly else c / 2) (c ^^^ b.toNat)) init

/-- The check's value over the covered bytes (R531). -/
def checkValue (kind : Nat) (bs : List Byte) : Nat :=
  let sum := (bs.map BitVec.toNat).sum
  match kind with
  | 1 => bs.foldl (fun c b => c ^^^ b.toNat) 0
  | 2 => sum % 256
  | 3 => (256 - sum % 256) % 256
  | 4 => crcMsb 8 0x07 0 bs
  | 5 => crcMsb 16 0x1021 0xFFFF bs
  | 6 => crcLsb 0x8408 0 bs
  | 7 => crcLsb 0xA001 0 bs
  | 8 => crcLsb 0xA001 0xFFFF bs
  | 9 => crc32 bs
  | _ => 0

/-- The check bytes of a body in line order. -/
def Prof.checkBytes (p : Prof) (body : List Byte) : List Byte :=
  let cover := (if p.check.getLsbD 8 then p.prefixBytes else []) ++ body.drop p.cstart
  let v := checkValue p.kind cover
  if p.check.getLsbD 9 then leBytes p.checkLen v else beBytes p.checkLen v

/-- A completed frame's outcome: the bytes to deliver, or the reason to drop it (R530). -/
def Prof.finish (p : Prof) (known : Bool) (buf : List Byte) : Except Nat (List Byte) :=
  let n := p.checkLen + p.nsuf
  let body := buf.take (buf.length - n)
  let chk := (buf.drop (buf.length - n)).take p.checkLen
  let suf := buf.drop (buf.length - p.nsuf)
  if buf.length ≤ n ∨ p.maxlen < body.length ∨ body.length < p.cstart then .error 4
  else if known && suf != p.suffixBytes then .error 4
  else if chk != p.checkBytes body then .error 3
  else .ok ((if p.frame.getLsbD 21 then p.prefixBytes else []) ++ body ++ (if p.frame.getLsbD 22 then chk else []) ++
    (if p.frame.getLsbD 23 then suf else []))

/-- The frame sent for a body (R532), or none when the body is too long. A length field is written where the body has
its bytes. -/
def Prof.frameOut (p : Prof) (body : List Byte) : Option (List Byte) :=
  if p.maxlen < body.length then none
  else
    let l := umod (8 * p.lsize) ((body.length : Int) - p.ladj)
    let lf := if p.frame.getLsbD 15 then beBytes p.lsize l else leBytes p.lsize l
    let b := if p.lsize = 0 then body else (body.take p.loff ++ lf ++ body.drop (p.loff + p.lsize)).take body.length
    some (p.prefixBytes ++ b ++ p.checkBytes b ++ p.suffixBytes)

/-! ### Framers (R530) -/

/-- A binding's framer. -/
def State.framer (s : State) (b : Nat) : Framer := tabGet Framer.hunt s.framers b

/-- Replace a framer; a UART's RXACTIVE follows it. -/
def State.setFramer (s : State) (b : Nat) (f : Framer) : State :=
  let s1 := { s with framers := tabSet Framer.hunt s.framers b f }
  if 256 ≤ b ∧ b < 304 then s1.put (F.UARTP.UA_STATUS.RXACTIVE (pgUart (b - 256)) ((b - 256) % 16)) (b2n (f.phase != 0)) else s1

/-- The framer hunts again. -/
def State.toHunt (s : State) (b : Nat) : State := s.setFramer b Framer.hunt

/-- A complete message joins the pool, or is dropped under FORM when it does not fit its element or slot (R526). -/
def State.complete (s : State) (b : Nat) (bind : Word) (bytes : List Byte) (size : Nat) : State :=
  let lim := if bind.getLsbD 20 then 64 * 2 ^ s.get (F.LIO.AREA_BASE.SIZE (getF bind 21 5)) else 56
  if lim < bytes.length then s.dropMsg b bind 4
  else { s with ready := s.ready ++ [{ b := b, bind := bind, bytes := bytes, size := size }] }

/-- The message of a framer is dropped, and the rest of it is discarded up to its end. -/
def State.kill (s : State) (b : Nat) (reason : Nat) : State :=
  let f := s.framer b
  if f.dead then s else (s.setFramer b { f with dead := true }).dropMsg b f.bind reason

/-- The end of a frame. -/
def State.endFrame (s : State) (b : Nat) : State :=
  let f := s.framer b
  let s1 := s.toHunt b
  if f.dead then s1
  else match f.prof.finish (f.prof.ends == 0 || f.prof.ends == 3) f.buf with
    | .error e => s1.dropMsg b f.bind e
    | .ok bs => s1.complete b f.bind bs f.size

/-- A byte after the prefix (R530). DEDUCED, log 61. -/
def State.bodyByte (s : State) (b : Nat) (x : Byte) : State :=
  let f0 := s.framer b
  let p := f0.prof
  let buf := f0.buf ++ [x]
  let f := { f0 with buf := buf }
  let s1 := (s.setFramer b f).poolLow
  let port := bindPort b
  let s2 := if s1.quotaBytes port < s1.usedBytes port then s1.kill b 2 else s1
  if p.ends = 0 ∧ f.len.isNone ∧ buf.length = p.loff + p.lsize then
    let fld := buf.drop p.loff
    let l := (if p.frame.getLsbD 15 then (beVal fld : Int) else leVal fld) + p.ladj
    if l < (p.loff + p.lsize : Nat) ∨ (p.maxlen : Int) < l then (s2.kill b 4).toHunt b
    else
      let s3 := s2.setFramer b { s2.framer b with len := some l.toNat }
      if buf.length = l.toNat + p.checkLen + p.nsuf then s3.endFrame b else s3
  else
    let full := match (if p.ends = 3 then some p.maxlen else f.len) with
      | some l => buf.length == l + p.checkLen + p.nsuf
      | none => p.ends == 1 && buf.drop (buf.length - p.nsuf) == p.suffixBytes
    if full then s2.endFrame b else s2

/-- A byte in HUNT. -/
def State.huntByte (s : State) (b : Nat) (x : Byte) : State :=
  let bind := s.reg (bindAddr b)
  let p := s.profile (getF bind 14 6)
  if !bind.getLsbD 13 || !p.valid then s
  else match p.prefixBytes with
    | [] => (s.setFramer b { Framer.hunt with phase := 2, prof := p, bind := bind }).bodyByte b x
    | y :: r => if x = y then s.setFramer b { Framer.hunt with phase := if r = [] then 2 else 1, prof := p, bind := bind, got := 1 } else s

/-- A byte received. -/
def State.rxByte (s : State) (b : Nat) (x : Byte) : State :=
  let f := s.framer b
  match f.phase with
  | 0 => s.huntByte b x
  | 1 =>
    if f.prof.prefixBytes[f.got]? = some x then
      s.setFramer b { f with got := f.got + 1, phase := if f.got + 1 = f.prof.prefixBytes.length then 2 else 1 }
    else (s.toHunt b).huntByte b x
  | _ => s.bodyByte b x

/-- A short or zero-length packet ends a USB transfer: a frame of END 4 ends (R530). -/
def State.rxPacketEnd (s : State) (b : Nat) : State :=
  let f := s.framer b
  if f.phase = 2 ∧ f.prof.ends = 4 then s.endFrame b else s

/-- A character error or a break drops the message in progress under FORM (R539). -/
def State.rxBroken (s : State) (b : Nat) : State :=
  let f := s.framer b
  if f.phase = 0 then s else if f.phase = 1 then (s.kill b 4).toHunt b else s.kill b 4

/-- Received bytes and what ends them. -/
def State.rx (s : State) (b : Nat) (bs : List Byte) (e : RxEnd) : State :=
  let s1 := bs.foldl (fun (s : State) x => s.rxByte b x) s
  match e with
  | .more => s1
  | .packet => if b < 256 then s1.rxPacketEnd b else s1
  | .charError => if b < 256 then s1 else s1.rxBroken b

/-- A gap longer than the framer's ITO (R530): it ends a frame of END 2; elsewhere it is a FORM drop after the first body byte. -/
def State.rxGap (s : State) (b : Nat) : State :=
  let f := s.framer b
  if f.phase = 0 ∨ f.prof.ito = 0 then s
  else if f.phase = 1 then s.toHunt b
  else if f.prof.ends = 2 then s.endFrame b
  else if f.buf = [] then s
  else (s.kill b 4).toHunt b

/-- R530: received bytes pass a binding's framer. -/
def execRxMessage (b : Fin 304) (bytes : List Byte) (ending : RxEnd) (s : State) : Host.Outcome State Fault Refusal :=
  .next (if s.portRuns (bindPort b) then s.rx b bytes ending else s)

/-- R530: the inter-byte timeout expires. -/
def execItoExpiry (b : Fin 304) (s : State) : Host.Outcome State Fault Refusal :=
  .next (if s.lioRuns then s.rxGap b else s)

/-- R539: a break. -/
def execUartBreak (u : Fin 48) (s : State) : Host.Outcome State Fault Refusal :=
  .next (if s.portRuns (16 + u) then (s.rxBroken (256 + u)).pageInt (pgUart u) 1 else s)

/-! ### Delivery (R525–R527) -/

/-- Slots of a reference area: 2^(k+1), k being DEPTH of its queue. -/
def State.areaSlots (s : State) (a : Nat) : Nat := 2 ^ ((s.queue (s.get (F.LIO.AREA_QUEUE.QUEUE a))).depth + 1)

/-- Is an element of area `a` at the queue manager? Its slot is still in use, so the next message waits.
DEDUCED, log 63. -/
def State.areaBusy (s : State) (a : Nat) : Bool :=
  s.qports[9].any (fun o => match o.origin with | .lane _ (some b) => b == a | _ => false)

/-- Can a message be offered now? With an area that is not VALID it waits. DEDUCED, log 63. -/
def State.canDeliver (s : State) (m : RxMsg) : Bool :=
  !m.bind.getLsbD 20 || (s.flag (F.LIO.AREA_BASE.VALID (getF m.bind 21 5)) && !s.areaBusy (getF m.bind 21 5))

/-- Offer a message inline or by reference, freeing its pool space. -/
def State.deliverMsg (s : State) (m : RxMsg) : State :=
  if m.bind.getLsbD 20 then
    let a := getF m.bind 21 5
    let slot := s.get (F.LIO.AREA_QUEUE.NEXT a) % s.areaSlots a
    let addr := 4096 * s.get (F.LIO.AREA_BASE.BASE a) + slot * 64 * 2 ^ s.get (F.LIO.AREA_BASE.SIZE a)
    (s.engineWrite addr m.bytes).offer 9 (s.get (F.LIO.AREA_QUEUE.QUEUE a)) 1 (bindSrc m.b) (leBytes 5 addr ++ leBytes 2 m.bytes.length)
      (.lane m.b (some a))
  else s.offer 9 (getF m.bind 0 13) 1 (bindSrc m.b) m.bytes (.lane m.b none)

/-- R525–R527: the first complete message that can go is delivered, once a transfer tag is free (R25, R526). -/
def execMessageDeliver (s : State) : Host.Outcome State Fault Refusal :=
  .next <|
    if !s.lioRuns || !s.portTagFree then s else
    match s.ready.find? s.canDeliver with
    | none => s
    | some m => ({ s with ready := s.ready.erase m } : State).deliverMsg m

/-- The queue manager's answer to a delivery (R526, R527): NEXT advances, or the message is dropped under QFULL. -/
def State.laneAck (s : State) (b : Nat) (area : Option Nat) (queue : Nat) (ok : Bool) : State :=
  if ok then (match area with | some a => s.bump (F.LIO.AREA_QUEUE.NEXT a) 1 | none => s)
  else s.dropFor b queue 1

/-- The answer to an event element (R547). -/
def State.eventAck (s : State) (ok : Bool) : State := if ok then s else s.bumpSat F.LIO.EV_DROPS.COUNT

/-! ### Enabling (R525, R528, R533, R535) -/

/-- The tests of a receive binding's ENABLE: the error code of a refusal. -/
def State.bindTest (s : State) (b : Nat) (v : Word) (framed : Bool) : Option Nat :=
  let p := s.profile (getF v 14 6)
  let units := (s.claimOf 2 (bindPort b)).units
  if units = 0 then some 0x12
  else if framed && (decide (1024 * units < p.maxlen) || (p.ends == 4 && decide (256 ≤ b))) then some 0x12
  else if v.getLsbD 20 && !s.flag (F.LIO.AREA_BASE.VALID (getF v 21 5)) then some 0x12
  else none

/-- The queue a transmit path consumes while it is enabled. -/
def State.txQueue (s : State) (t : Nat) : Option Nat :=
  let w := if t < 256 then
      (if s.get (F.USBP.PIPE_CFG.DIR (pgUsb (t / 16)) (t / 16 % 4) (t % 16)) = 0 ∧ s.get (F.USBP.PIPE_CFG.TYPE (pgUsb (t / 16)) (t / 16 % 4) (t % 16)) != 0
       then s.reg (bindAddr t) else 0)
    else if t < 304 then s.reg (R.UARTP.UA_TXQ (pgUart (t - 256)) ((t - 256) % 16))
    else if t < 312 then s.reg (R.CANP.CAN_TXQ (t - 304))
    else s.reg (R.USBP.CTLQ (pgUsb (t - 312)) ((t - 312) % 4))
  if w.getLsbD 13 then some (getF w 0 13) else none

/-- Is a queue fit to be a transmit queue of path `t` (R533): of CKIND 2, and named by no other port that uses it? -/
def State.txTest (s : State) (t q : Nat) : Bool :=
  (s.queue q).ckind == 2 && (List.range 328).all (fun u => txPort u == txPort t || s.txQueue u != some q)

/-- Is a USB pipe an OUT pipe of bulk or interrupt type? -/
def State.pipeOut (s : State) (b : Nat) : Bool :=
  let cfg := s.reg (R.USBP.PIPE_CFG (pgUsb (b / 16)) (b / 16 % 4) (b % 16))
  getF cfg 12 2 != 0 && !cfg.getLsbD 11

/-- The speed of a USB pipe: BIND.SPEED, or the port's. -/
def State.pipeSpeed (s : State) (b : Nat) (bind : Word) : Nat :=
  if getF bind 26 2 = 0 then s.get (F.USBP.PORT_STATUS.SPEED (pgUsb (b / 16)) (b / 16 % 4)) else getF bind 26 2

/-- The periodic bandwidth of a port with pipe `b` enabled under `bind` (R535): bytes of a high-speed microframe, and
low-speed bytes counted eightfold among full-speed bytes of a frame, by MPS. -/
def State.periodic (s : State) (b : Nat) (bind : Word) : Nat × Nat :=
  (List.range 16).foldl (fun (acc : Nat × Nat) k =>
    let c := b / 16 * 16 + k
    let w := if c = b then bind else s.reg (bindAddr c)
    let cfg := s.reg (R.USBP.PIPE_CFG (pgUsb (b / 16)) (b / 16 % 4) k)
    if w.getLsbD 13 && getF cfg 12 2 == 2 then
      let m := getF cfg 14 11
      match s.pipeSpeed c w with
      | 3 => (acc.1 + m, acc.2)
      | 1 => (acc.1, acc.2 + 8 * m)
      | _ => (acc.1, acc.2 + m)
    else acc) (0, 0)

/-- The tests of a USB pipe's ENABLE (R525, R533, R535). -/
def State.pipeTest (s : State) (b : Nat) (v : Word) : Option Nat :=
  let type := s.get (F.USBP.PIPE_CFG.TYPE (pgUsb (b / 16)) (b / 16 % 4) (b % 16))
  if type = 3 then some 0x15
  else if type = 2 ∧ (6000 < (s.periodic b v).1 ∨ 1350 < (s.periodic b v).2) then some 0x15
  else if s.pipeOut b && !s.txTest b (getF v 0 13) then some 0x14
  else s.bindTest b v (type != 0)

/-- Write a port's register under R523: refused by a requester that does not hold the port's quota, or with the code of
a failed test; else `go`. -/
def State.ownedWrite (s : State) (r : Requester) (kind i a : Nat) (test : Option Nat) (go : State) : State :=
  match s.ownTest r kind i with
  | some c => s.pageErr (pageBase a) c (a % 4096) r true
  | none => match test with
    | some c => s.pageErr (pageBase a) c (a % 4096) r true
    | none => go

/-- Enabling a pipe resets its toggle and error count and clears HALTED (R538). -/
def State.pipeStart (s : State) (b : Nat) : State :=
  { s.put ⟨bindAddr b, 28, 1⟩ 0 with usbTog := tabSet false s.usbTog b false, usbErr := tabSet 0 s.usbErr b 0 }

/-- Writes on a USB page (R523, R525, R533, R535, R551). -/
def State.wUsb (s : State) (r : Requester) (a : Nat) (v : Word) : Option State :=
  let o := a % 4096 - 0x40
  let j := o / 0x1C0
  let port := 4 * (pageIdx a - 1) + j
  let u := o % 0x1C0
  let row := rowOf .usb (a % 4096)
  let plain := match row with | some w => s.setReg a (maskWrite w (s.reg a) v) | none => s
  some <|
    if u = 0 then
      s.ownedWrite r 2 port a none (if v.getLsbD 1 then plain.put (F.USBP.PORT_STATUS.ENABLED (pageBase a) j) 0 else plain)
    else if u = 0x10 then
      s.ownedWrite r 2 port a (if v.getLsbD 13 && !s.txTest (312 + port) (getF v 0 13) then some 0x14 else none) plain
    else
      let b := 16 * port + (u - 0x40) / 0x18
      if (u - 0x40) % 0x18 = 0 then
        s.ownedWrite r 2 port a (if getF v 14 11 < 8 ∨ 1024 < getF v 14 11 ∨ 10 < getF v 25 4 then some 0x13 else none) plain
      else
        let was := s.flag ⟨a, 13, 1⟩
        s.ownedWrite r 2 port a (if v.getLsbD 13 then s.pipeTest b v else none)
          (if v.getLsbD 13 && !was then plain.pipeStart b else plain)

/-- Writes on a UART page (R523, R525, R533, R539, R540). -/
def State.wUart (s : State) (r : Requester) (a : Nat) (v : Word) : Option State :=
  let o := a % 4096 - 0x40
  let u := 16 * (pageIdx a - 5) + o / 0x40
  let plain := match rowOf .uart (a % 4096) with | some w => s.setReg a (maskWrite w (s.reg a) v) | none => s
  let test :=
    match o % 0x40 with
    | 0x00 => if getF v 0 24 < 64 ∨ 16000000 < getF v 0 24 ∨ getF v 26 2 = 3 then some 0x13 else none
    | 0x08 => if v.getLsbD 0 && v.getLsbD 1 then some 0x13 else none
    | 0x10 => if v.getLsbD 13 then s.bindTest (256 + u) v true else none
    | 0x18 => if v.getLsbD 13 && !s.txTest (256 + u) (getF v 0 13) then some 0x14 else none
    | _ => none
  some (s.ownedWrite r 2 (16 + u) a test plain)

/-- A change of a CAN controller's error state (R543). -/
def State.canState (s : State) (c st : Nat) : State :=
  if s.get (F.CANP.CAN_STATUS.STATE c) = st then s
  else
    let s1 := (s.put (F.CANP.CAN_STATUS.STATE c) st).pageInt pgCAN 1
    if st = 2 then s1.event 0x1003 0x10 3 c (s1.get (F.CANP.CAN_STATUS.TEC c)) 0 else s1

/-- A controller joins the bus with its error counters at zero. -/
def State.canJoin (s : State) (c : Nat) : State :=
  ((s.put (F.CANP.CAN_STATUS.TEC c) 0).put (F.CANP.CAN_STATUS.REC c) 0).canState c 0

/-- Writes on the CAN page (R523, R525, R533, R543). -/
def State.wCan (s : State) (r : Requester) (a : Nat) (v : Word) : Option State :=
  let o := a % 4096 - 0x40
  let c := o / 0xF0
  let u := o % 0xF0
  let plain := match rowOf .can (a % 4096) with | some w => s.setReg a (maskWrite w (s.reg a) v) | none => s
  some <|
    if u = 0 then
      s.ownedWrite r 2 (64 + c) a none (if v.getLsbD 0 && !s.flag (F.CANP.CAN_CFG.ENABLE c) then plain.canJoin c else plain)
    else if u = 0x18 then
      s.ownedWrite r 2 (64 + c) a (if v.getLsbD 13 && !s.txTest (304 + c) (getF v 0 13) then some 0x14 else none) plain
    else if 0x30 ≤ u ∧ (u - 0x30) % 0x18 = 0x10 then
      s.ownedWrite r 2 (64 + c) a (if v.getLsbD 13 then s.bindTest (304 + 8 * c + (u - 0x30) / 0x18) v false else none) plain
    else s.ownedWrite r 2 (64 + c) a none plain

/-- Does an area lie wholly in assigned DRAM (R528)? -/
def State.areaFits (s : State) (a : Nat) (v : Word) : Bool := s.inDram (4096 * getF v 12 28) (s.areaSlots a * 64 * 2 ^ getF v 0 3)

/-- Writes on the control page (R528). While VALID is 1, a write may clear VALID and changes no other field. DEDUCED, log 31. -/
def State.wLio (s : State) (r : Requester) (a : Nat) (v : Word) : Option State :=
  let off := a % 4096
  if 0x100 ≤ off ∧ off < 0x300 then
    let i := (off - 0x100) / 0x10
    let err := fun c => s.pageErr pgLIO c off r true
    let plain := s.plainWrite .lio a v
    some <|
      if (off - 0x100) % 0x10 = 0 then
        if s.flag (F.LIO.AREA_BASE.VALID i) then
          (if (v ^^^ s.reg a) &&& 0xFFFFFFF007 == 0 then s else err 0x13).put (F.LIO.AREA_BASE.VALID i) (b2n (v.getLsbD 3))
        else if 6 < getF v 0 3 then err 0x13
        else if v.getLsbD 3 && !s.areaFits i v then err 0x12
        else plain
      else if s.flag (F.LIO.AREA_BASE.VALID i) && getF v 0 13 != s.get (F.LIO.AREA_QUEUE.QUEUE i) then err 0x13
      else plain
  else none

/-- Is a profile in range and consistent (R529)? -/
def Prof.ok (p : Prof) : Bool :=
  decide (p.ends ≤ 4) && decide (getF p.frame 3 3 ≤ 4) && decide (p.nsuf ≤ 4) && decide (p.lsize ≤ 2) && decide (p.kind ≤ 9) &&
    decide (1 ≤ p.maxlen) && decide (p.maxlen ≤ 4096) && !(p.ends == 0 && p.lsize == 0) && !(p.ends == 1 && p.nsuf == 0) &&
    !(p.ends == 2 && p.ito == 0)

/-- Writes on a profile page (R529). -/
def State.wProf (s : State) (r : Requester) (a : Nat) (v : Word) : Option State :=
  let off := a % 4096
  let p := 16 * (pageIdx a - 11) + (off - 0x40) / 0x40
  let cur := s.profile p
  let plain := match rowOf .prof off with | some w => s.setReg a (maskWrite w (s.reg a) v) | none => s
  let err := fun c => s.pageErr (pageBase a) c off r true
  some <|
    if (off - 0x40) % 0x40 = 0 then
      if cur.valid && v.getLsbD 24 then err 0x16
      else if v.getLsbD 24 && !({ cur with frame := v } : Prof).ok then err 0x13
      else plain
    else if cur.valid then err 0x16
    else plain

/-! ### Transmitting (R532, R533) -/

/-- A frame goes out on a path. -/
def State.sendOut (s : State) (t : Nat) (f : List Byte) : State :=
  { s with wire := tabIns s.wire t f, txHeld := tabDel s.txHeld t }

/-- The message bytes of a transmit element, or none when it is to be discarded (R533). -/
def State.txBytes (s : State) (e : List Byte) : Option (List Byte) :=
  let pl := e.drop 8
  if elType e = 0x40 then (if 1 ≤ elLen e ∧ elLen e ≤ 56 then some (pl.take (elLen e)) else none)
  else if elType e = 0x41 then
    let addr := leVal (pl.take 5)
    let n := leVal ((pl.drop 5).take 2)
    if 1 ≤ n ∧ n ≤ 4096 ∧ s.inDram addr n ∧
        (List.range ((addr + n - 1) / 4096 - addr / 4096 + 1)).all (fun i => (s.keyByte (addr / 4096 + i)).toNat % 16 == s.get F.LIO.CFG.TX_KEY)
    then some (s.bytes addr n) else none
  else none

/-- A CAN frame from its payload (R542), or none when CAN FD does not allow it. -/
def canOf (fd : Bool) (m : List Byte) : Option CanFrame :=
  let w := BitVec.ofNat 32 (leVal (m.take 4))
  let l := (m.getD 4 0).extractLsb' 0 7
  let rtr := (m.getD 5 0).getLsbD 0
  let f : CanFrame := { id := w.extractLsb' 0 29, ide := w.getLsbD 29, fdf := w.getLsbD 30, brs := w.getLsbD 31, esi := (m.getD 4 0).getLsbD 7
                        rtr := rtr, len := l, data := m.drop 8 }
  let okLen := l.toNat ≤ 8 || (w.getLsbD 30 && [12, 16, 20, 24, 32, 48, 64].contains l.toNat)
  if 8 ≤ m.length && okLen && (fd || !f.fdf) && !(rtr && f.fdf) && f.data.length == (if rtr then 0 else l.toNat) then some f else none

/-- The payload of a CAN frame (R542). -/
def canPayload (f : CanFrame) : List Byte :=
  leBytes 4 (f.id.toNat + 2 ^ 29 * b2n f.ide + 2 ^ 30 * b2n f.fdf + 2 ^ 31 * b2n f.brs) ++
    leBytes 1 (f.len.toNat + 128 * b2n f.esi) ++ leBytes 1 (b2n f.rtr) ++ [0, 0] ++ (if f.rtr then [] else f.data)

/-- The frame a path sends for a message: framed by its profile, or as it is on CAN; none when it is discarded. -/
def State.framed (s : State) (t : Nat) (m : List Byte) : Option (List Byte) :=
  if t < 256 then (s.profile (getF (s.reg (bindAddr t)) 14 6)).frameOut m
  else if t < 304 then (s.profile (getF (s.reg (R.UARTP.UA_TXQ (pgUart (t - 256)) ((t - 256) % 16))) 14 6)).frameOut m
  else (canOf (s.flag (F.CANP.CAN_CFG.FD (t - 304))) m).map (fun _ => m)

/-- Is the path's profile in use? CAN has none. -/
def State.txProfile (s : State) (t : Nat) : Bool :=
  if t < 256 then (s.profile (getF (s.reg (bindAddr t)) 14 6)).valid
  else if t < 304 then (s.profile (getF (s.reg (R.UARTP.UA_TXQ (pgUart (t - 256)) ((t - 256) % 16))) 14 6)).valid
  else true

/-- May a controller transmit (R541)? -/
def State.canSends (s : State) (t : Nat) : Bool := decide (t < 304) || !s.flag (F.CANP.CAN_CFG.LISTEN (t - 304))

/-- The payload of a control request element. -/
def ctlBody (e : List Byte) : List Byte := (e.drop 8).take (elLen e)

/-- Does an element hold a request for an enabled control pipe of the port (R537)? -/
def State.ctlGood (s : State) (port : Nat) (e : List Byte) : Bool :=
  let pl := ctlBody e
  let pipe := (pl.getD 0 0).toNat
  let setup := (pl.drop 1).take 8
  let wlen := if (setup.getD 0 0).getLsbD 7 then 0 else leVal (setup.drop 6)
  elType e == 0x42 && decide (pipe < 16) && s.flag ⟨bindAddr (16 * port + pipe), 13, 1⟩ &&
    s.get (F.USBP.PIPE_CFG.TYPE (pgUsb port) (port % 4) pipe) == 0 && pl.length == 9 + wlen && decide (pl.length ≤ 56)

/-- What path `t` sends for an element: its frame, or a control request's bytes (paths 312 to 327); none when the element is to
be discarded (R533, R537). -/
def State.txFrame (s : State) (t : Nat) (e : List Byte) : Option (List Byte) :=
  if t < 312 then (s.txBytes e).bind (s.framed t) else if s.ctlGood (t - 312) e then some ((ctlBody e).drop 1) else none

/-- Has the quota of the path's port room for all that an element sends (R533)? An element to be discarded needs none. -/
def State.txFits (s : State) (t : Nat) (e : List Byte) : Bool :=
  match s.txFrame t e with
  | some f => decide (s.usedBytes (txPort t) + poolSize f.length ≤ s.quotaBytes (txPort t))
  | none => true

/-- Is path `t` ready for its next element: its port runs, it holds none, and a transfer tag is free? -/
def State.txOpen (s : State) (t : Nat) : Bool :=
  s.portRuns (txPort t) && s.portTagFree &&
    (if t < 312 then s.txProfile t && s.canSends t && tabGet [] s.txHeld t == [] else tabGet [] s.ctlReq (t - 312) == [])

/-- Can lane I/O take the head of a queue now, for some path that names it? -/
def State.laneServes (s : State) (q : Nat) : Bool :=
  (List.range 328).any (fun t => s.txQueue t == some q && s.txOpen t &&
    (match (s.hwHead q).1 with
     | some e => s.txFits t e
     | none => false))

/-- The next element of path `t`, taken when the quota has room and the choice among lane I/O's queues falls on its queue
(R424, R427, R533): what the path sends, and the state. A bad one is discarded. -/
def State.pathTake (s : State) (t : Nat) : Option (List Byte × List Byte) × State :=
  match s.txQueue t with
  | none => (none, s)
  | some q =>
    if !s.txOpen t then (none, s)
    else match s.hwHead q with
      | (none, s1) => (none, s1)
      | (some e, s1) =>
        if !s1.txFits t e || s1.chosenQueue 2 s1.laneServes != some q then (none, s1)
        else match s1.txFrame t e with
          | none => (none, (s1.hwTake q).txDrop t q)
          | some f => (some (e, f), s1.hwTake q)

/-- The path takes its next element and holds its frame. -/
def State.txTake (s : State) (t : Nat) : State :=
  match s.pathTake t with
  | (some (_, f), s1) => ({ s1 with txHeld := tabIns s1.txHeld t f } : State).poolLow
  | (none, s1) => s1

/-- A UART sends the frame it holds unless CTS stops it (R540). -/
def State.uartGo (s : State) (u : Nat) : State :=
  let f := tabGet [] s.txHeld (256 + u)
  let p := pgUart u
  if f = [] then s
  else if s.flag (F.UARTP.UA_MODE.RTSCTS p (u % 16)) && !s.flag (F.UARTP.UA_STATUS.CTS p (u % 16)) then s.put (F.UARTP.UA_STATUS.TXBUSY p (u % 16)) 1
  else (s.sendOut (256 + u) f).put (F.UARTP.UA_STATUS.TXBUSY p (u % 16)) 0

/-- UAn_RTS, asserted or not, where the port drives it (R540): flow control by the free quota, or the driver enable. -/
def State.rtsOut (s : State) (u : Nat) : Option Bool :=
  let p := pgUart u
  if s.flag (F.UARTP.UA_MODE.RTSCTS p (u % 16)) then
    some (decide (2 * (s.profile (s.get (F.UARTP.UA_BIND.PROFILE p (u % 16)))).maxlen ≤ s.quotaBytes (16 + u) - s.usedBytes (16 + u)))
  else if s.flag (F.UARTP.UA_MODE.RS485 p (u % 16)) then some (s.flag (F.UARTP.UA_STATUS.TXBUSY p (u % 16)))
  else none

/-- A halt of a USB pipe (R538). The frame an OUT pipe was sending is discarded. -/
def State.haltPipe (s : State) (b : Nat) (cause : Option Nat) : State :=
  let bind := s.reg (bindAddr b)
  let s1 := s.setReg (bindAddr b) (putF (putF bind 28 1 1) 13 1 0)
  let s2 := if (s1.framer b).phase = 0 then s1 else (s1.kill b 4).toHunt b
  let s3 := if tabGet [] s2.txHeld b = [] then s2 else ({ s2 with txHeld := tabDel s2.txHeld b } : State).txDrop b (getF bind 0 13)
  match cause with
  | some c => (s3.pageInt (pgUsb (b / 16)) 2).event 0x1002 0x10 1 (b / 16) (b % 16) c
  | none => s3

/-- A transaction error on a pipe: the third in a row halts it. -/
def State.usbError (s : State) (b : Nat) : State :=
  let n := tabGet 0 s.usbErr b + 1
  let s1 := { s with usbErr := tabSet 0 s.usbErr b n }
  if 3 ≤ n then s1.haltPipe b (some 1) else s1

/-- Transactions of `n` packets succeed: the toggle changes with each, and the error count starts over. -/
def State.usbGood (s : State) (b n : Nat) : State :=
  { s with usbErr := tabSet 0 s.usbErr b 0, usbTog := tabSet false s.usbTog b (tabGet false s.usbTog b != (n % 2 == 1)) }

/-- Packets of a transfer, which ends with a short or zero-length one (R536). -/
def State.packets (s : State) (b len : Nat) : Nat :=
  len / getF (s.reg (R.USBP.PIPE_CFG (pgUsb (b / 16)) (b / 16 % 4) (b % 16))) 14 11 + 1

/-- R533: a path takes its next transmit element and sends its frame. -/
def execTxElement (t : Fin 312) (how : UsbOut) (s : State) : Host.Outcome State Fault Refusal :=
  .next <|
    let s1 := s.txTake t
    let f := tabGet [] s1.txHeld t
    if f = [] || !s1.portRuns (txPort t) then s1
    else if t.val < 256 then
      match how with
      | .done => (s1.sendOut t f).usbGood t (s1.packets t f.length)
      | .stall => s1.haltPipe t (some 0)
      | .error => s1.usbError t
    else if t.val < 304 then s1.uartGo (t - 256)
    else s1

/-- R540: CTS changes; a frame that waits for it goes on. -/
def execCtsChange (u : Fin 48) (lvl : Bool) (s : State) : Host.Outcome State Fault Refusal :=
  .next <|
    let s1 := s.put (F.UARTP.UA_STATUS.CTS (pgUart u) (u % 16)) (b2n lvl)
    if s1.portRuns (16 + u) then s1.uartGo u else s1

/-! ### USB (R534–R538) -/

/-- R535: the bus reset ends. -/
def execPortResetDone (p : Fin 16) (speed : BitVec 2) (s : State) : Host.Outcome State Fault Refusal :=
  .next <|
    let g := pgUsb p
    let j := p.val % 4
    if s.flag (F.USBP.PORT_CTRL.RESET g j) then
      let on := s.flag (F.USBP.PORT_STATUS.CONNECT g j) && speed != 0
      (((s.put (F.USBP.PORT_CTRL.RESET g j) 0).put (F.USBP.PORT_STATUS.ENABLED g j) (b2n on))).put (F.USBP.PORT_STATUS.SPEED g j) (if on then speed.toNat else 0)
    else s

/-- R536: a poll of an enabled IN pipe, while the free quota is at least MPS, so that no packet is dropped for want of quota.
DEDUCED, log 60. -/
def execUsbPoll (p k : Fin 16) (how : UsbIn) (s : State) : Host.Outcome State Fault Refusal :=
  .next <|
    let b := 16 * p.val + k.val
    let cfg := s.reg (R.USBP.PIPE_CFG (pgUsb p) (p % 4) k)
    let type := getF cfg 12 2
    let room := decide (s.usedBytes p + getF cfg 14 11 ≤ s.quotaBytes p)
    if s.portRuns p && s.flag ⟨bindAddr b, 13, 1⟩ && cfg.getLsbD 11 && room && (type == 1 || type == 2) then
      match how with
      | .nak => s
      | .stall => s.haltPipe b (some 0)
      | .error => s.usbError b
      | .data bs short => (s.usbGood b 1).rx b (bs.take (getF cfg 14 11)) (if short then .packet else .more)
    else s

/-- A control request completes (R537): PIPE, STATUS and the IN data go to the pipe's binding. -/
def State.ctlDone (s : State) (port pipe st : Nat) (data : List Byte) : State :=
  let b := 16 * port + pipe
  let bind := s.reg (bindAddr b)
  let s1 := { s with ctlReq := tabDel s.ctlReq port }
  let bytes := leBytes 1 pipe ++ leBytes 1 st ++ data
  if !bind.getLsbD 20 && decide (46 < data.length) then s1.dropMsg b bind 4
  else if s1.quotaBytes port < s1.usedBytes port + poolSize bytes.length then s1.dropMsg b bind 2
  else (s1.complete b bind bytes (poolSize bytes.length)).poolLow

/-- The port takes its next control request (R537); one that names no enabled control pipe is discarded. -/
def State.ctlTake (s : State) (port : Nat) : State :=
  match s.pathTake (312 + port) with
  | (some (e, _), s1) => ({ s1 with ctlReq := tabIns s1.ctlReq port (ctlBody e) } : State).poolLow
  | (none, s1) => s1

/-- R537: a control request is carried out. -/
def execControlRequest (p : Fin 16) (how : CtlOut) (s : State) : Host.Outcome State Fault Refusal :=
  .next <|
    let s1 := s.ctlTake p
    let pl := tabGet [] s1.ctlReq p
    let pipe := (pl.getD 0 0).toNat
    if pl = [] || !s1.portRuns p then s1
    else match how with
      | .pending => s1
      | .error => s1.ctlDone p pipe 2 []
      | .stall => s1.ctlDone p pipe 1 []
      | .ok d => ({ s1 with wire := tabIns s1.wire (312 + p.val) pl } : State).ctlDone p pipe 0
          (if (pl.getD 1 0).getLsbD 7 then d.take (leVal ((pl.drop 7).take 2)) else [])

/-- R538: a device disconnects. -/
def execUsbDisconnect (p : Fin 16) (s : State) : Host.Outcome State Fault Refusal :=
  .next <|
    let g := pgUsb p
    let j := p.val % 4
    let s1 := ((s.put (F.USBP.PORT_STATUS.CONNECT g j) 0).put (F.USBP.PORT_STATUS.ENABLED g j) 0).put (F.USBP.PORT_STATUS.SPEED g j) 0
    let pl := tabGet [] s1.ctlReq p
    let s2 := if pl = [] then s1 else s1.ctlDone p (pl.getD 0 0).toNat 3 []
    let s3 := (List.range 16).foldl (fun (s : State) k =>
      let b := 16 * p.val + k
      if s.flag ⟨bindAddr b, 13, 1⟩ then s.haltPipe b (some 1) else s) s2
    s3.pageInt g 1

/-- R551: a device attaches. -/
def execUsbConnect (p : Fin 16) (s : State) : Host.Outcome State Fault Refusal :=
  .next (if s.live pgLIO && s.refClk 3 then s.put (F.USBP.PORT_STATUS.CONNECT (pgUsb p) (p % 4)) 1 else s)

/-! ### CAN FD (R541–R543) -/

/-- The error state of counters (ISO 11898-1): passive above 127. PRESUMED, log 62. -/
def State.canErrState (s : State) (c : Nat) : State :=
  s.canState c (if 127 < s.get (F.CANP.CAN_STATUS.TEC c) ∨ 127 < s.get (F.CANP.CAN_STATUS.REC c) then 1 else 0)

/-- A receive error adds to REC, which stops at 255; a good frame takes one off, or brings it to 127 from above. -/
def State.canRec (s : State) (c : Nat) (n : Option Nat) : State :=
  let v := s.get (F.CANP.CAN_STATUS.REC c)
  let v1 := match n with
    | some k => min (v + k) 255
    | none => if 127 < v then 127 else v - 1
  (s.put (F.CANP.CAN_STATUS.REC c) v1).canErrState c

/-- R542: a frame is received, or a reception error counted. -/
def execCanRxFrame (k : Fin 8) (how : CanRx) (s : State) : Host.Outcome State Fault Refusal :=
  .next <|
    if !s.portRuns (64 + k) then s
    else match how with
      | .error by8 => s.canRec k (some (if by8 then 8 else 1))
      | .frame f =>
        if f.fdf && !s.flag (F.CANP.CAN_CFG.FD k) then s
        else
          let s1 := s.canRec k none
          let hit := (List.range 8).find? (fun i =>
            s1.flag (F.CANP.FILT_ID.VALID k i) && s1.get (F.CANP.FILT_ID.IDE k i) == b2n f.ide &&
              ((f.id ^^^ BitVec.ofNat 29 (s1.get (F.CANP.FILT_ID.ID k i))) &&& BitVec.ofNat 29 (s1.get (F.CANP.FILT_MASK.MASK k i))) == 0)
          match hit with
          | none => s1
          | some i =>
            let b := 304 + 8 * k.val + i
            let bind := s1.reg (bindAddr b)
            let m := canPayload f
            if !bind.getLsbD 13 then s1
            else if s1.quotaBytes (64 + k) < s1.usedBytes (64 + k) + poolSize m.length then s1.dropMsg b bind 2
            else (s1.complete b bind m (poolSize m.length)).poolLow

/-- R542, R543: the controller sends the frame it holds, or takes the next one first. -/
def execCanTxFrame (k : Fin 8) (how : CanTx) (s : State) : Host.Outcome State Fault Refusal :=
  .next <|
    let s1 := s.txTake (304 + k)
    let f := tabGet [] s1.txHeld (304 + k)
    let tec := s1.get (F.CANP.CAN_STATUS.TEC k)
    if f = [] || !s1.portRuns (64 + k) then s1
    else match how with
      | .lost => s1
      | .sent => ((s1.sendOut (304 + k) f).put (F.CANP.CAN_STATUS.TEC k) (tec - 1)).canErrState k
      | .error =>
        if 255 < tec + 8 then
          let (i, s2) := s1.draw
          (s2.put (F.CANP.CAN_STATUS.TEC k) (Config.freeNat i)).canState k 2
        else (s1.put (F.CANP.CAN_STATUS.TEC k) (tec + 8)).canErrState k

/-- R543: with AUTO set, the controller leaves bus-off. -/
def execBusOffRecovery (k : Fin 8) (s : State) : Host.Outcome State Fault Refusal :=
  .next (if s.lioRuns && s.flag (F.CANP.CAN_CFG.ENABLE k) && s.flag (F.CANP.CAN_CFG.AUTO k) && s.get (F.CANP.CAN_STATUS.STATE k) == 2 then s.canJoin k else s)

/-! ### General I/O lines (R544–R546) -/

/-- An event element (R547): the cause and the captured count. -/
def State.eventElement (s : State) (queue src cause count : Nat) : State :=
  s.offer 9 queue 1 src (leBytes 4 s.tbNs ++ leBytes 6 s.tbSec ++ leBytes 1 cause ++ leBytes 5 count) .event

/-- Does a level condition hold? -/
def levelHolds (cond : Nat) (lvl : Bool) : Bool := (cond == 1 && lvl) || (cond == 2 && !lvl)

/-- The level of a line's input changes (R546). -/
def State.lineLevel (s : State) (n : Nat) (lvl : Bool) : State :=
  let old := s.flag (F.GPIO.GP.IN n)
  let cond := s.get (F.GPIO.GP.COND n)
  let s1 := s.put (F.GPIO.GP.IN n) (b2n lvl)
  let arises := old != lvl &&
    (levelHolds cond lvl || (cond == 3 && lvl) || (cond == 4 && !lvl) || cond == 5)
  if arises || levelHolds cond lvl then
    let s2 := s1.put (F.GPIO.GP.FLAG n) 1
    if arises && s2.flag (F.GPIO.GP.EVEN n) then s2.eventElement (s2.get (F.GPIO.GP.EVQUEUE n)) (0x1300 + n) cond 0 else s2
  else s1

/-- Is a bank's supply out of range? -/
def State.bankFault (s : State) (n : Nat) : Bool := s.flag (F.GPIO.GP_BANK.FAULT (n / 16))

/-- Writes on the general I/O page (R523, R545). The weigh engine alone sets FUNC 6. -/
def State.wGpio (s : State) (r : Requester) (a : Nat) (v : Word) : Option State :=
  let off := a % 4096
  if 0x40 ≤ off ∧ off < 0x640 then
    let n := (off - 0x40) / 8
    let plain := s.plainWrite .gpio a v
    let s1 := if s.bankFault n then plain.put (F.GPIO.GP.FUNC n) 0 else plain
    let s2 := if levelHolds (s1.get (F.GPIO.GP.COND n)) (s1.flag (F.GPIO.GP.IN n)) && s1.get (F.GPIO.GP.FUNC n) != 0 then s1.put (F.GPIO.GP.FLAG n) 1 else s1
    some (s.ownedWrite r 0 n a (if 6 ≤ getF v 0 3 ∨ 6 ≤ getF v 5 3 ∨ getF v 14 2 = 3 then some 0x13 else none) s2)
  else none

/-- R544: a bank's supply is out of range. -/
def execBankSupplyFault (k : Fin 12) (s : State) : Host.Outcome State Fault Refusal :=
  .next <|
    let s1 := (List.range 16).foldl (fun (s : State) i => s.put (F.GPIO.GP.FUNC (16 * k + i)) 0) (s.put (F.GPIO.GP_BANK.FAULT k) 1)
    (s1.pageInt pgGPIO 1).event 0x1005 0x10 3 k 0 0

/-! ### Timers (R547) -/

/-- May a timer start (R547)? -/
def State.timerOk (s : State) (t : Nat) (v : Word) : Bool :=
  let mode := getF v 0 3
  let line := getF v 3 8
  let mine := s.claimOf 1 t
  let o := s.claimOf 0 line
  let owned := mine.held && o.held && o.owner == mine.owner
  if 4 ≤ mode then v.getLsbD 11 && owned && s.get (F.GPIO.GP.FUNC line) == 5
  else !v.getLsbD 11 || (owned && s.get (F.GPIO.GP.FUNC line) == 4)

/-- A timer starts or restarts from 0. -/
def State.timerGo (s : State) (t : Nat) : State :=
  let mode := s.get (F.TIMER.TM_CFG.MODE t)
  { s.put (F.TIMER.TM_CFG.GO t) 1 with
    tmOut := if mode = 1 then s.tmOut ||| (1#64 <<< t) else s.tmOut &&& ~~~(1#64 <<< t), tmAt := tabSet 0 s.tmAt t s.ticks }

/-- A timer's output before POL (R547): in PWM mode, active while the count, one per tick, is below MATCH. -/
def State.timerOut (s : State) (t : Nat) : Bool :=
  if s.get (F.TIMER.TM_CFG.MODE t) = 3 then
    s.flag (F.TIMER.TM_CFG.GO t) && decide (s.ticks - tabGet 0 s.tmAt t < s.get (F.TIMER.TM_MATCH.COUNT t))
  else s.tmOut.getLsbD t

/-- Writes on the timer page (R523, R547, R552). -/
def State.wTimer (s : State) (r : Requester) (a : Nat) (v : Word) : Option State :=
  let off := a % 4096
  if 0x40 ≤ off ∧ off < 0x640 then
    let t := (off - 0x40) / 0x18
    let u := (off - 0x40) % 0x18
    let plain := s.plainWrite .timer a v
    let capt := decide (4 ≤ s.get (F.TIMER.TM_CFG.MODE t))
    some <|
      if u = 0 then
        let mode := getF v 0 3
        let running := s.flag (F.TIMER.TM_CFG.GO t)
        let s1 := plain.put (F.TIMER.TM_CFG.GO t) (b2n running)
        s.ownedWrite r 1 t a (if mode = 7 ∨ 192 ≤ getF v 3 8 then some 0x13 else if v.getLsbD 14 && mode != 0 && !s.timerOk t v then some 0x12 else none)
          (if mode = 0 then s1.stopTimer t else if v.getLsbD 14 then s1.timerGo t else s1)
      else if u = 8 then s.ownedWrite r 1 t a (if v = 0 then some 0x13 else none) plain
      else s.ownedWrite r 1 t a none (if capt then s else plain)
  else none

/-- A timer's flag sets, with an event element if enabled. -/
def State.timerEvent (s : State) (t cause count : Nat) : State :=
  let s1 := s.timerFlag t 1
  if s1.flag (F.TIMER.TM_CFG.EVEN t) then s1.eventElement (s1.get (F.TIMER.TM_CFG.EVQUEUE t)) (0x1400 + t) cause count else s1

/-- R547: a timer reaches PERIOD. -/
def execTimerWrap (t : Fin 64) (s : State) : Host.Outcome State Fault Refusal :=
  .next <|
    if !s.lioRuns || !s.flag (F.TIMER.TM_CFG.GO t) then s
    else match s.get (F.TIMER.TM_CFG.MODE t) with
      | 1 => (s.stopTimer t).timerEvent t 1 0
      | 2 => ({ s with tmOut := s.tmOut ^^^ (1#64 <<< t.val) } : State).timerEvent t 1 0
      | 3 => (s.timerGo t).timerEvent t 1 0
      | _ => s

/-- R547: an edge on the timer's line captures the count. DEDUCED, log 65. -/
def execTimerCapture (t : Fin 64) (rising : Bool) (count : Word) (s : State) : Host.Outcome State Fault Refusal :=
  .next <|
    let mode := s.get (F.TIMER.TM_CFG.MODE t)
    if s.lioRuns && s.flag (F.TIMER.TM_CFG.GO t) && ((mode == 4 && rising) || (mode == 5 && !rising) || mode == 6) then
      (s.put (F.TIMER.TM_MATCH.COUNT t) count.toNat).timerEvent t 2 count.toNat
    else s

/-- The level of a line as the device drives it, where it does (R545, R547): outputs and timer outputs. -/
def State.lineDriven (s : State) (n : Nat) : Option Bool :=
  match s.get (F.GPIO.GP.FUNC n) with
  | 2 => some (s.flag (F.GPIO.GP.OUT n))
  | 3 => if s.flag (F.GPIO.GP.OUT n) then none else some false
  | 4 =>
    (List.range 64).findSome? (fun t =>
      if s.flag (F.TIMER.TM_CFG.LVALID t) && s.get (F.TIMER.TM_CFG.LINE t) == n && s.get (F.TIMER.TM_CFG.MODE t) != 0
      then some (s.timerOut t != s.flag (F.TIMER.TM_CFG.POL t)) else none)
  | _ => none

/-! ### Restart (R549) -/

/-- Lane I/O's work in progress at a block restart: messages in assembly discarded, frames aborted and counted, timers stopped,
USB pipes halted and ports waiting for a new reset. A message complete by then is kept. DEDUCED, log 61. -/
def State.lioRestart (s : State) : State :=
  let s1 := (s.txHeld.map (fun p => p.1) ++ s.ctlReq.map (fun p => 312 + p.1) : List Nat).foldl
    (fun (s : State) t => s.put ⟨txStats t, 32, 8⟩ (s.get ⟨txStats t, 32, 8⟩ + 1)) s
  let s2 := { s1 with framers := [], txHeld := [], ctlReq := [], usbErr := [], usbTog := [] }
  let s3 := (List.range 64).foldl (fun (s : State) t => s.stopTimer t) s2
  (List.range 16).foldl (fun (s : State) p =>
    let s1 := (List.range 16).foldl (fun (s : State) k =>
      let b := 16 * p + k
      if s.flag ⟨bindAddr b, 13, 1⟩ then s.setReg (bindAddr b) (putF (putF (s.reg (bindAddr b)) 28 1 1) 13 1 0) else s) s
    s1.put (F.USBP.PORT_STATUS.ENABLED (pgUsb p) (p % 4)) 0) s3

end Sys2Proof.Machine
end

