-- ==== Sys2Proof/Machine/Weigh.lean ====
section
/-! DEFINITION. The weigh engine (R478–R516): filters, weights, zero and tare, checks, elements, the metrology seal and
the filter governor. -/

namespace Sys2Proof.Machine

/-- A channel. -/
def State.wc (s : State) (ch : Nat) : Weigh := tabGet Weigh.init s.weigh ch

/-- Replace a channel. -/
def State.setWc (s : State) (ch : Nat) (w : Weigh) : State := { s with weigh := tabSet Weigh.init s.weigh ch w }

/-- Change a channel. -/
def State.modWc (s : State) (ch : Nat) (f : Weigh → Weigh) : State := s.setWc ch (f (s.wc ch))

/-- Does the engine run? -/
def State.wghRuns (s : State) : Bool := s.live pgWGH && s.enabled pgWGH

/-- CH_STATUS.STATE (R485). -/
def State.chState (s : State) (ch : Nat) : Nat := s.get (F.CH.CH_STATUS.STATE (pgCh ch))
def State.setChState (s : State) (ch st : Nat) : State := s.put (F.CH.CH_STATUS.STATE (pgCh ch)) st

/-- A signed 40-bit register. -/
def State.sreg (s : State) (a : Nat) : Int := (s.reg a).toInt

/-- Saturate to 40 bits. -/
def sat40 (v : Int) : Int := if v < -(2 ^ 39 : Nat) then -(2 ^ 39 : Nat) else if ((2 ^ 39 - 1 : Nat) : Int) < v then ((2 ^ 39 - 1 : Nat) : Int) else v

/-- At an end of the 40-bit range (R484)? -/
def atEnd40 (v : Int) : Bool := v == -(2 ^ 39 : Nat) || v == ((2 ^ 39 - 1 : Nat) : Int)

/-- A decimal register's value (R53); an unstated value where a digit is above 9. DESIGN CHOICE, log 25. -/
def State.decReg (s : State) (a : Nat) : Int × State :=
  let v := (s.reg a).toNat
  if bcdOk 10 v then (decVal 10 v, s) else let (i, s1) := s.draw; ((Config.freeWord i).toInt, s1)

/-- A value as a decimal register (R53). -/
def decWord (v : Int) : Nat := decOf 10 v

/-! ### The sealed set (R501, R503, R515) -/

/-- Offset of a sealed register. -/
def sealedOff (i : Nat) : Nat := if i = 8 then 0x150 else 0x100 + 8 * i

/-- The committed sealed set. -/
def State.committed (s : State) (ch : Nat) : Sealed :=
  { regs := Vector.ofFn (fun i : Fin 9 => s.reg (pgCh ch + sealedOff i)), taps := (s.wc ch).taps }

/-- The staging copy, equal to the committed set until it is written. -/
def State.stagedSet (s : State) (ch : Nat) : Sealed := (s.wc ch).staged.getD (s.committed ch)

/-- Put a staging copy in place; STAGED follows (R503). -/
def State.setStaged (s : State) (ch : Nat) (x : Sealed) : State :=
  (s.modWc ch (fun w => { w with staged := some x })).put (F.CH.SEAL_STATUS.STAGED (pgCh ch)) (b2n (x != s.committed ch))

/-- The staging copy is discarded. -/
def State.unstage (s : State) (ch : Nat) : State :=
  (s.modWc ch (fun w => { w with staged := none })).put (F.CH.SEAL_STATUS.STAGED (pgCh ch)) 0

/-- The bytes of a sealed set for CHECKSUM (R507). -/
def Sealed.bytes (x : Sealed) : List Byte :=
  (x.regs.toList.map (fun w => leBytes 5 w.toNat)).flatten ++ (x.taps.toList.map (fun c => leBytes 3 c.toNat)).flatten

/-- CHECKSUM (R507). -/
def Sealed.crc (x : Sealed) : Nat := crc32 x.bytes

def Sealed.line (x : Sealed) : Word := x.regs[0]
def Sealed.span (x : Sealed) : Nat := x.regs[2].toNat
def Sealed.max (x : Sealed) (i : Fin 3) : Nat := getF x.regs[3 + i.val] 0 24
def Sealed.e (x : Sealed) (i : Fin 3) : Nat := getF x.regs[3 + i.val] 24 16
def Sealed.metro (x : Sealed) : Word := x.regs[6]
def Sealed.decim (x : Sealed) : Word := x.regs[7]
def Sealed.nranges (x : Sealed) : Nat := getF x.metro 3 2
def Sealed.kMin (x : Sealed) : Nat := getF x.metro 10 4
def Sealed.kMax (x : Sealed) : Nat := getF x.metro 14 4
def Sealed.mwMin (x : Sealed) : Nat := getF x.metro 18 8
def Sealed.mwMax (x : Sealed) : Nat := getF x.metro 26 8
def Sealed.dec (x : Sealed) : Nat := getF x.decim 4 13
def Sealed.fdec (x : Sealed) : Nat := 2 ^ getF x.decim 17 2
def Sealed.rdiv (x : Sealed) : Nat := 2 ^ getF x.decim 19 3

/-- Samples of a second. -/
def Sealed.rate (x : Sealed) : Nat := 8000 / x.rdiv

/-- The top range and Max of the scale. -/
def Sealed.top (x : Sealed) : Fin 3 := if x.nranges = 3 then 2 else if x.nranges = 2 then 1 else 0
def Sealed.maxTop (x : Sealed) : Nat := x.max x.top

/-- Is e 1, 2 or 5 times a power of ten, from 1 to 50,000 (R491)? -/
def okE (e : Nat) : Bool := [1, 2, 5, 10, 20, 50, 100, 200, 500, 1000, 2000, 5000, 10000, 20000, 50000].contains e

/-- R491 for a set. -/
def Sealed.rangesOk (x : Sealed) : Bool :=
  decide (1 ≤ x.nranges) &&
  [(0 : Fin 3), 1, 2].all (fun i => decide (x.nranges ≤ i) ||
    (okE (x.e i) && decide (1 ≤ x.max i) && decide (x.max i ≤ 8000000) && x.max i % x.e i == 0)) &&
  (decide (x.nranges < 2) || (decide (x.e 0 < x.e 1) && decide (x.max 0 < x.max 1))) &&
  (decide (x.nranges < 3) || (decide (x.e 1 < x.e 2) && decide (x.max 1 < x.max 2)))

/-- The fourth check of COMMIT (R505). -/
def Sealed.valuesOk (x : Sealed) : Bool :=
  x.rangesOk && decide (getF x.metro 0 3 ≤ 6) && decide (x.kMin ≤ x.kMax) && decide (1 ≤ x.mwMin) && decide (x.mwMin ≤ x.mwMax) &&
    decide (1 ≤ getF x.metro 6 4) && decide (getF x.metro 6 4 ≤ 8) && decide (16 ≤ x.dec) && decide (x.dec ≤ 4095) &&
    decide (getF x.line 0 8 ≤ 191) && getF x.line 10 30 == 0 && getF x.metro 34 6 == 0 && getF x.decim 22 18 == 0 && getF x.regs[8] 24 16 == 0

/-- The fifth check: |Σ c − 1| ≤ 2^−16, in units of 2^−22. -/
def Sealed.tapsOk (x : Sealed) : Bool :=
  let d := (x.taps.toList.map BitVec.toInt).sum - (2 ^ 22 : Nat)
  decide (d.natAbs ≤ 64)

/-- Is the seal line of a set asserted now (R502)? -/
def State.lineAsserted (s : State) (x : Sealed) : Bool := s.flag (F.GPIO.GP.IN (getF x.line 0 8)) != x.line.getLsbD 8

/-- Is the channel's seal open? -/
def State.sealOpen (s : State) (ch : Nat) : Bool := s.flag (F.CH.SEAL_STATUS.OPEN (pgCh ch))

/-- The engine claims a channel's seal line, which takes FUNC 6 (R502, R545): whether it holds it. -/
def State.claimLine (s : State) (ch : Nat) : Bool × State :=
  let x := s.committed ch
  if x.line.getLsbD 9 then
    match s.claim 0xF0F 0 (getF x.line 0 8) 0 with
    | (0, s1) => (true, s1.put (F.GPIO.GP.FUNC (getF x.line 0 8)) (if s1.bankFault (getF x.line 0 8) then 0 else 6))
    | (_, s1) => (false, s1)
  else (true, s)

/-! ### Producing elements (R494–R500) -/

/-- Is an operation of the queue manager an element of a channel and kind? -/
def isElem (ch type : Nat) (o : QOp) : Bool := o.origin == .weigh ch type

/-- HELD.NOW: the elements refused, and those that still wait for the queue manager (R25, R496). -/
def State.countHeld (s : State) : State :=
  s.put F.WGH.HELD.NOW ((s.weigh.map (fun p =>
    b2n (p.2.heldW.isSome || s.qports[10].any (isElem p.1 2)) + b2n (p.2.heldV.isSome || s.qports[10].any (isElem p.1 3)))).sum)

/-- SEQ in a payload (R494, R500). -/
def payloadSeq (l : List Byte) : Nat := leVal ((l.drop 29).take 3)

/-- A held element is dropped for a newer one (R496). -/
def State.dropElem (s : State) (ch seq : Nat) : State :=
  let s1 := (s.bumpSat F.WGH.DROPPED.COUNT).pageInt pgWGH 1
  if (s1.wc ch).dropGap = 0 then
    (s1.modWc ch (fun w => { w with dropGap := 8000 })).event 0x0F06 0x0F 2 ch seq (s1.get F.WGH.DROPPED.COUNT)
  else s1

/-- A newer element of a kind takes the place of those that wait, refused or not yet granted (R25, R496). -/
def State.dropHeld (s : State) (ch type : Nat) : State :=
  let w := s.wc ch
  let held := if type = 2 then w.heldW else w.heldV
  let lost := (s.qports[10].filter (isElem ch type)).map (fun o => payloadSeq o.payload) ++
    ((held.filter (fun h => !h.flying)).map (·.seq)).toList
  let s1 := { s.setWc ch (if type = 2 then { w with heldW := none } else { w with heldV := none }) with
    qports := s.qports.set 10 (s.qports[10].filter (fun o => !isElem ch type o)) }
  (lost.foldl (fun (s : State) seq => s.dropElem ch seq) s1).countHeld

/-- The channel produces an element with the next SEQ. -/
def State.produce (s : State) (ch type : Nat) (payload : Nat → List Byte) : State :=
  let p := pgCh ch
  let seq := (s.get (F.CH.SEQ.SEQ p) + 1) % 2 ^ 24
  let e : WElem := { type := type, payload := payload seq, seq := seq, flying := false }
  ((s.dropHeld ch type).put (F.CH.SEQ.SEQ p) seq).modWc ch (fun w =>
    if type = 2 then { w with fresh := w.fresh ++ [e], lastW := seq } else { w with fresh := w.fresh ++ [e], lastV := seq })

/-- The range a weight falls in (R491): `v` in display units × 2^16. -/
def Sealed.rangeOf (x : Sealed) (v : Int) : Fin 3 :=
  if v.natAbs ≤ 65536 * x.max 0 ∨ x.top = 0 then 0
  else if v.natAbs ≤ 65536 * x.max 1 ∨ x.top = 1 then 1
  else 2

/-- Round to a multiple of `e`, ties away from zero (R491). -/
def roundTo (e : Nat) (v : Int) : Int :=
  let m : Nat := (2 * v.natAbs + 65536 * e) / (131072 * e) * e
  if v < 0 then -(m : Int) else m

/-- The rounded value. -/
def Sealed.rounded (x : Sealed) (v : Int) : Int := roundTo (x.e (x.rangeOf v)) v

/-- gross_bin, net in fixed point, and the rounded gross of the latest sample. DEDUCED, log 68. -/
def State.grossBin (s : State) (ch : Nat) : Int := s.sreg (R.CH.GROSS_BIN (pgCh ch))
def State.netBin (s : State) (ch : Nat) : Int := s.grossBin ch - 65536 * (s.wc ch).tare
def State.roundedGross (s : State) (ch : Nat) : Int := (s.committed ch).rounded (s.grossBin ch)

/-- Is a tare held? -/
def State.tareHeld (s : State) (ch : Nat) : Bool := (s.wc ch).tare != 0

/-- The time fields of an element: the start of the present collector period. -/
def State.elemTime (s : State) : List Byte := leBytes 4 s.wgNs ++ leBytes 6 s.wgSec

/-- A weight element with a trigger (R493, R494). -/
def State.weightElem (s : State) (ch trig : Nat) : State :=
  let p := pgCh ch
  let x := s.committed ch
  let nb := s.netBin ch
  let i := x.rangeOf nb
  let net := x.rounded nb
  let w := s.wc ch
  let st := s.reg (R.CH.CH_STATUS p)
  let flags := getF st 3 1 + 2 * getF st 4 1 + 4 * getF st 5 1 + 8 * getF st 6 1 + 16 * getF st 7 1 + 32 * b2n w.preset +
    64 * getF st 10 1 + 128 * b2n w.filt
  (s.produce ch 2 (fun seq => s.elemTime ++ leBytes 5 (decWord net) ++ leBytes 5 (decWord w.tare) ++ leBytes 5 (umod 40 (65536 * net)) ++
    leBytes 1 (getF x.metro 0 3 + 16 * (i.val + 1)) ++ leBytes 1 flags ++ leBytes 2 (x.e i) ++ leBytes 3 seq ++ leBytes 1 trig ++
    leBytes 3 (s.get (F.CH.AUDIT.COUNT p)))).modWc ch (fun w => { w with filt := false })

/-- A verdict element (R500). -/
def State.verdictElem (s : State) (ch tag code : Nat) (measured expect tol : Int) : State :=
  s.produce ch 3 (fun seq => s.elemTime ++ leBytes 2 tag ++ leBytes 1 code ++ leBytes 1 (getF (s.committed ch).metro 0 3) ++
    leBytes 5 (decWord measured) ++ leBytes 5 (decWord expect) ++ leBytes 5 (decWord tol) ++ leBytes 3 seq ++
    leBytes 3 (s.get (F.CH.AUDIT.COUNT (pgCh ch))))

/-- The armed check ends with a verdict (R497, R498). -/
def State.endCheck (s : State) (ch code : Nat) (measured : Int) : State :=
  match (s.wc ch).chk with
  | none => s
  | some k =>
    let p := pgCh ch
    let s1 := (((s.modWc ch (fun w => { w with chk := none })).put (F.CH.CHK_STATUS.STATE p) 0).put (F.CH.CHK_STATUS.LAST p) code).put
      (F.CH.CHK_STATUS.LAST_TAG p) k.tag
    s1.verdictElem ch k.tag code measured k.expect k.tol

/-- Show the tare. -/
def State.showTare (s : State) (ch : Nat) (t : Int) (preset : Bool) : State :=
  ((s.modWc ch (fun w => { w with tare := t, preset := preset })).setReg (R.CH.TARE_DISP (pgCh ch)) (BitVec.ofNat 40 (decWord t))).put
    (F.CH.CH_STATUS.NET (pgCh ch)) (b2n (t != 0))

/-- Show the net weight and its range. -/
def State.showNet (s : State) (ch : Nat) : State :=
  let x := s.committed ch
  let nb := s.netBin ch
  (s.setReg (R.CH.NET_DISP (pgCh ch)) (BitVec.ofNat 40 (decWord (x.rounded nb)))).put (F.CH.CH_STATUS.RANGE (pgCh ch)) ((x.rangeOf nb).val + 1)

/-! ### States (R484, R485) -/

/-- The channel's filters and history start afresh. -/
def Weigh.fresh0 (w : Weigh) : Weigh :=
  { w with integ := Vector.replicate 4 0, comb := Vector.replicate 4 0, nbits := 0, filled := 1, fir := [], nfir := 0
           iir := Vector.replicate 2 0, hist := [], motionRun := 0, zeroRun := 0, streamN := 0, lastGross := none, tareDue := false }

/-- A waiting weighing command ends (R513). -/
def State.endCmd (s : State) (ch result : Nat) : State :=
  let p := pgCh ch
  (((((s.modWc ch (fun w => { w with wait := none })).setReg (R.CH.CMD p) 0).put (F.CH.CMD_STATUS.BUSY p) 0).put
    (F.CH.CMD_STATUS.RESULT p) result)).pageInt p 1

/-- A waiting calibration command ends (R504). -/
def State.endCal (s : State) (ch result : Nat) : State :=
  let p := pgCh ch
  (((s.modWc ch (fun w => { w with cal := none })).put (F.CH.SEAL_CTRL.CAL_ZERO p) 0).put (F.CH.SEAL_CTRL.CAL_SPAN p) 0).put
    (F.CH.SEAL_STATUS.RESULT p) result

/-- End both waits with RESULT 6. -/
def State.endWaits (s : State) (ch : Nat) : State :=
  let s1 := if (s.wc ch).wait.isSome then s.endCmd ch 6 else s
  if (s1.wc ch).cal.isSome then s1.endCal ch 6 else s1

/-- The channel is disabled. -/
def State.chDisable (s : State) (ch : Nat) : State :=
  let p := pgCh ch
  let s1 := ((s.endCheck ch 4 0).endWaits ch).put (F.CH.CH_CTRL.ENABLE p) 0
  (((s1.modWc ch Weigh.fresh0).showTare ch 0 false).setReg (R.CH.CH_STATUS p) 0)

/-- Enter STARTING, or CALIBRATING while CAL_VALID is 0, which only an open seal allows: else the channel is disabled. The tare
does not outlive it. DEDUCED, log 67. -/
def State.toStarting (s : State) (ch : Nat) : State :=
  let p := pgCh ch
  let valid := s.flag (F.CH.SEAL_STATUS.CAL_VALID p)
  if !valid && !s.sealOpen ch then s.chDisable ch
  else (((s.modWc ch Weigh.fresh0).showTare ch 0 false).setReg (R.CH.CH_STATUS p) 0).setChState ch (if valid then 1 else 4)

/-- MODFAULT clears (R484): the channel starts again, its samples still completing at the ends of the same periods (R481). -/
def State.faultCleared (s : State) (ch : Nat) : State :=
  let w := s.wc ch
  (s.toStarting ch).modWc ch (fun x => { x with nbits := w.nbits, nfir := w.nfir, filled := if w.nbits = 0 then 1 else 0 })

/-- MODFAULT sets (R484). -/
def State.modFault (s : State) (ch : Nat) : State :=
  let p := pgCh ch
  let s1 := (((s.endCheck ch 4 0).endWaits ch).put (F.CH.CH_STATUS.MODFAULT p) 1).setChState ch 3
  (((s1.put (F.CH.CH_STATUS.STABLE p) 0).modWc ch (fun w => { w with faultClk := 0, faultSeen := false })).pageInt p 2).event
    0x0F05 0x0F 3 ch 0 0

/-! ### Zero, tare and the weight check (R487–R499) -/

/-- May a zero offset be set (R487)? -/
def Sealed.zeroOk (x : Sealed) (off : Int) : Bool := decide (50 * off.natAbs ≤ 65536 * x.maxTop)

/-- Set the zero so that the present gross becomes zero. -/
def State.setZero (s : State) (ch : Nat) : State :=
  let p := pgCh ch
  let off := s.grossBin ch + s.sreg (R.CH.ZERO_OFF p)
  (((s.setReg (R.CH.ZERO_OFF p) (BitVec.ofInt 40 off)).setReg (R.CH.GROSS_BIN p) 0).put (F.CH.CH_STATUS.ZERO_CENTRE p) (b2n !(s.tareHeld ch))).showNet ch

/-- A waiting or immediate command acts on a stable sample (R489, R490, R493): whether it produced an element. -/
def State.cmdAct (s : State) (ch cmd : Nat) : Bool × State :=
  let p := pgCh ch
  let x := s.committed ch
  match cmd with
  | 0 =>
    if s.tareHeld ch then (false, s.endCmd ch 4)
    else if !x.zeroOk (s.grossBin ch + s.sreg (R.CH.ZERO_OFF p)) then (false, s.endCmd ch 3)
    else (true, (((s.endCheck ch 5 0).setZero ch).weightElem ch 1).endCmd ch 0)
  | 1 =>
    if s.grossBin ch ≤ 0 ∨ (x.max 0 : Int) < s.roundedGross ch then (false, s.endCmd ch 3)
    else (true, (((s.showTare ch (roundTo (x.e 0) (s.grossBin ch)) false).showNet ch).weightElem ch 2).endCmd ch 0)
  | _ => (true, (s.weightElem ch 3).endCmd ch 0)

/-- The verdict code of a change (R498). -/
def verdictCode (change expect tol : Int) : Nat :=
  if ((change - expect).natAbs : Int) ≤ tol then 0 else if change < expect - tol then 1 else 2

/-- The check and WATCH at a sample (R497, R499). -/
def State.checkSample (s : State) (ch : Nat) (stable trans : Bool) : State :=
  let p := pgCh ch
  let g := s.roundedGross ch
  match (s.wc ch).chk with
  | some k =>
    match k.ref with
    | none => if stable then (s.modWc ch (fun w => { w with chk := some { k with ref := some g } })).put (F.CH.CHK_STATUS.STATE p) 2 else s
    | some r => if trans then s.endCheck ch (verdictCode (g - r) k.expect k.tol) (g - r) else s
  | none =>
    match (s.wc ch).lastGross with
    | some l =>
      if trans && s.flag (F.CH.CH_CTRL.WATCH p) then
        let (tol, s1) := s.decReg (R.CH.CHK_TOL p)
        if tol < ((g - l).natAbs : Int) then
          ((s1.put (F.CH.CHK_STATUS.LAST p) 6).put (F.CH.CHK_STATUS.LAST_TAG p) 0).verdictElem ch 0 6 (g - l) 0 tol
        else s1
      else s
    | none => s

/-- Zero tracking's step at a sample (R488): at most e1/2 a second. -/
def State.trackZero (s : State) (ch : Nat) : State :=
  let p := pgCh ch
  let x := s.committed ch
  let g := s.grossBin ch
  let step := 32768 * x.e 0 * x.rdiv / 8000
  let d : Int := if g < 0 then -(min g.natAbs step : Nat) else (min g.natAbs step : Nat)
  let off := s.sreg (R.CH.ZERO_OFF p) + d
  if x.metro.getLsbD 5 && !s.tareHeld ch && decide (2 * g.natAbs ≤ 65536 * x.e 0) && x.zeroOk off then
    s.setReg (R.CH.ZERO_OFF p) (BitVec.ofInt 40 off)
  else s

/-! ### A sample (R483–R493) -/

/-- Spread of values. -/
def spread (l : List Int) : Nat :=
  match l with
  | [] => 0
  | x :: r => (r.foldl max x - r.foldl min x).toNat

/-- Are the last MW samples present, unbarred and within the band (R486)? -/
def State.windowStable (s : State) (ch : Nat) : Bool :=
  let x := s.committed ch
  let mw := s.get (F.CH.MOTION_WIN.MW (pgCh ch))
  let l := (s.wc ch).hist.take mw
  l.length == mw && mw != 0 && l.all (fun e => !e.bad) && decide (spread (l.map (·.gross)) ≤ getF x.metro 6 4 * x.e 0 * 16384)

/-- What a RUNNING channel does at a sample. -/
def State.runSample (s : State) (ch : Nat) (stable trans : Bool) : State :=
  let p := pgCh ch
  let s1 := s.checkSample ch stable trans
  let w := s1.wc ch
  let (made, s2) := match w.wait with
    | some c => if stable then s1.cmdAct ch c else (false, s1)
    | none => (false, s1)
  let (made3, s3) := if made || !stable then (made, s2)
    else if w.tareDue then (true, s2.weightElem ch 2)
    else if trans then (true, s2.weightElem ch 0) else (false, s2)
  let s4 := if stable then s3.modWc ch (fun w => { w with tareDue := false, lastGross := some (s3.roundedGross ch) }) else s3
  let stream := s4.get (F.CH.CH_CTRL.STREAM p)
  let n := (s4.wc ch).streamN + 1
  let s5 := if stream = 0 then s4
    else if stream ≤ n then (if made3 then s4 else s4.weightElem ch 4).modWc ch (fun w => { w with streamN := 0 })
    else s4.modWc ch (fun w => { w with streamN := n })
  if stable then s5.trackZero ch else s5

/-- What a STARTING channel does at a sample: ZERO_ERR shows a load outside the zero range, and a stable sample within it sets the
initial zero (R487). -/
def State.startSample (s : State) (ch : Nat) (stable : Bool) : State :=
  let p := pgCh ch
  let ok := (s.committed ch).zeroOk (s.grossBin ch + s.sreg (R.CH.ZERO_OFF p))
  let s0 := s.put (F.CH.CH_STATUS.ZERO_ERR p) (b2n !ok)
  if stable && ok then
    let s1 := (s0.setZero ch).setChState ch 2
    (s1.weightElem ch 1).modWc ch (fun w => { w with lastGross := some (s1.roundedGross ch) })
  else s0

/-- CAL_SPAN's value (R504), or none when it is refused. -/
def calSpan (ref : Nat) (raw zero : Int) : Option Nat :=
  if raw ≤ zero then none
  else
    let d := (raw - zero).toNat
    let v := (2 * (ref * 2 ^ 48) + d) / (2 * d)
    if v = 0 ∨ 2 ^ 40 ≤ v then none else some v

/-- A waiting calibration command looks for a stable RAW (R504). -/
def State.calSample (s : State) (ch : Nat) : State :=
  match (s.wc ch).cal with
  | none => s
  | some span =>
    let p := pgCh ch
    let mw := s.get (F.CH.MOTION_WIN.MW p)
    let l := (s.wc ch).hist.take mw
    if l.length == mw && mw != 0 && decide (spread (l.map (·.raw)) ≤ 2 ^ 19) then
      let x := s.stagedSet ch
      let raw := s.sreg (R.CH.RAW p)
      if span then
        match calSpan (getF x.regs[8] 0 24) raw x.regs[1].toInt with
        | some v => (s.setStaged ch { x with regs := x.regs.set 2 (BitVec.ofNat 40 v) }).endCal ch 0
        | none => s.endCal ch 4
      else (s.setStaged ch { x with regs := x.regs.set 1 (s.reg (R.CH.RAW p)) }).endCal ch 0
    else s

/-- A sample completes (R483–R493). `full` says that the filters were full when it formed. -/
def State.sample (s : State) (ch : Nat) (raw : Int) (satur full : Bool) : State :=
  let p := pgCh ch
  let x := s.committed ch
  let gross := sat40 ((raw - x.regs[1].toInt) * (x.span : Int) / (2 ^ 32 : Nat) - s.sreg (R.CH.ZERO_OFF p))
  let s1 := ((s.setReg (R.CH.RAW p) (BitVec.ofInt 40 raw)).setReg (R.CH.GROSS_BIN p) (BitVec.ofInt 40 gross)).put (F.CH.CH_STATUS.SATURATED p) (b2n satur)
  let rg := x.rounded gross
  let ovl := if satur then decide (0 ≤ raw) else decide (((x.maxTop + 9 * x.e x.top : Nat) : Int) < rg)
  let under := if satur then decide (raw < 0) else decide (rg < -((20 * x.e 0 : Nat) : Int))
  let entering := (ovl && !s.flag (F.CH.CH_STATUS.OVERLOAD p)) || (under && !s.flag (F.CH.CH_STATUS.UNDERLOAD p))
  let centre := !s.tareHeld ch && decide (4 * gross.natAbs ≤ 65536 * x.e 0)
  let s2 := ((s1.put (F.CH.CH_STATUS.OVERLOAD p) (b2n ovl)).put (F.CH.CH_STATUS.UNDERLOAD p) (b2n under)).put (F.CH.CH_STATUS.ZERO_CENTRE p) (b2n centre)
  let s3 := s2.modWc ch (fun w => { w with hist := if full then
    ({ gross := gross, raw := raw, bad := ovl || under || satur } :: w.hist).take (max 255 x.rate) else w.hist })
  let s4a := (s3.setReg (R.CH.NOISE p) (BitVec.ofNat 40 (spread (((s3.wc ch).hist.take x.rate).map (·.gross))))).showNet ch
  let s4 := if entering then s4a.pageInt p 3 else s4a
  let st := s.chState ch
  if st = 4 then s4.calSample ch
  else
    let stable := s4.windowStable ch
    let trans := stable && !s.flag (F.CH.CH_STATUS.STABLE p)
    let s5 := s4.put (F.CH.CH_STATUS.STABLE p) (b2n stable)
    let s6 := s5.modWc ch (fun w => { w with motionRun := if stable then 0 else w.motionRun + 1, zeroRun := if centre then w.zeroRun + 1 else 0 })
    let s7 := if entering then s6.endCheck ch 4 0 else s6
    let s8 := if st = 2 then s7.runSample ch stable trans else if full then s7.startSample ch stable else s7
    s8.calSample ch

/-! ### The filters (R480, R484) -/

/-- Round to nearest, a half upwards. -/
def roundHalf (n : Int) (d : Nat) : Int := (2 * n + d) / (2 * d : Nat)

/-- One first-order section. -/
def iirStep (k : Nat) (y x : Int) : Int := y + (x - y) / (2 ^ k : Nat)

/-- A sinc output enters the FIR stage; every FDEC-th gives a sample. -/
def State.firIn (s : State) (ch : Nat) (v : Int) : State :=
  let x := s.committed ch
  let k := s.get (F.CH.IIR_K.K (pgCh ch))
  let w0 := s.wc ch
  let w1 := { w0 with fir := (v :: w0.fir).take 64, filled := min 68 (w0.filled + 1), nfir := w0.nfir + 1 }
  if w1.nfir < x.fdec then s.setWc ch w1
  else
    let acc := ((w1.taps.toList.zip w1.fir).map (fun p => p.1.toInt * p.2)).sum
    let f := sat40 (roundHalf acc (2 ^ 22))
    let y0 := iirStep k w1.iir[0] f
    let y1 := iirStep k w1.iir[1] y0
    let satur := (w1.fir.take x.fdec).any atEnd40 || atEnd40 f || atEnd40 y1
    (s.setWc ch { w1 with nfir := 0, iir := #v[y0, y1] }).sample ch y1 satur (decide (68 ≤ w1.filled))

/-- The decimators' phase moves on by a clock without a filter. -/
def Weigh.tickPhase (w : Weigh) (dec fdec : Nat) : Weigh :=
  if w.nbits + 1 < dec then { w with nbits := w.nbits + 1 } else { w with nbits := 0, nfir := (w.nfir + 1) % fdec }

/-- One input bit of an enabled channel. -/
def State.weighBit (s : State) (ch : Nat) (b : Bool) : State :=
  let p := pgCh ch
  let x := s.committed ch
  let w0 := s.wc ch
  let same := w0.eqRun != 0 && b == w0.lastBit
  let w1 := { w0 with lastBit := b, eqRun := if same then min 4096 (w0.eqRun + 1) else 1 }
  if s.flag (F.CH.CH_STATUS.MODFAULT p) then
    let seen := w1.faultSeen || (w0.faultClk != 0 && !same)
    let w2 := w1.tickPhase x.dec x.fdec
    if w1.faultClk + 1 < 4096 then s.setWc ch { w2 with faultClk := w1.faultClk + 1, faultSeen := seen }
    else if seen then (s.setWc ch { w2 with faultClk := 0, faultSeen := false }).faultCleared ch
    else s.setWc ch { w2 with faultClk := 0, faultSeen := false }
  else if 4096 ≤ w1.eqRun then (s.setWc ch (w1.tickPhase x.dec x.fdec)).modFault ch
  else
    let i0 : BitVec 64 := w1.integ[0] + (if b then 1 else -1)
    let i1 := w1.integ[1] + i0
    let i2 := w1.integ[2] + i1
    let i3 := w1.integ[3] + i2
    let w2 := { w1 with integ := #v[i0, i1, i2, i3], nbits := w1.nbits + 1 }
    if w2.nbits < x.dec then s.setWc ch w2
    else
      let d0 := i3 - w2.comb[0]
      let d1 := d0 - w2.comb[1]
      let d2 := d1 - w2.comb[2]
      let d3 := d2 - w2.comb[3]
      let v := sat40 (roundHalf (d3.toInt * (2 ^ 39 : Nat)) (x.dec ^ 4))
      (s.setWc ch { w2 with comb := #v[i3, d0, d1, d2], nbits := 0 }).firIn ch v

/-- The bits a channel's input brings in a period, while the channel is enabled and its clock runs (R478). -/
def State.weighBits (s : State) (ch : Nat) (bits : List Bool) : State :=
  if s.chState ch != 0 && s.flag (F.WGH.CLK_CFG.EN (getF (s.committed ch).decim 0 3)) then
    bits.foldl (fun (s : State) b => s.weighBit ch b) s
  else s

/-! ### Seals and commits (R502–R508) -/

/-- A refused commit (R505). -/
def State.commitRefused (s : State) (ch result : Nat) : State :=
  (((s.modWc ch (fun w => { w with commit := false })).put (F.CH.SEAL_CTRL.COMMIT (pgCh ch)) 0).put
    (F.CH.SEAL_STATUS.RESULT (pgCh ch)) result).event 0x0F02 0x0F 2 ch result 0

/-- The checks of COMMIT in order: 0 when all pass. -/
def State.commitChecks (s : State) (ch : Nat) : Nat :=
  let x := s.stagedSet ch
  let c := s.committed ch
  if !s.sealOpen ch || (c.line.getLsbD 9 && !s.lineAsserted c) then 1
  else if 2 ^ 24 - 1 ≤ s.get (F.CH.AUDIT.COUNT (pgCh ch)) then 2
  else if !s.protFree then 3
  else if !x.valuesOk then 4
  else if !x.tapsOk then 5
  else 0

/-- The staging copy goes with the seal, and event 0x0F04 says whether there was one (R508). -/
def State.endSeal (s : State) (ch : Nat) : State :=
  let p := pgCh ch
  let was := s.get (F.CH.SEAL_STATUS.STAGED p)
  ((((s.unstage ch).put (F.CH.SEAL_STATUS.OPEN p) 0).put (F.CH.SEAL_STATUS.LEFT p) 0).pageInt pgWGH 2).event 0x0F04 0x0F 0 ch was 0

/-- The seal closes (R508). DEDUCED, log 70. -/
def State.closeSeal (s : State) (ch : Nat) : State :=
  if s.sealOpen ch then
    let s0 := if (s.wc ch).cal.isSome then s.endCal ch 6 else s
    let s2 := s0.endSeal ch
    let s3 := if (s2.wc ch).commit then s2.commitRefused ch 1 else s2
    if s3.chState ch = 4 then s3.chDisable ch else s3
  else s

/-- The channels whose seals are open. -/
def State.openSeals (s : State) : List Nat := (List.range 64).filter s.sealOpen

/-- Every open seal ends with a reset or a power failure (R508). -/
def State.endSeals (s : State) : State := s.openSeals.foldl State.endSeal s

/-- Put K and MOTION_WIN into bounds (R505). -/
def State.clampFilter (s : State) (ch : Nat) : State :=
  let p := pgCh ch
  let x := s.committed ch
  (s.put (F.CH.IIR_K.K p) (max x.kMin (min x.kMax (s.get (F.CH.IIR_K.K p))))).put (F.CH.MOTION_WIN.MW p)
    (max x.mwMin (min x.mwMax (s.get (F.CH.MOTION_WIN.MW p))))

/-- The commit itself (R505). -/
def State.doCommit (s : State) (ch : Nat) : State :=
  let p := pgCh ch
  let old := (s.committed ch).crc
  let x := s.stagedSet ch
  let s1 := (List.range 9).foldl (fun (s : State) i => s.setReg (p + sealedOff i) (x.regs.toList.getD i 0)) s
  let s2 := ((s1.modWc ch (fun w => { w with taps := x.taps, commit := false })).put (F.CH.SEAL_CTRL.COMMIT p) 0).unstage ch
  let s3 := (s2.bump (F.CH.AUDIT.COUNT p) 1).put (F.CH.SEAL_STATUS.RESULT p) 0
  let s4 := s3.event 0x0F01 0x0F 1 (ch + 64 * s3.get (F.CH.AUDIT.COUNT p)) old x.crc
  let s5 := (s4.put (F.CH.SEAL_STATUS.CAL_VALID p) (b2n (x.line.getLsbD 9 && x.span != 0))).pageInt p 4
  let s6 := s5.clampFilter ch
  if s6.chState ch = 0 then s6
  else ((s6.endCheck ch 5 0).setReg (R.CH.ZERO_OFF p) 0).toStarting ch

/-- A calibration command that waits gives way to a commit (R511). -/
def State.calYields (s : State) (ch : Nat) : State := if (s.wc ch).cal.isSome then s.endCal ch 7 else s

/-- A commit that waits for the period boundary. -/
def State.boundaryCommit (s : State) (ch : Nat) : State :=
  if (s.wc ch).commit then
    let s1 := s.calYields ch
    match s1.commitChecks ch with | 0 => s1.doCommit ch | n => s1.commitRefused ch n
  else s

/-- A channel's counts of collector periods: the gap between drop events, and the seconds left of an open seal. -/
def State.periodTick (s : State) (ch : Nat) : State :=
  let p := pgCh ch
  let w := s.wc ch
  let s1 := s.setWc ch { w with dropGap := w.dropGap - 1, leftGap := w.leftGap - 1 }
  if s.sealOpen ch && w.leftGap == 1 then
    (s1.put (F.CH.SEAL_STATUS.LEFT p) (s.get (F.CH.SEAL_STATUS.LEFT p) - 1)).modWc ch (fun w => { w with leftGap := 8000 })
  else s1

/-! ### The collector (R495, R496) -/

/-- Offer an element to the channel's queue, or discard it and count it where the queue is not valid (R514).
DEDUCED, log 69. -/
def State.offerElem (s : State) (ch : Nat) (e : WElem) : Bool × State :=
  let q := s.reg (if e.type = 2 then R.CH.OUT_QUEUE (pgCh ch) else R.CH.CHK_QUEUE (pgCh ch))
  if q.getLsbD 13 then (true, s.offer 10 (getF q 0 13) e.type (0x2000 + ch) e.payload (.weigh ch e.type))
  else (false, (s.bumpSat F.WGH.DROPPED.COUNT).pageInt pgWGH 1)

/-- Offer a channel's held elements again. -/
def State.offerHeld (s : State) (ch : Nat) : State :=
  let go := fun (s : State) (h : Option WElem) => match h with
    | some e => if e.flying then (some e, s) else match s.offerElem ch e with
      | (true, s1) => (some { e with flying := true }, s1)
      | (false, s1) => (none, s1)
    | none => (none, s)
  let (hw, s1) := go s (s.wc ch).heldW
  let (hv, s2) := go s1 (s.wc ch).heldV
  s2.modWc ch (fun w => { w with heldW := hw, heldV := hv })

/-- Offer a channel's new elements, weights first. -/
def State.offerFresh (s : State) (ch : Nat) : State :=
  let l := (s.wc ch).fresh
  ((l.filter (fun e => e.type == 2)) ++ (l.filter (fun e => e.type != 2))).foldl (fun (s : State) e => (s.offerElem ch e).2)
    (s.modWc ch (fun w => { w with fresh := [] }))

/-- The queue manager's answer to an element (R496): a refused one is held, unless a newer one of its kind exists. -/
def State.weighAck (s : State) (ch type : Nat) (payload : List Byte) (ok : Bool) : State :=
  let seq := payloadSeq payload
  let w := s.wc ch
  let e : WElem := { type := type, payload := payload, seq := seq, flying := false }
  let held := if type = 2 then w.heldW else w.heldV
  let put := fun (s : State) (h : Option WElem) => s.modWc ch (fun w => if type = 2 then { w with heldW := h } else { w with heldV := h })
  let mine := held.any (fun h => h.seq == seq)
  (if ok then (if mine then put s none else s)
   else if seq != (if type = 2 then w.lastW else w.lastV) then (if mine then put s none else s).dropElem ch seq
   else put s (some e)).countHeld

/-- The channels, in order. -/
def weighChans : List Nat := List.range 64

/-- R495: a collector period ends: its bits are filtered, commits take effect at the boundary, held elements are offered, then
those of the period, in channel order. The next period begins whether or not the engine runs. -/
def execCollectorPeriod (bits : List (Nat × List Bool)) (s : State) : Host.Outcome State Fault Refusal :=
  .next <|
    if s.frozen none then s
    else if !s.wghRuns then { s with wgSec := s.tbSec, wgNs := s.tbNs }
    else
      let s1 := (List.range 64).foldl (fun (s : State) ch =>
        match bits.find? (fun b => b.1 == ch) with
        | some b => s.weighBits ch b.2
        | none => s) s
      let s2 := (s1.weigh.map (·.1)).foldl (fun (s : State) ch => (s.boundaryCommit ch).periodTick ch) s1
      let s3 := (s2.weigh.map (·.1)).foldl (fun (s : State) ch => s.offerHeld ch) s2
      let s4 := (s3.weigh.map (·.1)).foldl (fun (s : State) ch => s.offerFresh ch) s3
      { s4.countHeld with wgSec := s4.tbSec, wgNs := s4.tbNs }

/-! ### Writes (R479, R485, R489–R515) -/

/-- May the channel be enabled (R481, R485)? -/
def State.enableOk (s : State) (ch : Nat) : Bool :=
  let x := s.committed ch
  let n := getF x.decim 0 3
  let div := match s.get (F.WGH.CLK_CFG.DIV n) with | 0 => 20 | 1 => 40 | 2 => 50 | _ => 80
  x.dec * x.fdec * div == 25000 * x.rdiv && decide (getF x.decim 19 3 ≤ 6) && s.flag (F.WGH.CLK_CFG.EN n) &&
    (s.flag (F.CH.SEAL_STATUS.CAL_VALID (pgCh ch)) || s.sealOpen ch)

/-- A write of CH_CTRL (R485, R514). -/
def State.wChCtrl (s : State) (r : Requester) (ch : Nat) (v : Word) : State :=
  let p := pgCh ch
  let bad := decide (getF v 10 6 = 0) || decide (50 < getF v 10 6)
  let v1 := if bad then putF v 10 6 (s.get (F.CH.CH_CTRL.CMD_WAIT p)) else v
  let s0 := if bad then s.pageErr p 0x13 0x40 r true else s
  let was := s0.flag (F.CH.CH_CTRL.ENABLE p)
  let go := fun (s : State) => s.setReg (R.CH.CH_CTRL p) (v1 &&& 0xFFFF)
  if v1.getLsbD 0 && !was then
    if !s0.enableOk ch then s0.pageErr p 0x12 0x40 r true
    else match s0.claimLine ch with
      | (false, s1) => s1.pageErr p 0x14 0x40 r true
      | (true, s1) => (go s1).toStarting ch
  else if !v1.getLsbD 0 && was then go (s0.chDisable ch)
  else go s0

/-- A write of CMD (R489, R490, R493, R511). -/
def State.wCmd (s : State) (r : Requester) (ch : Nat) (v : Word) : State :=
  let p := pgCh ch
  let m := getF v 0 5
  match [0, 1, 2, 3, 4].filter (fun i => bitOf m i) with
  | [] => s
  | [c] =>
    if (s.wc ch).wait.isSome then s.put (F.CH.CMD_STATUS.RESULT p) 1
    else
      let s0 := s.put (F.CH.CMD_STATUS.LAST p) c
      if s.chState ch != 2 then s0.endCmd ch 6
      else match c with
        | 2 => ((s0.showTare ch 0 false).showNet ch |>.modWc ch (fun w => { w with tareDue := true })).endCmd ch 0
        | 3 =>
          let x := s.committed ch
          let w := (s.reg (R.CH.PRESET_TARE p)).toNat
          let t := decVal 10 w
          if bcdOk 10 w && decide (0 < t) && decide (t ≤ (x.max 0 : Int)) && t.natAbs % x.e 0 == 0 then
            ((s0.showTare ch t true).showNet ch |>.modWc ch (fun w => { w with tareDue := true })).endCmd ch 0
          else s0.endCmd ch 7
        | _ =>
          if s.flag (F.CH.CH_STATUS.STABLE p) then (s0.cmdAct ch c).2
          else (((s0.modWc ch (fun w => { w with wait := some c })).setReg (R.CH.CMD p) (BitVec.ofNat 40 (2 ^ c)))).put
            (F.CH.CMD_STATUS.BUSY p) 1
  | _ => s.pageErr p 0x15 0x60 r true

/-- Arm a check (R497). -/
def State.armCheck (s : State) (ch : Nat) : State :=
  let p := pgCh ch
  let s0 := s.endCheck ch 5 0
  let (e, s1) := s0.decReg (R.CH.CHK_EXPECT p)
  let (t, s2) := s1.decReg (R.CH.CHK_TOL p)
  let stable := s2.flag (F.CH.CH_STATUS.STABLE p)
  let k : WCheck := { tag := s2.get (F.CH.CHK_CTRL.TAG p), expect := e, tol := t, ref := if stable then some (s2.roundedGross ch) else none }
  let s3 := (s2.modWc ch (fun w => { w with chk := some k })).put (F.CH.CHK_STATUS.STATE p) (if stable then 2 else 1)
  if s3.chState ch = 2 then s3 else s3.endCheck ch 4 0

/-- A write of CHK_CTRL (R497). -/
def State.wChk (s : State) (r : Requester) (ch : Nat) (v : Word) : State :=
  let p := pgCh ch
  if v.getLsbD 16 && getF v 18 12 == 0 then s.pageErr p 0x13 0xB0 r true
  else
    let s1 := s.setReg (R.CH.CHK_CTRL p) (v &&& 0x3FFCFFFF)
    let s2 := if v.getLsbD 17 then s1.endCheck ch 5 0 else s1
    if v.getLsbD 16 then s2.armCheck ch else s2

/-- A write of SEAL_CTRL (R504, R505, R508). A command's bit reads 1 while it waits, and writing it again does nothing
(R5, R6). -/
def State.wSealCtrl (s : State) (ch : Nat) (v : Word) : State :=
  let p := pgCh ch
  let s1 := if v.getLsbD 1 && s.sealOpen ch then s.unstage ch else s
  let span := !v.getLsbD 2
  let s2 := if (v.getLsbD 2 || v.getLsbD 3) && s1.sealOpen ch && (s1.wc ch).cal.isNone then
    ((s1.modWc ch (fun w => { w with cal := some span })).put (if span then F.CH.SEAL_CTRL.CAL_SPAN p else F.CH.SEAL_CTRL.CAL_ZERO p) 1).calSample ch
    else s1
  if v.getLsbD 0 && !(s2.wc ch).commit then
    let s3 := s2.calYields ch
    match s3.commitChecks ch with
    | 0 => (s3.modWc ch (fun w => { w with commit := true })).put (F.CH.SEAL_CTRL.COMMIT p) 1
    | n => s3.commitRefused ch n
  else s2

/-- A write of a sealed register (R501, R503). -/
def State.wSealed (s : State) (r : Requester) (ch off : Nat) (v : Word) : State :=
  let p := pgCh ch
  if !s.sealOpen ch then s.pageErr p 0x10 off r true
  else
    let x := s.stagedSet ch
    if off = 0x140 then s.setReg (R.CH.FIR_INDEX p) (v &&& 0x3F)
    else if off = 0x148 then
      let i := s.get (F.CH.FIR_INDEX.TAP p)
      (s.setStaged ch { x with taps := x.taps.setIfInBounds i (v.extractLsb' 0 24) }).put (F.CH.FIR_INDEX.TAP p) (i + 1)
    else
      let i := if off = 0x150 then 8 else (off - 0x100) / 8
      let m := match i with | 0 => 0x3FF#40 | 6 => 0x3FFFFFFFF#40 | 7 => 0x3FFFFF#40 | 8 => 0xFFFFFF#40 | _ => 0xFFFFFFFFFF#40
      s.setStaged ch { x with regs := x.regs.setIfInBounds i (v &&& m) }

/-- A filter change (R509, R510). -/
def State.setFilter (s : State) (ch k mw : Nat) : State :=
  let p := pgCh ch
  ((((s.put (F.CH.IIR_K.K p) k).put (F.CH.MOTION_WIN.MW p) mw).modWc ch (fun w => { w with filt := true })).pageInt p 5).event 0x0F07 0x0F 0 ch k mw

/-- Writes on a channel page. -/
def State.wCh (s : State) (r : Requester) (a : Nat) (v : Word) : Option State :=
  let ch := (a - 0xFFF0200000) / 4096
  let off := a % 4096
  let x := s.committed ch
  let p := pgCh ch
  if off = 0x40 then some (s.wChCtrl r ch v)
  else if off = 0x60 then some (s.wCmd r ch v)
  else if off = 0xB0 then some (s.wChk r ch v)
  else if off = 0xE0 then some (s.wSealCtrl ch v)
  else if 0x100 ≤ off ∧ off ≤ 0x150 then some (s.wSealed r ch off v)
  else if off = 0x800 then
    some (if x.kMin ≤ getF v 0 4 ∧ getF v 0 4 ≤ x.kMax then s.setFilter ch (getF v 0 4) (s.get (F.CH.MOTION_WIN.MW p)) else s.pageErr p 0x13 off r true)
  else if off = 0x808 then
    some (if x.mwMin ≤ getF v 0 8 ∧ getF v 0 8 ≤ x.mwMax then s.setFilter ch (s.get (F.CH.IIR_K.K p)) (getF v 0 8) else s.pageErr p 0x13 off r true)
  else none

/-- Reads on a channel page: the staged set while the seal is open, FIR_DATA, CHECKSUM and the seal line. -/
def State.rCh (s : State) (a : Nat) : Option (Word × State) :=
  let ch := (a - 0xFFF0200000) / 4096
  let off := a % 4096
  let p := pgCh ch
  let x := if s.sealOpen ch then s.stagedSet ch else s.committed ch
  if off = 0x148 then
    let i := s.get (F.CH.FIR_INDEX.TAP p)
    some ((x.taps.toList.getD i 0).setWidth 40, s.put (F.CH.FIR_INDEX.TAP p) (i + 1))
  else if off = 0x150 then some (x.regs[8], s)
  else if 0x100 ≤ off ∧ off < 0x140 then some (x.regs.toList.getD ((off - 0x100) / 8) 0, s)
  else if off = 0xD0 then some (BitVec.ofNat 40 (s.committed ch).crc, s)
  else if off = 0xD8 then some (putF (s.reg a) 1 1 (b2n (s.lineAsserted (s.committed ch))), s)
  else none

/-- Open a seal (R502). -/
def State.openSeal (s : State) (r : Requester) (ch secs : Nat) : State :=
  let p := pgCh ch
  let err := fun (s : State) c => s.pageErr pgWGH c 0x48 r true
  if secs = 0 ∨ 3600 < secs then err s 0x13
  else match s.claimLine ch with
    | (false, s1) => err s1 0x12
    | (true, s1) =>
      let x := s1.committed ch
      if x.line.getLsbD 9 && !s1.lineAsserted x then err s1 0x12
      else
        (((s1.modWc ch (fun w => { w with leftGap := 8000 })).put (F.CH.SEAL_STATUS.OPEN p) 1).put (F.CH.SEAL_STATUS.LEFT p) secs).event
          0x0F03 0x0F 1 ch secs (reqCode r)

/-- Would a CLK_CFG write change or stop a clock that an enabled channel names (R479)? -/
def State.clkInUse (s : State) (v : Word) : Bool :=
  (List.range 64).any (fun ch =>
    let n := getF (s.committed ch).decim 0 3
    s.flag (F.CH.CH_CTRL.ENABLE (pgCh ch)) && (getF v (2 * n) 2 != s.get (F.WGH.CLK_CFG.DIV n) ||
      (s.flag (F.WGH.CLK_CFG.EN n) && !v.getLsbD (16 + n))))

/-- Writes on the control page (R479, R502, R508). -/
def State.wWgh (s : State) (r : Requester) (off : Nat) (v : Word) : Option State :=
  if off = 0x40 then some (if s.clkInUse v then s.pageErr pgWGH 0x10 off r true else s.setReg R.WGH.CLK_CFG (v &&& 0xFFFFFF))
  else if off = 0x48 then
    some (if !reqWarden r then s.pageErr pgWGH 0x11 off r true
      else if v.getLsbD 7 then s.closeSeal (getF v 0 6)
      else if v.getLsbD 6 then s.openSeal r (getF v 0 6) (getF v 8 12)
      else s)
  else none

/-! ### Expiries and the filter governor -/

/-- R489, R504: CMD_WAIT ends the waiting command. -/
def execCmdWaitExpiry (ch : Fin 64) (s : State) : Host.Outcome State Fault Refusal :=
  .next <|
    let p := pgCh ch
    if !s.wghRuns then s
    else if (s.wc ch).wait.isSome then
      s.endCmd ch (if s.flag (F.CH.CH_STATUS.OVERLOAD p) || s.flag (F.CH.CH_STATUS.UNDERLOAD p) then 5 else 2)
    else if (s.wc ch).cal.isSome then s.endCal ch 6
    else s

/-- R497: the armed check reaches TIMEOUT. -/
def execCheckTimeout (ch : Fin 64) (s : State) : Host.Outcome State Fault Refusal :=
  .next (if s.wghRuns then s.endCheck ch 3 0 else s)

/-- R508: the seal's window expires. DESIGN CHOICE, log 52. -/
def execSealWindowExpiry (ch : Fin 64) (s : State) : Host.Outcome State Fault Refusal :=
  .next (if s.wghRuns then s.closeSeal ch else s)

/-- Close the seals whose required line is not asserted (R508). -/
def State.sealLines (s : State) : State :=
  (List.range 64).foldl (fun (s : State) ch =>
    let x := s.committed ch
    if s.sealOpen ch && x.line.getLsbD 9 && !s.lineAsserted x then s.closeSeal ch else s) s

/-- R508: a seal line deasserts, at the polarity of the channels that require it. -/
def execSealLineDeassert (n : Fin 192) (s : State) : Host.Outcome State Fault Refusal :=
  .next <|
    let user := (List.range 64).find? (fun ch => (s.committed ch).line.getLsbD 9 && getF (s.committed ch).line 0 8 == n)
    match user with
    | some ch => (s.lineLevel n ((s.committed ch).line.getLsbD 8)).sealLines
    | none => s

/-- R546: the level of a line's input changes; a seal line that deasserts closes its seals. -/
def execGpCondition (n : Fin 192) (lvl : Bool) (s : State) : Host.Outcome State Fault Refusal :=
  .next (if s.lioRuns && s.get (F.GPIO.GP.FUNC n) != 0 then (s.lineLevel n lvl).sealLines else s)

/-- The filter governor's new K and MOTION_WIN for a channel, if it would change them (R509). -/
def State.filterWish (s : State) (ch : Nat) : Option (Nat × Nat) :=
  let p := pgCh ch
  let x := s.committed ch
  let w := s.wc ch
  let noise := (s.reg (R.CH.NOISE p)).toNat
  let k := s.get (F.CH.IIR_K.K p)
  let mw := s.get (F.CH.MOTION_WIN.MW p)
  let wish :=
    if s.chState ch != 1 && s.chState ch != 2 then none
    else if s.get F.GFIL.FCFG.MOTION_S * x.rate ≤ w.motionRun ∧ 0 < w.motionRun ∧ s.get F.GFIL.FCFG.NOISE_HI * x.e 0 * 16384 < noise then
      some (min x.kMax (k + 1), min x.mwMax (mw + x.mwMin / 4))
    else if s.get F.GFIL.FCFG.ZERO_S * x.rate ≤ w.zeroRun ∧ 0 < w.zeroRun ∧ noise < s.get F.GFIL.FCFG.NOISE_LO * x.e 0 * 16384 then
      some (max x.kMin (k - 1), max x.mwMin (mw - x.mwMin / 4))
    else none
  wish.filter (fun q => q != (k, mw))

/-- R509: the filter governor changes, or proposes to change, a channel's filter. -/
def execFilterAdjust (ch : Fin 64) (s : State) : Host.Outcome State Fault Refusal :=
  .next <|
    let p := pgCh ch
    if !s.wghRuns || !s.enabled pgGFIL then s
    else match s.filterWish ch with
      | none => s
      | some (k, mw) =>
        match s.get (F.GALL.GCTRL.MODE pgGFIL) with
        | 1 => ((s.setFilter ch k mw).modWc ch (fun w => { w with motionRun := 0, zeroRun := 0 })).govActed pgGFIL 6
        | 2 => ((s.setReg (R.CH.FGOV_SUGGEST p) (BitVec.ofNat 40 (k + 16 * mw + 4096))).event 0x0F07 0x0F 0 ch k mw).suggest pgGFIL 6 ch k
        | _ => s

/-! ### Restart and reset (R512) -/

/-- IIR_K and MOTION_WIN return to their reset values, the sealed lower bounds (R514). -/
def State.filterReset (s : State) (ch : Nat) : State :=
  let p := pgCh ch
  let x := s.committed ch
  (s.put (F.CH.IIR_K.K p) x.kMin).put (F.CH.MOTION_WIN.MW p) x.mwMin

/-- A reset of the engine: of a channel, the taps of the sealed set stay beside its registers. -/
def State.wghReset (s : State) : State :=
  let s1 := (s.weigh.map (·.1)).foldl (fun (s : State) ch => s.setWc ch { Weigh.init with taps := (s.wc ch).taps }) s
  (List.range 64).foldl State.filterReset { s1 with qports := s1.qports.set 10 [] }

/-- A block restart, after the class-b fields: ZERO_OFF, tare, checks, held elements and staging copies are lost. The seals that
were open close, each with whether its copy was staged, and enabled channels re-enter STARTING. -/
def State.wghRestart (s : State) (seals : List (Nat × Nat)) : State :=
  let s1 := seals.foldl (fun (s : State) q => (s.pageInt pgWGH 2).event 0x0F04 0x0F 0 q.1 q.2 0) s
  (List.range 64).foldl (fun (s : State) ch => if s.flag (F.CH.CH_CTRL.ENABLE (pgCh ch)) then s.toStarting ch else s) s1.wghReset

end Sys2Proof.Machine
end

