-- ==== Sys2Proof/Machine/Governors.lean ====
section
/-! DEFINITION. The governors and continuous service: power and thermal, core substitution and the comet pass, DRAM
errors and frame retirement, wear, modes and proposals, and the code-update handover (R621–R652). -/

namespace Sys2Proof.Machine

/-- MODE of a governor page (R622): 0 off, 1 auto, 2 advise. -/
def State.govMode (s : State) (p : Nat) : Nat := s.get (F.GALL.GCTRL.MODE p)

/-! ### Power and thermal (R625–R629) -/

/-- A cluster's step (R626). -/
def State.stepOf (s : State) (n : Nat) : Nat := s.get (F.CLU.CLK_STATUS.STEP (pgClu n))

/-- Set a cluster's step, counting the change (R651). -/
def State.setStep (s : State) (n st : Nat) : State :=
  if s.stepOf n = st then s
  else (s.put (F.CLU.CLK_STATUS.STEP (pgClu n)) st).bump (F.CLU.CLK_STATUS.CHANGES (pgClu n)) 1

/-- The fastest cluster's step. -/
def State.fastest (s : State) : Nat := (List.range 8).foldl (fun m n => min m (s.stepOf n)) 3

def State.vddEntry (s : State) (st : Nat) : Nat := s.get (F.GPWR.VDD_TABLE.MV st)

/-- VDD follows the fastest cluster's step while AVS is 1 (R627): lowered at once, raised unless raising is held. A step
up that waits already has its voltage commanded. -/
def State.avsSettle (s : State) : State :=
  if !s.flag F.GPWR.PMB_CFG.AVS then { s with vdd := none }
  else
    let want := s.vddEntry (match s.pwrUp with | some q => min q.2 s.fastest | none => s.fastest)
    match s.vdd with
    | none => { s with vdd := some want }
    | some v => if v < want ∧ s.pmbHold then s else { s with vdd := some want }

/-- Step a cluster up: at once, or once a raised voltage is confirmed (R627). Answers whether it stepped. -/
def State.stepUp (s : State) (n st : Nat) : Bool × State :=
  let want := s.vddEntry (min st s.fastest)
  let raise := s.flag F.GPWR.PMB_CFG.AVS && (match s.vdd with | some v => decide (v < want) | none => false)
  if raise then (false, { s with vdd := some want, pwrUp := some (n, st) }) else (true, (s.setStep n st).avsSettle)

/-- May clusters step up now (R627, R629)? -/
def State.mayStepUp (s : State) : Bool := s.pwrUp.isNone && !s.pmbHold

def State.prioOf (s : State) (n : Nat) : Nat := s.get (F.GPWR.CLU_PRIO.PRIO n)

/-- The cluster to step down among those a predicate allows (R625): the lowest priority, then the fastest, then the
highest-numbered. -/
def State.downChoice (s : State) (ok : Nat → Bool) : Option Nat :=
  ((List.range 8).filter ok).foldl (fun b n => match b with
    | none => some n
    | some m => if s.prioOf n < s.prioOf m ∨ (s.prioOf n = s.prioOf m ∧ s.stepOf n ≤ s.stepOf m) then some n else some m) none

/-- The cluster to step up: the highest priority, then the slowest, then the lowest-numbered. -/
def State.upChoice (s : State) (ok : Nat → Bool) : Option Nat :=
  ((List.range 8).filter ok).foldl (fun b n => match b with
    | none => some n
    | some m => if s.prioOf m < s.prioOf n ∨ (s.prioOf n = s.prioOf m ∧ s.stepOf m < s.stepOf n) then some n else some m) none

/-- The junction limit ends once every cluster is back at its earlier step (R628). -/
def State.tripEnd (s : State) : State :=
  match s.trip with
  | some l => if (List.range 8).all (fun n => s.stepOf n ≤ l.getD n 0) then { s.put F.GPWR.TEMP.TRIP 0 with trip := none, coolRun := 0 } else s
  | none => s

/-- A sensor reads 95 °C or above (R628). -/
def State.junction (s : State) (sensor temp : Nat) : State :=
  let s1 := match s.trip with
    | some _ => s
    | none => ({ s with trip := some ((List.range 8).map s.stepOf) }.put F.GPWR.TEMP.TRIP 1).event 0x1702 0x17 4 sensor temp 0
  let s2 := (List.range 8).foldl (fun s n => s.setStep n 3) { s1 with pwrUp := none, coolRun := 0, pwrRun := 0 }
  s2.avsSettle

/-- A sample while the junction limit is in force: clusters return one step per sample once all sensors have read below
90 °C for 1 s. -/
def State.coolSample (s : State) (temp : Nat) : State :=
  let s1 := { s with coolRun := if temp < 90 then min 1000 (s.coolRun + 1) else 0 }
  if s1.coolRun < 1000 ∨ !s1.mayStepUp then s1
  else match s1.trip with
    | some l =>
      (match s1.upChoice (fun n => decide (l.getD n 0 < s1.stepOf n)) with
        | some n => (s1.stepUp n (s1.stepOf n - 1)).2
        | none => s1).tripEnd
    | none => s1

/-- The choice of R625 in auto or advise mode. -/
def State.powerStep (s : State) (mw temp : Nat) : State :=
  let mode := s.govMode pgGPWR
  let low := decide (mw + s.get F.GPWR.HYST.MW < s.get F.GPWR.BUDGET.MW) && decide (temp + 5 < s.get F.GPWR.TJ_LIMIT.C)
  let s1 := { s with pwrRun := if low then s.pwrRun + 1 else 0 }
  if s.get F.GPWR.BUDGET.MW < mw ∨ s.get F.GPWR.TJ_LIMIT.C < temp then
    match s1.downChoice (fun n => decide (s1.stepOf n < s1.get (F.GPWR.CLU_LIMITS.MAXSTEP n))) with
    | some n =>
      if mode = 1 then (({ s1 with pwrRun := 0 }.setStep n (s1.stepOf n + 1)).avsSettle).govActed pgGPWR 1
      else s1.suggest pgGPWR 1 n (s1.stepOf n + 1)
    | none => s1
  else if 100 ≤ s1.pwrRun ∧ s1.mayStepUp then
    match s1.upChoice (fun n => decide (s1.get (F.GPWR.CLU_LIMITS.MINSTEP n) < s1.stepOf n)) with
    | some n =>
      if mode = 1 then
        match { s1 with pwrRun := 0 }.stepUp n (s1.stepOf n - 1) with
        | (true, s2) => s2.govActed pgGPWR 2
        | (false, s2) => s2
      else s1.suggest pgGPWR 2 n (s1.stepOf n - 1)
    | none => s1
  else s1

/-- A power sample (R625, R628): the sum of the sensors in mW, and the hottest sensor. -/
def State.powerSample (s : State) (mw temp sensor : Nat) : State :=
  let s1 := (s.put F.GPWR.POWER_NOW.MW mw).put F.GPWR.POWER_NOW.PEAK (max mw (s.get F.GPWR.POWER_NOW.PEAK))
  let s2 := ((s1.put F.GPWR.TEMP.HOT temp).put F.GPWR.TEMP.SENSOR sensor).put F.GPWR.TEMP.PEAK (max temp (s.get F.GPWR.TEMP.PEAK))
  if 95 ≤ temp then s2.junction sensor temp
  else if s2.trip.isSome then s2.coolSample temp
  else if s2.govMode pgGPWR = 0 then { s2 with pwrRun := 0 }
  else s2.powerStep mw temp

/-- The hottest of the sensors, the lowest-numbered among equals: its reading and number. -/
def hottest (l : List Nat) : Nat × Nat :=
  (l.zipIdx).foldl (fun b t => if b.1 < t.1 then t else b) (l.headD 0, 0)

/-- Do the governors act: powered, not frozen, and the boot complete (R669)? -/
def State.govRuns (s : State) : Bool := s.live pgGOV && s.boot == .done

/-! ### Moving contexts between cores (R632–R634) -/

/-- The context registers of a core page, which follow the logical core (R300, R651). -/
def ctxRegs : List Nat :=
  [0x50] ++ (List.range 8).flatMap (fun c => [0x100 + 0x20 * c, 0x108 + 0x20 * c, 0x110 + 0x20 * c, 0x118 + 0x20 * c, 0x200 + 8 * c])

/-- Move the context registers from one core page to another. -/
def State.moveRegs (s : State) (src dst : Nat) : State :=
  ctxRegs.foldl (fun s o => (s.setReg (dst + o) (s.reg (src + o))).setReg (src + o) (resetValue (src + o))) s

/-- A running context stops at its boundary after its landings, and stays the running one (R633 step 3). -/
def State.pauseCore (s : State) (k : Nat) : State :=
  (coreCids k).foldl (fun s c => if (s.cx c).run == .running then (s.stopStr c).modCx c Ctx.land else s) s

/-- A move of a logical core to another physical core (R633); `drain` empties its store buffer. While the contexts move, both core
pages show MOVING, so a buffered store to a context register is refused (R303). TLB, walk cache, key cache and line buffer
start empty on the new core (R337). The caller sets SPARE. The move is one step. DEDUCED, log 101. -/
def State.moveCore (drain : State → Nat → State) (s : State) (clu lc dst : Nat) : State :=
  let k := 8 * clu + lc
  let src := s.physOf clu lc
  let moving (on : Nat) (s : State) : State :=
    (s.put (F.CORE.CORE_STATUS.MOVING (pgCore clu src)) on).put (F.CORE.CORE_STATUS.MOVING (pgCore clu dst)) on
  let s1 := moving 0 (drain (moving 1 (s.pauseCore k)) k)
  let s2 := s1.setCore k { (s1.core_ k).emptyCaches with lines := [] }
  (s2.moveRegs (pgCore clu src) (pgCore clu dst)).put (F.CLU.CORE_MAP.LC (pgClu clu) lc) dst

def State.spareOf (s : State) (clu : Nat) : Nat := s.get (F.CLU.CORE_MAP.SPARE (pgClu clu))
def State.setSpare (s : State) (clu n : Nat) : State := s.put (F.CLU.CORE_MAP.SPARE (pgClu clu)) n

/-- Is a logical core in a joined pair (R117)? -/
def State.joined (s : State) (clu lc : Nat) : Bool := s.flag (F.CLU.CONJ_STATUS.JOINED (pgClu clu) (lc / 2))

/-- Is a cluster in partial eclipse, or entering it? -/
def State.clusterFrozen (s : State) (clu : Nat) : Bool := s.eclPart == some clu || s.eclWait.any (·.1 == clu)

/-- FAILED bits of a cluster (R631). -/
def failedFld (clu : Nat) : Fld := if clu < 4 then F.GHEA.FAILED_LO.CLU clu else F.GHEA.FAILED_HI.CLU (clu - 4)
def State.failed (s : State) (clu phys : Nat) : Bool := bitOf (s.get (failedFld clu)) phys
def State.setFailed (s : State) (clu phys : Nat) (b : Bool) : State :=
  let m := s.get (failedFld clu)
  s.put (failedFld clu) (if bitOf m phys == b then m else if b then m + 2 ^ phys else m - 2 ^ phys)

/-- A self-test is over: ACTIVE and the command bits of COMET_CTRL read 0 again (R5). -/
def State.cometOver (s : State) : State :=
  ({ s with comet := none }.put F.GHEA.COMET_STATUS.ACTIVE 0).setReg R.GHEA.COMET_CTRL 0

/-- The physical core a self-test must stop for, in the cluster: the contexts move back and the spare is free (R646). -/
def State.stopTest (drain : State → Nat → State) (s : State) (clu : Nat) : State :=
  match s.comet with
  | some t =>
    if t.clu != clu then s
    else
      let s1 := s.cometOver.put (F.CORE.TEST.RESULT (pgCore clu t.phys)) 3
      if t.retest then s1 else (s1.moveCore drain clu t.lc t.phys).setSpare clu t.spare
  | none => s

/-! ### Substitution (R630–R632) -/

/-- A substitution is due; one logical core is due once. A joined pair is reported when it comes due (R117): the governor's
interrupt is bit 1 of the health page. DESIGN CHOICE, log 102. -/
def State.addSub (s : State) (clu lc phys : Nat) (unc : Bool) : State :=
  if s.subs.any (fun q => q.clu == clu && q.lc == lc && q.phys == phys) then s
  else
    let j := s.joined clu lc
    let s1 := { s with subs := s.subs ++ [{ clu := clu, lc := lc, phys := phys, unc := unc, noted := j }] }
    if j then (s1.event 0x1706 0x17 4 clu lc 0).pageInt pgGHEA 1 else s1

/-- The logical core that a physical core serves. -/
def State.serves (s : State) (clu phys : Nat) : Option Nat := (List.range 8).find? (fun l => s.physOf clu l == phys)

/-- Drop a substitution from those due. -/
def State.subDone (s : State) (q : SubReq) : State := { s with subs := s.subs.filter (fun r => !(r.clu == q.clu && r.lc == q.lc && r.phys == q.phys)) }

/-- Try a due substitution (R632, R646): performed, or it waits. Where the spare's own test is stopped first and the
failing core was that spare, the spare leaves service. -/
def State.trySub (drain : State → Nat → State) (s0 : State) (q : SubReq) : State :=
  let s := if s0.clusterFrozen q.clu then s0 else s0.stopTest drain q.clu
  if s.clusterFrozen q.clu || s.joined q.clu q.lc then s
  else if s.physOf q.clu q.lc != q.phys then
    let s1 := (s.subDone q).setFailed q.clu q.phys true
    if s1.spareOf q.clu = q.phys then s1.setSpare q.clu 0xF else s1
  else if s.spareOf q.clu = 0xF then
    if q.noted then s
    else
      let s1 := { s with subs := s.subs.map (fun (r : SubReq) => if r.clu == q.clu && r.lc == q.lc && r.phys == q.phys then { r with noted := true } else r) }
      s1.event 0x1706 0x17 4 q.clu q.lc 0
  else
    let s1 := ((s.moveCore drain q.clu q.lc (s.spareOf q.clu)).setSpare q.clu 0xF).setFailed q.clu q.phys true
    ((s1.subDone q).event 0x1703 0x17 3 (q.clu + 8 * q.lc) q.phys (b2n q.unc)).govActed pgGHEA 3

/-- Corrected errors of a core in the last CORE_THRESH.HOURS (R630), in ticks of 10 ns. -/
def State.ceWindow (s : State) (clu phys : Nat) : Nat :=
  let span := s.get F.GHEA.CORE_THRESH.HOURS * 360000000000
  min 65535 ((tabGet [] s.coreCe (9 * clu + phys)).filter (fun t => decide (s.ticks < t + span))).length

/-- A corrected error in a core (R630). DEDUCED, log 74. -/
def State.coreCorrected (s : State) (clu phys : Nat) : State :=
  let k := 9 * clu + phys
  let s1 := { s with coreCe := tabSet [] s.coreCe k (tabGet [] s.coreCe k ++ [s.ticks]) }.bumpSat (F.CORE.CE_COUNT.TOTAL (pgCore clu phys))
  match s1.serves clu phys with
  | none => s1
  | some lc =>
    if s1.ceWindow clu phys < s.get F.GHEA.CORE_THRESH.COUNT then s1
    else match s1.govMode pgGHEA with
      | 1 => s1.addSub clu lc phys false
      | 2 => s1.suggest pgGHEA 3 (8 * clu + lc) 0
      | _ => s1

/-- An uncorrectable error in a core's own state (R630): the core is substituted at once in every mode. -/
def State.coreUncorrectable (drain : State → Nat → State) (s : State) (clu lc : Nat) : State :=
  let p := s.physOf clu lc
  let s1 := s.addSub clu lc p true
  let s2 := if s.govMode pgGHEA = 2 then s1.suggest pgGHEA 3 (8 * clu + lc) 0 else s1
  match s2.subs.find? (fun q => q.clu == clu && q.lc == lc && q.phys == p) with
  | some q => s2.trySub drain q
  | none => s2

/-! ### The comet pass (R635, R636) -/

/-- The logical core a cluster's step takes: the next that is in no joined pair. -/
def State.cometPick (s : State) (clu : Nat) : Option Nat :=
  ((List.range 8).map (fun i => ((s.cometCore[clu]?).getD 0 + i) % 8)).find? (fun l => !s.joined clu l)

/-- Does the turn pass over a cluster? -/
def State.cometSkips (s : State) (clu : Nat) : Bool :=
  !s.enabled (pgClu clu) || s.spareOf clu == 0xF || (s.cometPick clu).isNone

/-- Start a step on a logical core: its contexts move to the spare and the self-test begins. DEDUCED, log 75. -/
def State.cometStart (drain : State → Nat → State) (s : State) (clu lc : Nat) : State :=
  let p := s.physOf clu lc
  let sp := s.spareOf clu
  let s1 := (s.moveCore drain clu lc sp).setSpare clu 0xF
  let s2 := { s1 with comet := some { clu := clu, lc := lc, phys := p, spare := sp, retest := false }, cometHeld := none }
  (((s2.put F.GHEA.COMET_STATUS.ACTIVE 1).put F.GHEA.COMET_STATUS.CLUSTER clu).put F.GHEA.COMET_STATUS.PHYS p).put F.GHEA.COMET_STATUS.LOGICAL lc

/-- Take the next step of the pass: the cluster whose turn it is, or the next that is not skipped. A cluster in partial
eclipse holds its step (R632). -/
def State.cometNext (drain : State → Nat → State) (s : State) : State :=
  if s.comet.isSome || s.cometHeld.isSome || s.cometBack.isSome then s
  else match ((List.range 8).map (fun i => (s.cometTurn + i) % 8)).find? (fun c => !s.cometSkips c) with
    | none => s
    | some clu =>
      match s.cometPick clu with
      | none => s
      | some lc =>
        let s1 := { s with cometTurn := (clu + 1) % 8, cometCore := s.cometCore.setIfInBounds clu ((lc + 1) % 8) }
        if s1.clusterFrozen clu then { s1 with cometHeld := some (clu, lc) } else s1.cometStart drain clu lc

/-- COMET_CTRL.RUN takes the next step at once (R635); RUN reads 1 until that step ends (R5). -/
def State.cometRun (drain : State → Nat → State) (s : State) : State :=
  let s1 := s.cometNext drain
  if (s1.comet.isSome && s.comet.isNone) || (s1.cometHeld.isSome && s.cometHeld.isNone) then s1.put F.GHEA.COMET_CTRL.RUN 1 else s1

/-- Retry what waits under R632. -/
def State.retrySubs (drain : State → Nat → State) (s : State) : State :=
  let s1 := s.subs.foldl (fun s q => s.trySub drain q) s
  match s1.cometHeld with
  | some (clu, lc) =>
    if s1.clusterFrozen clu || s1.joined clu lc || s1.spareOf clu == 0xF || s1.comet.isSome then s1 else s1.cometStart drain clu lc
  | none => s1

/-- A self-test ends (R636, and R631 for a retest). -/
def State.testDone (drain : State → Nat → State) (s : State) (pass : Bool) : State :=
  match s.comet with
  | none => s
  | some t =>
    let p := pgCore t.clu t.phys
    let s1 := s.cometOver.bump F.GHEA.COMET_STATUS.STEPS 1
    if pass then
      let s2 := ((s1.put (F.CORE.TEST.RESULT p) 1).bumpSat (F.CORE.TEST.PASSES p)).event 0x1704 0x17 0 t.clu t.phys 0
      if t.retest then
        let s3 := s2.setFailed t.clu t.phys false
        if t.phys = 8 then s3.setSpare t.clu 8
        else (s3.moveCore drain t.clu t.phys t.phys).setSpare t.clu t.spare
      else (s2.moveCore drain t.clu t.lc t.phys).setSpare t.clu t.spare
    else ((s1.put (F.CORE.TEST.RESULT p) 2).setFailed t.clu t.phys true).event 0x1705 0x17 4 t.clu t.phys 0

/-- COMET_CTRL.RETEST of a failed core (R631): its test begins while no other runs. -/
def State.retest (s : State) (clu phys : Nat) : Option State :=
  if s.comet.isSome || !s.failed clu phys || 8 < phys then none
  else
    let sp := if phys < 8 then s.physOf clu phys else 8
    let s1 := { s with comet := some { clu := clu, lc := phys % 8, phys := phys, spare := sp, retest := true } }
    some ((((s1.put F.GHEA.COMET_STATUS.ACTIVE 1).put F.GHEA.COMET_STATUS.CLUSTER clu).put F.GHEA.COMET_STATUS.PHYS phys).put
      F.GHEA.COMET_STATUS.LOGICAL phys)

/-- A partial eclipse of the cluster stops its self-test; the contexts move back at the thaw (R646). -/
def State.eclipseTest (s : State) (clu : Nat) : State :=
  match s.comet with
  | some t =>
    if t.clu = clu then
      { s.cometOver with cometBack := if t.retest then none else some t }.put (F.CORE.TEST.RESULT (pgCore clu t.phys)) 3
    else s
  | none => s

/-- At the thaw the contexts of a stopped test move back. -/
def State.thawTest (drain : State → Nat → State) (s : State) : State :=
  match s.cometBack with
  | some t => ({ s with cometBack := none }.moveCore drain t.clu t.lc t.phys).setSpare t.clu t.spare
  | none => s

/-! ### DRAM errors and frame retirement (R637–R640) -/

/-- A frame's request opens, or waits, or is lost (R638). -/
def State.openRetire (s : State) (frame cause : Nat) : State :=
  if s.flag F.GHEA.RETIRE_REQ.VALID then
    if s.get F.GHEA.RETIRE_REQ.FRAME = frame ∨ s.retireQ.any (·.1 == frame) then s
    else if s.retireQ.length < 16 then { s with retireQ := s.retireQ ++ [(frame, cause)] }
    else s.bumpSat F.GHEA.RETIRE_REQ.LOST
  else
    let s1 := ((s.put F.GHEA.RETIRE_REQ.FRAME frame).put F.GHEA.RETIRE_REQ.CAUSE cause).put F.GHEA.RETIRE_REQ.VALID 1
    let s2 := s1.pageInt pgGHEA 2
    if s.govMode pgGHEA = 2 then s2.suggest pgGHEA 4 frame cause else s2

/-- Does the governor ask for a frame's retirement: it is neither retired nor asked for already (R638, R646)? -/
def State.asksRetire (s : State) (frame : Nat) : Bool :=
  s.govMode pgGHEA != 0 && !(s.keyByte frame).getLsbD 6 && s.govRuns &&
    !(s.flag F.GHEA.RETIRE_REQ.VALID && (s.get F.GHEA.RETIRE_REQ.FRAME == frame || s.retireQ.any (·.1 == frame)))

/-- A frame reaches its retirement condition (R638). -/
def State.frameBad (s : State) (frame cause : Nat) : State :=
  if s.asksRetire frame then (s.event 0x1707 0x17 2 (frame * 4096) cause 0).openRetire frame cause else s

/-- A corrected error in a frame: those within 24 h count (R638). -/
def State.frameCorrected (s : State) (frame : Nat) : State :=
  if s.govMode pgGHEA = 0 || !s.govRuns then s
  else
    let l := (tabGet [] s.frameCe frame).filter (fun t => decide (s.ticks < t + 8640000000000)) ++ [s.ticks]
    let s1 := { s with frameCe := tabSet [] s.frameCe frame l }
    if l.length < s.get F.GHEA.FRAME_THRESH.COUNT then s1 else s1.frameBad frame 1

/-- The open request closes and the next one opens. -/
def State.closeRetire (s : State) : State :=
  let s1 := ((s.put F.GHEA.RETIRE_REQ.VALID 0).put F.GHEA.RETIRE_REQ.FRAME 0).put F.GHEA.RETIRE_REQ.CAUSE 0
  match s1.retireQ with
  | [] => s1
  | (f, c) :: r => { s1 with retireQ := r }.openRetire f c

/-- Retire a frame (R639, R640): 0 by the governor, 1 confirmed, 2 direct. A full list refuses, at the register written or,
by the governor itself, at none. Answers whether it is retired. DEDUCED, log 77. -/
def State.retireFrame (s : State) (r : Requester) (off frame how : Nat) : Bool × State :=
  if s.retired.contains frame then (true, s)
  else if 256 ≤ s.retired.length then
    let cause := if s.flag F.GHEA.RETIRE_REQ.VALID && s.get F.GHEA.RETIRE_REQ.FRAME == frame then s.get F.GHEA.RETIRE_REQ.CAUSE else 0
    (false, (s.pageErr pgGHEA 0x15 off r (r != .engine)).event 0x1707 0x17 2 (frame * 4096) cause 1)
  else
    let s1 := { s with retired := s.retired ++ [frame] }.setKeyByte frame (s.keyByte frame ||| 0x40#8)
    (true, (s1.put F.GHEA.LIST_COUNT.COUNT (s.retired.length + 1)).event 0x1708 0x17 1 (frame * 4096) how (s.retired.length + 1))

/-- Retire the frame of the open request; the governor's own retirement counts as its action. -/
def State.retireOpen (s : State) (r : Requester) (off how : Nat) : State :=
  match s.retireFrame r off (s.get F.GHEA.RETIRE_REQ.FRAME) how with
  | (true, s1) => if how = 0 then s1.closeRetire.govActed pgGHEA 4 else s1.closeRetire
  | (false, s1) => s1

/-- A write of RETIRE_CTRL (R639). -/
def State.wRetire (s : State) (r : Requester) (v : Word) : State :=
  match getF v 0 2 with
  | 1 => if s.flag F.GHEA.RETIRE_REQ.VALID then s.retireOpen r 0x98 1 else s.pageErr pgGHEA 0x14 0x98 r true
  | 2 => if s.flag F.GHEA.RETIRE_REQ.VALID then s.closeRetire else s.pageErr pgGHEA 0x14 0x98 r true
  | 3 =>
    let f := getF v 2 28
    if s.keyed (f * 4096) then
      match s.retireFrame r 0x98 f 2 with
      | (true, s1) => if s1.flag F.GHEA.RETIRE_REQ.VALID && s1.get F.GHEA.RETIRE_REQ.FRAME == f then s1.closeRetire else s1
      | (false, s1) => s1
    else s.pageErr pgGHEA 0x13 0x98 r true
  | _ => s

/-- The patrol scrub reads a line (R637): an uncorrectable one is marked, with event 0x1707 in every mode. -/
def State.patrolScrub (s : State) (line : Nat) (e : EccErr) : State :=
  if !s.flag F.GHEA.SCRUB_CFG.EN || !s.inDram (64 * line) 64 then s
  else match e with
    | .none => s
    | .corrected => s.frameCorrected (line / 64)
    | .uncorrectable =>
      let s1 := s.markUe line
      if s1.asksRetire (line / 64) then s1.frameBad (line / 64) 3 else s1.event 0x1707 0x17 2 (line / 64 * 4096) 3 0

/-! ### Wear (R641) -/

/-- Erases at which LIFE reads 2 or less, from the erase part of R463. DEDUCED, log 78. -/
def lifeTwo (total : Nat) : Nat := total * 97 / 100 + 1

/-- The wear governor projects the days of an active cartridge from the measured rate. -/
def State.wearProject (s : State) (k rate : Nat) : State :=
  match (s.jslot k).cart with
  | none => s
  | some c =>
    if s.crtState k != 4 || s.govMode pgGWEA == 0 then s
    else
      let left := if s.life k ≤ 2 then 0 else lifeTwo (c.rated * (2 * c.blocks)) - (s.lifeCopy c.id).1
      let days := if rate = 0 then 65535 else min 65535 (left / rate)
      let s1 := (s.put (F.GWEA.PROJ.DAYS k) days).put (F.GWEA.PROJ.RATE k) rate
      let limit := s.get F.GWEA.ROLL_DAYS.DAYS
      if limit = 0 ∨ limit ≤ days ∨ !s.standby k then s1
      else if s.govMode pgGWEA = 1 then
        (((s1.wJrn .engine 0x78 2).getD s1).event 0x1709 0x17 2 k days 0).govActed pgGWEA 5
      else s1.suggest pgGWEA 5 k 0

/-! ### Live code update (R642–R644) -/

def halfBase (h : Nat) : Nat := 0xFE00000000 + 0x1000000 * h

/-- COMMIT holds the commit value (R670). -/
def State.halfCommitted (s : State) (h : Nat) : Bool := s.bytes (halfBase h + 4092) 4 == [0x43#8, 0x4D#8, 0x49#8, 0x54#8]

def halfVerified (h : Nat) : Fld := if h = 0 then F.CST.HALFA_STATUS.VERIFIED else F.CST.HALFB_STATUS.VERIFIED
def halfRunning (h : Nat) : Fld := if h = 0 then F.CST.HALFA_STATUS.RUNNING else F.CST.HALFB_STATUS.RUNNING

/-- START of a handover to a half (R642). DEDUCED, log 79. -/
def State.updStart (s : State) (h : Nat) : State :=
  let refuse (n : Nat) := (if s.get F.GOV.UPD_STATUS.STATE = 1 then s else s.put F.GOV.UPD_STATUS.STATE 3).put F.GOV.UPD_STATUS.REFUSE n
  if !s.halfCommitted h then refuse 1
  else if !s.flag (halfVerified h) then refuse 2
  else if s.get F.GOV.UPD_STATUS.STATE = 1 then refuse 3
  else if s.flag (halfRunning h) then refuse 4
  else
    let s1 := ledgerCids.foldl (fun s c =>
      (s.put (F.CORE.CTX_ROLESLOT.DONE (s.corePage c) (ctxNo c)) 0).put (F.CORE.CTX_ROLESLOT.NOENTRY (s.corePage c) (ctxNo c)) 0) s
    let n := (ledgerCids.filter (fun c => (s1.roleslot c).getLsbD 8)).length
    let s2 := { ((s1.put F.GOV.UPD_STATUS.STATE 1).put F.GOV.UPD_STATUS.REFUSE 0).put F.GOV.UPD_CTRL.START 1 with updHalf := h }
    (s2.event 0x170A 0x17 1 h n 0).updCheck

/-- A word of the half's header. -/
def State.halfField (s : State) (h off n : Nat) : Nat := leVal (s.bytes (halfBase h + off) n)

/-- The entry of a role slot in a half, if valid (R674): its code address. -/
def State.roleEntry (s : State) (h slot : Nat) : Option Word :=
  if s.halfField h 29 2 ≤ slot then none
  else
    let a := s.halfField h 26 3 + 8 * slot
    if bitOf (s.halfField h (a + 5) 1) 0 then some (BitVec.ofNat 40 (halfBase h + s.halfField h a 5)) else none

/-- Does a WAITQ of the context hand it over instead (R643)? -/
def State.handsOver (s : State) (c : Cid) : Bool := s.get F.GOV.UPD_STATUS.STATE == 1 && s.updAwaits c

/-- What a context holds once handed over to an entry (R643 steps 2 to 4). -/
def Ctx.handed (x : Ctx) (c : Cid) (entry : Word) : Ctx :=
  { x with pc := entry, sr := srReset c, d := x.d.set 0 (x.pc.setWidth 80), onVector := false }

/-- The handover of a context at its WAITQ, which has no effect itself (R643): into the new half, or NOENTRY.
DEDUCED, log 37. -/
def State.handOver (s : State) (c : Cid) : State :=
  let p := s.corePage c
  match s.roleEntry s.updHalf (s.get (F.CORE.CTX_ROLESLOT.SLOT p (ctxNo c))) with
  | some e => ((s.modCx c (fun x => x.handed c e)).put (F.CORE.CTX_ROLESLOT.DONE p (ctxNo c)) 1).updCheck
  | none => (s.put (F.CORE.CTX_ROLESLOT.NOENTRY p (ctxNo c)) 1).updCheck

/-! ### Modes, APPLY and register writes (R622, R623, R648–R650) -/

/-- Perform a proposed action (R624). -/
def State.perform' (drain : State → Nat → State) (s : State) (r : Requester) (action target value : Nat) : State :=
  match action with
  | 1 => (({ s with pwrRun := 0 }.setStep target value).avsSettle).govActed pgGPWR 1
  | 2 => match { s with pwrRun := 0 }.stepUp target value with | (true, s1) => s1.govActed pgGPWR 2 | (false, s1) => s1
  | 3 =>
    let q : SubReq := { clu := target / 8, lc := target % 8, phys := s.physOf (target / 8) (target % 8), unc := false, noted := false }
    let s1 := s.addSub q.clu q.lc q.phys false
    (match s1.subs.find? (fun x => x.clu == q.clu && x.lc == q.lc && x.phys == q.phys) with
      | some q => s1.trySub drain q
      | none => s1)
  | 4 => s.retireOpen r 0x40 0
  | 5 => ((s.wJrn .engine 0x78 2).getD s).govActed pgGWEA 5
  | 6 =>
    let p := pgCh target
    (s.setFilter target (s.get (F.CH.FGOV_SUGGEST.K p)) (s.get (F.CH.FGOV_SUGGEST.MW p))).govActed pgGFIL 6
  | _ => s.govActed pgGFLO 7

/-- GCTRL.APPLY (R623, R624). -/
def State.apply (drain : State → Nat → State) (s : State) (r : Requester) (p : Nat) : State :=
  let a := s.get (F.GALL.SUGGEST.ACTION p)
  let t := s.get (F.GALL.SUGGEST.TARGET p)
  let ok := a != 0 && (a != 2 || s.mayStepUp) && tabGet 0 s.sugAt p == s.targetState a t && (a != 4 || s.flag F.GHEA.RETIRE_REQ.VALID) && (a != 5 || s.standby t)
  if ok then (s.perform' drain r a t (s.get (F.GALL.SUGGEST.VALUE p))).setReg (R.GALL.SUGGEST p) 0
  else s.pageErr p 0x14 0x40 r true

/-- A write of GCTRL: MODE by a warden only. -/
def State.wGctrl (drain : State → Nat → State) (s : State) (r : Requester) (p : Nat) (v : Word) : State :=
  let old := s.govMode p
  let m := getF v 0 2
  let s1 := if m = old then s
    else if !reqWarden r then s.pageErr p 0x11 0x40 r true
    else if m = 3 then s.pageErr p 0x13 0x40 r true
    else
      let t := (s.put (F.GALL.GCTRL.MODE p) m).event 0x170E 0x17 1 (pageIdx p) old m
      if p = pgGFLO ∧ m = 0 then t.clearAges else t
  if v.getLsbD 2 then s1.apply drain r p else s1

/-- Writes on the power page (R648). -/
def State.wGpwr (s : State) (r : Requester) (off : Nat) (v : Word) : Option State :=
  let err (code : Nat) := some (s.pageErr pgGPWR code off r true)
  if (off == 0x60 || off == 0x78 || off == 0x90 || off == 0x98) && !(reqWarden r) then err 0x11
  else if off = 0x60 then (if getF v 0 17 < 20000 ∨ 80000 < getF v 0 17 then err 0x13 else none)
  else if off = 0x78 then (if getF v 0 8 < 60 ∨ 94 < getF v 0 8 then err 0x13 else none)
  else if off = 0x80 then (if getF v 0 16 < 500 ∨ 20000 < getF v 0 16 then err 0x13 else none)
  else if off = 0x90 then
    some (s.rangedWrite .gpwr r 0x13 R.GPWR.CLU_LIMITS v
      ((List.range 8).map (fun n => (4 * n, 4, decide (getF v (4 * n + 2) 2 < getF v (4 * n) 2)))))
  else if off = 0x98 then some ((s.setReg R.GPWR.PMB_CFG (v &&& 0xFF)).avsSettle)
  else if off = 0x800 then
    some ((s.rangedWrite .gpwr r 0x13 R.GPWR.VDD_TABLE v
      ((List.range 4).map (fun n => (10 * n, 10, decide (getF v (10 * n) 10 < 720) || decide (800 < getF v (10 * n) 10))))).avsSettle)
  else none

/-- Writes on the health page (R649). -/
def State.wGhea (drain : State → Nat → State) (s : State) (r : Requester) (off : Nat) (v : Word) : Option State :=
  let err (code : Nat) := some (s.pageErr pgGHEA code off r true)
  let hours := decide (getF v 0 8 < 1) || decide (168 < getF v 0 8)
  if off = 0x60 then
    some (s.rangedWrite .ghea r 0x13 R.GHEA.CORE_THRESH v
      [(0, 16, decide (getF v 0 16 < 1)), (16, 8, decide (getF v 16 8 < 1) || decide (168 < getF v 16 8))])
  else if off = 0x68 then some (s.rangedWrite .ghea r 0x13 R.GHEA.COMET_CFG v [(1, 16, decide (getF v 1 16 < 80))])
  else if off = 0x70 then
    let s1 := if v.getLsbD 0 && !s.flag F.GHEA.COMET_CTRL.RUN && s.govMode pgGHEA == 1 && s.govRuns then s.cometRun drain else s
    some (if v.getLsbD 1 && !s.flag F.GHEA.COMET_CTRL.RETEST then
        (if !reqWarden r then s1.pageErr pgGHEA 0x11 off r true
          else match s1.retest (getF v 2 3) (getF v 5 4) with
            | some s2 => s2.setReg R.GHEA.COMET_CTRL (v &&& 0x1FE)
            | none => s1.pageErr pgGHEA 0x14 off r true)
      else s1)
  else if off = 0x98 then some (s.wRetire r v)
  else if off = 0xA0 then (if getF v 0 12 < 1 ∨ 3600 < getF v 0 12 then err 0x13 else none)
  else if off = 0xA8 then (if getF v 0 8 < 1 then err 0x13 else none)
  else if off = 0xC8 then some (s.rangedWrite .ghea r 0x13 R.GHEA.SCRUB_CFG v [(0, 8, hours)])
  else if off = 0xD0 then
    (if !reqWarden r then err 0x11
      else some (if v.getLsbD 0 then { s with retired := [] }.put F.GHEA.LIST_COUNT.COUNT 0 else s))
  else none

/-- LIST_READ shows the entry of LIST_SEL (R649). -/
def State.rGhea (s : State) (off : Nat) : Option Word :=
  if off = 0xC0 then
    match s.retired[s.get F.GHEA.LIST_SEL.ENTRY]? with
    | some f => some (BitVec.ofNat 40 (f + 2 ^ 28))
    | none => some 0
  else none

/-- Writes on the wear, filter and flow pages (R650). -/
def State.wGoth (s : State) (r : Requester) (k : PageKind) (off : Nat) (v : Word) : Option State :=
  match k with
  | .gwea =>
    if off = 0x60 ∧ 1000 < getF v 0 10 then some (s.pageErr pgGWEA 0x13 off r true)
    else if off = 0x78 ∧ (getF v 0 6 < 1 ∨ 60 < getF v 0 6) then some (s.pageErr pgGWEA 0x13 off r true)
    else none
  | .gflo => if off = 0x60 ∧ (getF v 0 16 < 10 ∨ 60000 < getF v 0 16) then some (s.pageErr pgGFLO 0x13 off r true) else none
  | _ => none

/-- Writes on the GOV control page (R642, R644, R647): UPD_CTRL by a supervisor or warden. -/
def State.wGov (s : State) (r : Requester) (off : Nat) (v : Word) : Option State :=
  if off = 0x40 then
    let s1 := s.put F.GOV.UPD_CTRL.HALF (b2n (v.getLsbD 2))
    let s2 := if v.getLsbD 0 && reqSup r then s1.updStart (b2n (v.getLsbD 2)) else s1
    some (if v.getLsbD 1 && s2.get F.GOV.UPD_STATUS.STATE == 1 then
        ((s2.put F.GOV.UPD_STATUS.STATE 0).put F.GOV.UPD_STATUS.PENDING 0).put F.GOV.UPD_CTRL.START 0
      else s2)
  else if off = 0x50 then (if getF v 0 16 < 1 then some (s.pageErr pgGOV 0x13 off r true) else none)
  else none

/-- UPD_STATUS as read: PENDING counts the contexts a running handover waits for. -/
def State.rGov (s : State) (off : Nat) : Option Word :=
  if off = 0x48 ∧ s.get F.GOV.UPD_STATUS.STATE = 1 then some (putF (s.reg R.GOV.UPD_STATUS) 5 10 s.updPending) else none

/-- Restart of the GOV block (R645): open retirement requests are raised again. -/
def State.govRestart (s : State) (frame cause : Nat) (valid : Bool) : State :=
  if valid then (s.event 0x1707 0x17 2 (frame * 4096) cause 0).openRetire frame cause else s

/-- Does a self-test run on: the governors' block is powered, not frozen, and in service? A restart of GOV waits for it (R645). -/
def State.testRuns (s : State) : Bool := s.powered (domainOf pgGOV) && !s.frozen none && !s.stopped && s.boot == .done

/-! ### Commands -/

/-- POWER_SAMPLE (R625). -/
def execPowerSample (rails : Vector (BitVec 15) 24) (temps : Vector (BitVec 8) 16) (s : State) : Host.Outcome State Fault Refusal :=
  .next (if s.govRuns then
      let h := hottest (temps.toList.map BitVec.toNat)
      s.powerSample ((rails.toList.map BitVec.toNat).foldl (· + ·) 0) h.1 h.2
    else s)

/-- VOLTAGE_CONFIRMED (R627). -/
def execVoltageConfirmed (s : State) : Host.Outcome State Fault Refusal :=
  .next (match s.pwrUp with
    | some (n, st) =>
      if s.govRuns && !s.pmbHold then
        let s1 := ({ s with pwrUp := none, pwrRun := 0 }.setStep n st).avsSettle
        if s.trip.isSome then s1.tripEnd else s1.govActed pgGPWR 2
      else s
    | none => s)

/-- PMB_ALERT (R629): a low PMB_ALERT_N, or a transfer that failed three times. -/
def execPmbAlert (transfer : Bool) (s : State) : Host.Outcome State Fault Refusal :=
  .next (if s.govRuns then
      (({ s with pmbHold := true, pmbLow := s.pmbLow || !transfer }.event 0x170D 0x17 3 (s.get F.GPWR.PMB_CFG.ADDR) (b2n transfer) 0)).pageInt pgGPWR 2
    else s)

/-- PMB_ALERT_N_RELEASE (R629): the pin is high and a READ_VOUT has succeeded. -/
def execPmbAlertNRelease (s : State) : Host.Outcome State Fault Refusal :=
  .next (if s.govRuns then { s with pmbHold := false, pmbLow := false } else s)

/-- CORRECTED_ERROR (R630). -/
def execCorrectedError (clu : Fin 8) (phys : Fin 9) (s : State) : Host.Outcome State Fault Refusal :=
  .next (if s.govRuns && s.powered (2 + clu.val) then s.coreCorrected clu phys else s)

/-- PATROL_SCRUB (R637). -/
def execPatrolScrub (line : BitVec 34) (e : EccErr) (s : State) : Host.Outcome State Fault Refusal :=
  .next (if s.powered 15 && !s.frozen none && s.trained then s.patrolScrub line.toNat e else s)

/-- RETIRE_GRACE_EXPIRY (R639). -/
def execRetireGraceExpiry (s : State) : Host.Outcome State Fault Refusal :=
  .next (if s.govRuns && s.govMode pgGHEA == 1 && s.flag F.GHEA.RETIRE_REQ.VALID then s.retireOpen .engine 0 0 else s)

/-- WEAR_PROJECTION (R641): the rate is what the governor measured, in block erases per day. -/
def execWearProjection (slot : Fin 2) (rate : BitVec 24) (s : State) : Host.Outcome State Fault Refusal :=
  .next (if s.govRuns then s.wearProject slot rate.toNat else s)

/-- UPD_TIMEOUT_EXPIRY (R644). -/
def execUpdTimeoutExpiry (s : State) : Host.Outcome State Fault Refusal :=
  .next (if s.govRuns && s.get F.GOV.UPD_STATUS.STATE == 1 then
      ((s.put F.GOV.UPD_STATUS.PENDING s.updPending).event 0x170C 0x17 2 s.updPending 0 0).pageInt pgGOV 2
    else s)

end Sys2Proof.Machine
end

