-- ==== Sys2Proof/Machine/Net.lean ====
section
/-! DEFINITION. Ethernet (R554–R558, R586) and the timebase (R559–R561). -/

namespace Sys2Proof.Machine

/-! ### Ports -/

/-- Does the network block run, and a port of it? The registers of a port stand at index `pi p` of its page. -/
def State.netRuns (s : State) : Bool := s.live pgNET && s.enabled pgNET
def pi_ (p : Nat) : Nat := p % 16
def State.ethUp (s : State) (p : Nat) : Bool :=
  s.netRuns && s.flag (F.NPORT.PCFG.ENABLE (pgNport p) (pi_ p)) && s.flag (F.NPORT.PSTATUS.LINK (pgNport p) (pi_ p))

/-- A drop (R557): 1 FCS, 2 NOMATCH, 3 QFULL, 4 FIFO, 5 TXERR, counted and recorded. -/
def State.ethDrop (s : State) (p reason queue bit : Nat) : State :=
  let f : Fld := ⟨R.NPORT.DROPS (pgNport p) (pi_ p), 8 * (reason - 1), 8⟩
  ((s.bump f 1).setReg R.NET.DROP_LAST (BitVec.ofNat 40 (p + 32 * reason + 256 * queue))).pageInt pgNET bit

/-- A big-endian 16-bit field of a frame. -/
def be16 (f : List Byte) (i : Nat) : Nat := beVal ((f.drop i).take 2)

/-- Is the frame tagged, and the offset of its EtherType after any tag (R554)? -/
def tagged (f : List Byte) : Bool := be16 f 12 == 0x8100
def etherAt (f : List Byte) : Nat := if tagged f then 16 else 12
def etherType (f : List Byte) : Nat := be16 f (etherAt f)

/-- A PTP frame (R556): EtherType 0x88F7, or UDP to port 319 or 320. -/
def isPtp (f : List Byte) : Bool :=
  let e := etherType f
  let l3 := etherAt f + 2
  let udpAt := if e = 0x0800 ∧ (f.getD (l3 + 9) 0).toNat = 17 then some (l3 + 4 * ((f.getD l3 0).toNat % 16))
    else if e = 0x86DD ∧ (f.getD (l3 + 6) 0).toNat = 17 then some (l3 + 40) else none
  e == 0x88F7 || (match udpAt with
    | some u => decide (u + 4 ≤ f.length) && (be16 f (u + 2) == 319 || be16 f (u + 2) == 320)
    | none => false)

/-- The port's MAC address, byte 0 first. -/
def State.mac (s : State) (p : Nat) : List Byte :=
  beBytes 2 (s.get (F.NPORT.MAC_HI.ADDR (pgNport p) (pi_ p))) ++ leBytes 4 (s.get (F.NPORT.MAC_LO.ADDR (pgNport p) (pi_ p)))

/-- The address filter (R555). DEDUCED, log 71. -/
def State.macAccept (s : State) (p : Nat) (f : List Byte) : Bool :=
  let d := f.take 6
  d == s.mac p || d == List.replicate 6 0xFF || s.flag (F.NPORT.PCFG.PROMISC (pgNport p) (pi_ p)) ||
    ((d.getD 0 0).getLsbD 0 && s.flag (F.NPORT.PCFG.MCAST (pgNport p) (pi_ p)))

/-- Does a steering rule match a frame of a port (R555)? -/
def State.ruleMatches (s : State) (r p : Nat) (f : List Byte) : Bool :=
  let m := s.reg (R.NET.RULE_MATCH r)
  s.flag (F.NET.RULE_ACTION.VALID r) && (s.reg (R.NET.RULE_PORTS r)).getLsbD p &&
    (!m.getLsbD 12 || (tagged f && be16 f 14 % 4096 == getF m 0 12)) && (!m.getLsbD 13 || !tagged f) &&
    (!m.getLsbD 30 || etherType f == getF m 14 16) && (!m.getLsbD 31 || (f.getD 0 0).getLsbD 0)

/-! ### Receiving (R555–R557) -/

/-- A port's FIFO and the bytes in it. -/
def State.fifo (s : State) (p : Nat) : List NetFrame := tabGet [] s.netFifo p
def State.fifoBytes (s : State) (p : Nat) : Nat := ((s.fifo p).map (·.bytes.length)).sum

/-- PAUSE follows the FIFO's level (R557): sent above 48 KiB, lifted below 16 KiB. -/
def State.pauseLevel (s : State) (p : Nat) : State :=
  if s.flag (F.NPORT.PCFG.PAUSE_TX (pgNport p) (pi_ p)) then
    if 49152 < s.fifoBytes p then { s with pauseSent := s.pauseSent ||| (1#18 <<< p) }
    else if s.fifoBytes p < 16384 then { s with pauseSent := s.pauseSent &&& ~~~(1#18 <<< p) }
    else s
  else s

/-- Slots of an area, and whether an element of it is at the queue manager. -/
def State.netSlots (s : State) (a : Nat) : Nat := 2 ^ ((s.queue (s.get (F.NET.AREA_QUEUE.QUEUE a))).depth + 1)
def State.netBusy (s : State) (a : Nat) : Bool :=
  s.qports[11].any (fun o => match o.origin with | .net _ b => b == a | _ => false)

/-- Offer the frame at the head of a port's FIFO through its area (R556), once a transfer tag is free (R557); a frame longer than
its slot is dropped. With an area that is not VALID it waits. DEDUCED, log 71. -/
def State.netDeliver (s : State) (p : Nat) : State :=
  match s.fifo p with
  | [] => s
  | f :: r =>
    if s.netBusy f.area || !s.flag (F.NET.AREA_BASE.VALID f.area) || !s.portTagFree then s
    else
      let s1 := { s with netFifo := tabSet [] s.netFifo p r }
      let size := 64 * 2 ^ s.get (F.NET.AREA_BASE.SIZE f.area)
      let q := s.get (F.NET.AREA_QUEUE.QUEUE f.area)
      if size < f.bytes.length then (s1.ethDrop p 4 q 1).pauseLevel p
      else
        let addr := 4096 * s.get (F.NET.AREA_BASE.BASE f.area) + s.get (F.NET.AREA_QUEUE.NEXT f.area) % s.netSlots f.area * size
        let flags := b2n (tagged f.bytes) + 2 + 4 * b2n (isPtp f.bytes)
        ((s1.engineWrite addr f.bytes).offer 11 q 4 (0x3000 + p) (leBytes 5 addr ++ leBytes 2 f.bytes.length ++ leBytes 1 p ++ leBytes 1 f.rule ++
          leBytes 1 flags ++ leBytes 2 (if tagged f.bytes then be16 f.bytes 14 else 0) ++ leBytes 4 f.ns ++ leBytes 6 f.sec) (.net p f.area)).pauseLevel p

/-- The queue manager's answer: area 16 stands for a transmit report (R556–R558). -/
def State.netAck (s : State) (p a : Nat) (ok : Bool) : State :=
  if a = 16 then s
  else if ok then s.bump (F.NET.AREA_QUEUE.NEXT a) 1
  else s.ethDrop p 3 (s.get (F.NET.AREA_QUEUE.QUEUE a)) 1

/-- Every port offers what it can, lowest first (R583). -/
def State.netDrain (s : State) : State :=
  if s.netRuns then (s.netFifo.map (·.1)).foldl (fun (s : State) p => s.netDeliver p) s else s

/-- R555: a received frame, without its FCS, is filtered, steered and delivered. -/
def execEthRxFrame (p : Fin 18) (frame : List Byte) (fcs : Bool) (s : State) : Host.Outcome State Fault Refusal :=
  .next <|
    let n := frame.length + 4
    if !s.ethUp p then s
    else if !fcs || decide (n < 64) || decide (s.get (F.NPORT.PCFG.MAXLEN (pgNport p) (pi_ p)) < n) then s.ethDrop p 1 0 1
    else if !s.macAccept p frame then s
    else
      let s1 := s.bump (F.NPORT.RX_FRAMES.COUNT (pgNport p) (pi_ p)) 1
      match (List.range 64).find? (fun r => s1.ruleMatches r p frame) with
      | none => s1.ethDrop p 2 0 1
      | some r =>
        if s1.flag (F.NET.RULE_ACTION.DROP r) then s1.ethDrop p 2 0 1
        else if 65536 < s1.fifoBytes p + frame.length then s1.ethDrop p 4 0 1
        else
          let f : NetFrame := { bytes := frame, rule := r, area := s1.get (F.NET.RULE_ACTION.AREA r), sec := s1.tbSec, ns := s1.tbNs }
          ((({ s1 with netFifo := tabSet [] s1.netFifo p (s1.fifo p ++ [f]) } : State).pauseLevel p)).netDeliver p

/-- R557: a received PAUSE holds transmission while PAUSE_RX is 1; quanta of 0 release it. -/
def execPauseRx (p : Fin 18) (quanta : BitVec 16) (s : State) : Host.Outcome State Fault Refusal :=
  .next <|
    if s.ethUp p && s.flag (F.NPORT.PCFG.PAUSE_RX (pgNport p) (pi_ p)) then
      s.put (F.NPORT.PSTATUS.PAUSED (pgNport p) (pi_ p)) (b2n (quanta != 0))
    else s

/-- R557: the pause time runs out. -/
def execPauseQuantaExpiry (p : Fin 18) (s : State) : Host.Outcome State Fault Refusal :=
  .next (s.put (F.NPORT.PSTATUS.PAUSED (pgNport p) (pi_ p)) 0)

/-! ### Transmitting (R558, R560) -/

/-- Replace bytes of a frame from an offset. -/
def patch (f : List Byte) (i : Nat) (bs : List Byte) : List Byte := f.take i ++ bs ++ f.drop (i + bs.length)

/-- The frame of a transmit element, without padding, or none when it breaks a rule of R558. -/
def State.ethFrame (s : State) (p : Nat) (e : List Byte) : Option (List Byte) :=
  let pl := e.drop 8
  let addr := leVal (pl.take 5)
  let n := leVal ((pl.drop 5).take 2)
  let fl := pl.getD 7 0
  let ts := leVal ((pl.drop 8).take 2)
  let cs := leVal ((pl.drop 10).take 2)
  let one := fl.getLsbD 1
  let udp := fl.getLsbD 2
  if elType e = 0x41 ∧ 1 ≤ n ∧ n + 4 ≤ s.get (F.NPORT.PCFG.MAXLEN (pgNport p) (pi_ p)) ∧ fl.toNat < 16 ∧ s.inDram addr n ∧
      (List.range ((addr + n - 1) / 4096 - addr / 4096 + 1)).all (fun i => (s.keyByte (addr / 4096 + i)).toNat % 16 == s.get F.NET.CFG.TX_KEY) ∧
      (one = true → ts + 10 ≤ n) ∧ (udp = true → cs + 2 ≤ n) then
    let b := s.bytes addr n
    let b1 := if one then patch b ts (beBytes 6 s.tbSec ++ beBytes 4 s.tbNs) else b
    some (if udp then patch b1 cs [0, 0] else b1)
  else none

/-- Does a port transmit now: up, its queue enabled, not paused? -/
def State.ethOpen (s : State) (p : Nat) : Bool :=
  s.ethUp p && s.flag (F.NPORT.TXQ.ENABLE (pgNport p) (pi_ p)) && !s.flag (F.NPORT.PSTATUS.PAUSED (pgNport p) (pi_ p))

/-- Can the network take the head of a queue now, for a port that names it? -/
def State.ethServes (s : State) (q : Nat) : Bool :=
  (List.range 18).any (fun p => s.ethOpen p && s.get (F.NPORT.TXQ.QUEUE (pgNport p) (pi_ p)) == q) && (s.hwHead q).1.isSome

/-- R558: a port takes its next transmit element, when the choice among the network's queues falls on its queue (R424, R427) and a
transfer tag is free (R25), and sends its frame, padded to 60 bytes. -/
def execEthTx (p : Fin 18) (s : State) : Host.Outcome State Fault Refusal :=
  .next <|
    let g := pgNport p
    let q := s.get (F.NPORT.TXQ.QUEUE g (pi_ p))
    if !s.ethOpen p || !s.portTagFree || s.chosenQueue 3 s.ethServes != some q then s
    else match s.hwHead q with
      | (none, s1) => s1
      | (some e, s1) =>
        let s2 := s1.hwTake q
        match s1.ethFrame p e with
        | none => s2.ethDrop p 5 q 2
        | some f =>
          let fl := e.getD 15 0
          let s3 := { s2.bump (F.NPORT.TX_FRAMES.COUNT g (pi_ p)) 1 with
            wire := tabIns s2.wire (512 + p.val) (f ++ List.replicate (60 - f.length) 0) }
          if fl.getLsbD 0 || fl.getLsbD 3 then
            { s3 with txReports := s3.txReports ++ [{ port := p, tag := leVal ((e.drop 20).take 2), ts := fl.getLsbD 0, sec := s3.tbSec, ns := s3.tbNs }] }
          else s3

/-- R558: after the last bit has left, the report is offered on TS_QUEUE. -/
def execTxreport (p : Fin 18) (s : State) : Host.Outcome State Fault Refusal :=
  .next <|
    match s.txReports.find? (fun r => r.port == p.val) with
    | none => s
    | some r =>
      let s1 := { s with txReports := s.txReports.erase r }
      if s.netRuns && s.flag F.NET.TS_QUEUE.VALID then
        s1.offer 11 (s.get F.NET.TS_QUEUE.QUEUE) 4 (0x3000 + p.val) (leBytes 5 0 ++ leBytes 2 r.tag ++ leBytes 1 p.val ++ leBytes 1 0 ++
          leBytes 1 (128 + 2 * b2n r.ts) ++ leBytes 2 0 ++ (if r.ts then leBytes 4 r.ns ++ leBytes 6 r.sec else List.replicate 10 0)) (.net p 16)
      else s1

/-- R589: a link goes up or down. An SGMII port without auto-negotiation takes its speed from PCFG. -/
def execEthLinkChange (p : Fin 18) (up : Bool) (speed : BitVec 2) (s : State) : Host.Outcome State Fault Refusal :=
  .next <|
    let g := pgNport p
    let sp := if 16 ≤ p.val ∨ !up then 0 else if s.flag (F.NPORT.PCFG.AN g (pi_ p)) then speed.toNat else s.get (F.NPORT.PCFG.SPEED g (pi_ p))
    if s.netRuns && (!up || (s.flag (F.NPORT.PCFG.ENABLE g (pi_ p)) && s.refClk 1)) then
      let s1 := ((s.put (F.NPORT.PSTATUS.LINK g (pi_ p)) (b2n up)).put (F.NPORT.PSTATUS.SPEED g (pi_ p)) sp).event 0x1101 0x11 1 p (b2n up) sp
      if up then s1 else s1.put (F.NPORT.PSTATUS.PAUSED g (pi_ p)) 0
    else s

/-! ### Writes (R586) -/

/-- Writes on the control page. -/
def State.wNet (s : State) (r : Requester) (a : Nat) (v : Word) : Option State :=
  let off := a % 4096
  let err := fun c => s.pageErr pgNET c off r true
  let plain := s.plainWrite .net a v
  if 0x700 ≤ off ∧ off < 0x800 then
    let i := (off - 0x700) / 0x10
    some <|
      if (off - 0x700) % 0x10 = 0 then
        if s.flag (F.NET.AREA_BASE.VALID i) then
          (if (v ^^^ s.reg a) &&& 0xFFFFFFF00F == 0 then s else err 0x13).put (F.NET.AREA_BASE.VALID i) (b2n (v.getLsbD 4))
        else if v.getLsbD 4 && (decide (getF v 0 4 < 5) || decide (8 < getF v 0 4)) then err 0x13
        else if v.getLsbD 4 && !s.inDram (4096 * getF v 12 28) (s.netSlots i * 64 * 2 ^ getF v 0 4) then err 0x12
        else plain.netDrain
      else if s.flag (F.NET.AREA_BASE.VALID i) && getF v 0 13 != s.get (F.NET.AREA_QUEUE.QUEUE i) then err 0x13
      else plain
  else if 0x100 ≤ off ∧ off < 0x700 ∧ (off - 0x100) % 0x18 = 0 then
    some (if v.getLsbD 12 && v.getLsbD 13 then err 0x13 else plain)
  else none

/-- Writes on a port page. An out-of-range MAXLEN or SPEED keeps its value; the MAC address is written only while the port is
off. -/
def State.wNport (s : State) (r : Requester) (a : Nat) (v : Word) : Option State :=
  let off := a % 4096
  let g := pageBase a
  let j := (off - 0x40) / 0x40
  let tenG := pageIdx a == 2
  let err := fun (s : State) c => s.pageErr g c off r true
  let plain := fun (s : State) (v : Word) => s.plainWrite .nport a v
  match (off - 0x40) % 0x40 with
  | 0x00 =>
    some <|
      s.rangedWrite .nport r 0x13 a (if tenG then putF v 5 1 0 else v)
        [(8, 14, decide (getF v 8 14 < 64) || decide (9216 < getF v 8 14)), (6, 2, decide (getF v 6 2 = 3))]
  | 0x08 | 0x10 => some (if s.flag (F.NPORT.PCFG.ENABLE g j) then s else plain s v)
  | 0x18 => some (if (s.queue (getF v 0 13)).ckind != 3 then err s 0x12 else plain s v)
  | _ => none

/-! ### The timebase (R559–R561) -/

/-- The timebase in nanoseconds, and setting it. -/
def State.tbTotal (s : State) : Nat := 1000000000 * s.tbSec + s.tbNs
def State.setTb (s : State) (ns : Int) : State :=
  let n := (ns % ((1000000000 * 2 ^ 48 : Nat) : Int)).toNat
  { s with tbSec := n / 1000000000, tbNs := n % 1000000000 }

/-- TB_RATE's value. -/
def State.tbRate (s : State) : Int := sint 28 (s.get F.TB.TB_RATE.RATE)

/-- One TCLK (R559): 10 ns and TB_RATE × 2^−32 ns; the fraction carries. -/
def State.tbTick (s : State) : State :=
  let acc : Int := (s.tbFrac : Int) + s.tbRate + 10 * (2 ^ 32 : Nat)
  let whole := acc / ((2 ^ 32 : Nat) : Int)
  { s.setTb ((s.tbTotal : Int) + whole) with tbFrac := (acc % ((2 ^ 32 : Nat) : Int)).toNat }

/-- Step by a signed number of nanoseconds; running backwards writes event 0x1102 (R561). -/
def State.tbStep (s : State) (off : Int) : State :=
  let s1 := s.setTb ((s.tbTotal : Int) + off)
  if off < 0 then s1.event 0x1102 0x11 1 (umod 40 off) 0 0 else s1

/-- Latch the timebase (R561). -/
def State.tbSnap (s : State) : State :=
  ((s.setReg R.TB.TB_NS (BitVec.ofNat 40 s.tbNs)).setReg R.TB.TB_SEC (BitVec.ofNat 40 s.tbSec)).setReg R.TB.TB_SEC_HI (BitVec.ofNat 40 (s.tbSec / 2 ^ 40))

/-- Writes on the timebase page. A device that follows the Ixlink ignores TB_RATE, STEP and SET. -/
def State.wTb (s : State) (r : Requester) (off : Nat) (v : Word) : Option State :=
  let follows := s.flag F.TB.TB_CTRL.SOURCE
  let err := fun (s : State) c => s.pageErr pgTB c off r true
  if off = 0x40 then
    let s1 := if v.getLsbD 0 then s.tbSnap else s
    some <|
      if (v.getLsbD 1 || v.getLsbD 2) && follows then err s1 0x14
      else
        let s2 := if v.getLsbD 1 then s1.tbStep (s1.reg R.TB.TB_OFFSET).toInt else s1
        if v.getLsbD 2 then
          let off := ((1000000000 * (s2.reg R.TB.TB_SET_SEC).toNat : Nat) : Int) - s2.tbTotal
          { s2.tbStep off with tbFrac := 0 }
        else s2
  else if off = 0x60 then
    some (if follows then err s 0x14
      else if 42949672 < (sint 28 (getF v 0 28)).natAbs then err s 0x13
      else s.plainWrite .tb (pgTB + off) v)
  else none

/-! ### Restart (R584) -/

/-- Frames in the FIFOs are lost and links drop. An element already offered stays with the queue manager. -/
def State.netRestart (s : State) : State :=
  (List.range 18).foldl (fun (s : State) p => s.setReg (R.NPORT.PSTATUS (pgNport p) (pi_ p)) 0)
    { s with netFifo := [], pauseSent := 0, txReports := [] }

end Sys2Proof.Machine
end

