-- ==== Sys2Proof/Machine/Pci.lean ====
section
/-! DEFINITION. PCIe (R562–R565, R587), and a context's reads and writes of the PCIe and Ixlink windows (R564, R574). -/

namespace Sys2Proof.Machine

/-- Root-port role? Does the link carry traffic? -/
def State.pciRoot (s : State) : Bool := s.flag F.PCI.PCFG.ROLE
def State.pciUp (s : State) : Bool := s.live pgPCI && s.enabled pgPCI && s.flag F.PCI.PSTATUS.LINK

/-- R587: the link trains, or goes down. -/
def execPcieLinkChange (up : Bool) (gen width : BitVec 2) (s : State) : Host.Outcome State Fault Refusal :=
  .next <|
    if s.live pgPCI && s.enabled pgPCI && (!up || s.refClk 2) then
      let g := if up then gen.toNat else 0
      let w := if up then width.toNat else 0
      let s1 := ((s.put F.PCI.PSTATUS.LINK (b2n up)).put F.PCI.PSTATUS.GEN g).put F.PCI.PSTATUS.WIDTH w
      ((if up then s1 else s1.put F.PCI.PSTATUS.MASTER 0).pageInt pgPCI 1).event 0x1201 0x12 1 (b2n up) g w
    else s

/-- Does a rights register grant a right for every frame a range touches (R563)? -/
def State.keysAllow (s : State) (krr : Word) (a n : Nat) (write : Bool) : Bool :=
  (List.range ((a + n - 1) / 4096 - a / 4096 + 1)).all (fun i =>
    decide ((if write then 2 else 1) ≤ getF krr (2 * ((s.keyByte (a / 4096 + i)).toNat % 16)) 2))

/-- A memory request from the link: performed in assigned DRAM where HOST_KRR grants it, else refused with code 0x12.
A read's completion goes back to the host. -/
def State.linkAccess (s : State) (a n : Nat) (wr : Option (List Byte)) : State :=
  let m := match wr with | some bs => bs.length | none => n
  let ok := m != 0 && s.inDram a m && s.keysAllow (s.reg R.PCI.HOST_KRR) a m wr.isSome
  match wr with
  | some bs => if ok then s.engineWrite a bs else s.pageErr pgPCI 0x12 0 .host true
  | none => if ok then { s with hostCpl := some (s.bytes a n) } else { s.pageErr pgPCI 0x12 0 .host false with hostCpl := none }

/-- R563: a host access through BAR 2. -/
def execHostBar2Access (off : Word) (n : BitVec 13) (wr : Option (List Byte)) (s : State) : Host.Outcome State Fault Refusal :=
  .next <|
    let m := match wr with | some bs => bs.length | none => n.toNat
    if s.pciUp && !s.pciRoot && decide (off.toNat + m ≤ 2 ^ (30 + s.get F.PCI.BAR2.SIZE)) then
      s.linkAccess (2 ^ 30 * s.get F.PCI.BAR2.BASE + off.toNat) n.toNat wr
    else s

/-- An MSI arrives: a number below 40 sets its bit, and any sets the interrupt bit. DEDUCED, log 106. -/
def State.msiIn (s : State) (data : Nat) : State :=
  (if data % 64 < 40 then s.setReg R.PCI.MSI_STATUS (s.reg R.PCI.MSI_STATUS ||| (1#40 <<< (data % 64))) else s).pageInt pgPCI 3

/-- R564: in the root-port role a memory request from the link; a 4-byte write to MSI_DOORBELL is an MSI. -/
def execInboundMemoryRequest (a : BitVec 64) (n : BitVec 13) (wr : Option (List Byte)) (s : State) : Host.Outcome State Fault Refusal :=
  .next <|
    if s.pciUp && s.pciRoot then
      (match wr with
       | some bs => if a.toNat = R.PCI.MSI_DOORBELL ∧ bs.length = 4 then s.msiIn (leVal bs) else s.linkAccess a.toNat n.toNat wr
       | none => s.linkAccess a.toNat n.toNat wr)
    else s

/-- R564: an inbound MSI. -/
def execInboundMsi (data : BitVec 32) (s : State) : Host.Outcome State Fault Refusal :=
  .next (if s.pciUp && s.pciRoot then s.msiIn data.toNat else s)

/-- The window where the PCIe region begins, and its ECAM part (R564). -/
def pciBase : Nat := 0xC000000000

/-- The PCIe address a window address reaches: the ECAM window, or an outbound region. -/
def State.outAddr (s : State) (a : Nat) : Option Nat :=
  let o := a - pciBase
  if o < 2 ^ 28 then some o
  else
    ((List.range 8).find? (fun i =>
      s.flag (F.PCI.OUT_CFG.VALID i) && decide (2 ^ 16 * s.get (F.PCI.OUT_CFG.OFFSET i) ≤ o) &&
        decide (o < 2 ^ 16 * s.get (F.PCI.OUT_CFG.OFFSET i) + 2 ^ s.get (F.PCI.OUT_CFG.SIZE i)))).map (fun i =>
      2 ^ 40 * s.get (F.PCI.OUT_ADDR_HI.ADDR i) + s.get (F.PCI.OUT_ADDR_LO.ADDR i) + (o - 2 ^ 16 * s.get (F.PCI.OUT_CFG.OFFSET i)))

/-- An outbound access fails (R565): 1 UR, 2 CA, 3 timeout, 4 no region, 5 link down. -/
def State.outFail (s : State) (a cause : Nat) : State :=
  let s1 := (s.put F.PCI.ERR_LAST.CAUSE cause).pageInt pgPCI 2
  if s1.pciSec = s1.ticks / 100000000 + 1 then s1
  else ({ s1 with pciSec := s1.ticks / 100000000 + 1 } : State).event 0x1202 0x12 2 cause a 0

/-- An outbound access with the way its request completes: the data read, all ones where it fails (R564, R565).
DESIGN CHOICE, log 73. -/
def State.outbound (s : State) (a n : Nat) (wr : Option (List Byte)) (cpl : PciCpl) : List Byte × State :=
  let ones := List.replicate n 0xFF#8
  if !s.pciRoot then (ones, s.outFail a 4)
  else match s.outAddr a with
    | none => (ones, s.outFail a 4)
    | some d =>
      if !s.pciUp then (ones, s.outFail a 5)
      else
        let s1 := { s with pciReq := some (d, wr) }
        match cpl with
        | .ok data => ((data ++ List.replicate n 0).take n, s1)
        | .ur => (ones, s1.outFail a 1)
        | .ca => (ones, s1.outFail a 2)
        | .timeout => (ones, s1.outFail a 3)

/-- Is an address in the PCIe window? -/
def inPci (a : Nat) : Bool := decide (pciBase ≤ a) && decide (a < 0xE000000000)

/-- R564: an outbound access and its completion; a write is posted. -/
def execOutboundAccess (a : Word) (n : BitVec 7) (wr : Option (List Byte)) (cpl : PciCpl) (s : State) : Host.Outcome State Fault Refusal :=
  .next (if inPci a.toNat && s.live pgPCI then (s.outbound a.toNat n.toNat wr cpl).2 else s)

/-- R565: an outbound access fails. -/
def execOutboundFail (a : Word) (cause : Fin 3) (s : State) : Host.Outcome State Fault Refusal :=
  .next (if inPci a.toNat && s.live pgPCI then
    (s.outbound a.toNat 1 none (match cause with | 0 => .ur | 1 => .ca | 2 => .timeout)).2 else s)

/-- `n` bytes that another device supplies: free values. -/
def State.freeBytes (s : State) (n : Nat) : List Byte × State :=
  ((List.range n).map (fun i => (Config.freeWord (s.free + i)).setWidth 8), { s with free := s.free + n })

/-- How a request to a PCIe device completes: a free choice, and free data. -/
def State.freeCpl (s : State) (n : Nat) : PciCpl × State :=
  let (i, s1) := s.draw
  match Config.freeNat i % 4 with
  | 1 => (.ur, s1)
  | 2 => (.ca, s1)
  | 3 => (.timeout, s1)
  | _ => let (bs, s2) := s1.freeBytes n; (.ok bs, s2)

/-! ### Remote windows (R574) -/

/-- The base of the Ixlink windows, the device a window address names, and its offset. -/
def ixBase : Nat := 0xE000000000
def winDev (a : Nat) : Nat := (a - ixBase) / 2 ^ 33 % 8
def winOffset (a : Nat) : Nat := (a - ixBase) % 2 ^ 33

/-- Is a device live, and another one? -/
def State.reachable (s : State) (d : Nat) : Bool := s.enabled pgIXL && (s.reg R.IXL.LIVE).getLsbD d && d != s.selfId

/-- A remote access that cannot be made records code 0x12 on the IXL control page. -/
def State.remoteFail (s : State) (r : Requester) (write : Bool) : State := s.pageErr pgIXL 0x12 0 r write

/-- A read of a remote window: MEM_RD goes out, and what comes back is a free value. -/
def State.remoteRead (s : State) (r : Requester) (a n : Nat) : List Byte × State :=
  if s.reachable (winDev a) then
    let s1 := { (s.ixSend (s.pkt 0x70 3 (winDev a) false (leBytes 5 (winOffset a) ++ leBytes 1 (n - 1)) [])) with memRds := s.memRds ++ [(s.ixTag, winDev a)] }
    s1.nextTag.freeBytes n
  else (List.replicate n 0xFF#8, s.remoteFail r false)

/-- A write of a remote window. -/
def State.remoteWrite (s : State) (r : Requester) (a : Nat) (bs : List Byte) : State :=
  if s.reachable (winDev a) then (s.ixSend (s.pkt 0x72 3 (winDev a) false (leBytes 5 (winOffset a) ++ leBytes 1 (bs.length - 1)) bs)).nextTag
  else s.remoteFail r true

/-! ### Writes (R587) -/

/-- PCIe boot forces the endpoint role (R562). -/
def State.pciBootStrap (s : State) : Bool := s.get F.CPR.STRAPS.BOOTSRC == 2

/-- Writes on the PCI page. -/
def State.wPci (s : State) (r : Requester) (off : Nat) (v : Word) : Option State :=
  let err := fun c => s.pageErr pgPCI c off r true
  let plain := s.plainWrite .pci (pgPCI + off) v
  if off = 0x40 then
    let keep := fun (s : State) => s.setReg R.PCI.PCFG (putF (v &&& 0x1F) 0 1 (s.get F.PCI.PCFG.ROLE))
    some (if s.roleSet || s.pciBootStrap then keep s
      else if s.enabled pgPCI then keep (if getF v 0 1 = s.get F.PCI.PCFG.ROLE then s else err 0x10)
      else { s.setReg R.PCI.PCFG (v &&& 0x1F) with roleSet := true })
  else if off = 0x50 then some (if s.enabled pgPCI then err 0x10 else s.rangedWrite .pci r 0x13 R.PCI.BAR2 v [(0, 4, decide (8 < getF v 0 4))])
  else if off = 0x58 then some (if reqWarden r then plain else err 0x11)
  else if off = 0x80 then some (if getF v 0 10 = 0 ∨ 1000 < getF v 0 10 then err 0x13 else plain)
  else if 0x100 ≤ off ∧ off < 0x1C0 ∧ (off - 0x100) % 0x18 = 0 then
    some (if v.getLsbD 0 && (decide (getF v 1 6 < 16) || decide (37 < getF v 1 6) || (2 ^ 16 * getF v 7 21) % 2 ^ getF v 1 6 != 0) then err 0x13 else plain)
  else none

end Sys2Proof.Machine
end

