-- ==== Sys2Proof/Machine/Ixlink.lean ====
section
/-! DEFINITION. The Ixlink and the cascade (R566–R583, R588): training, the link layer, packets, the primary role,
global cuts and the shared timebase. -/

namespace Sys2Proof.Machine

/-- Does the Ixlink run? -/
def State.ixlRuns (s : State) : Bool := s.live pgIXL && s.enabled pgIXL

/-! ### Roles (R575–R578) -/

/-- Is this device the primary? -/
def State.isPrimary (s : State) : Bool := s.flag F.IXL.ROLE.IS_PRIMARY

/-- The live devices, this one among them. -/
def State.liveSet (s : State) : Nat := s.get F.IXL.LIVE.LIVE ||| 2 ^ s.selfId
def State.liveList (s : State) : List Nat := (List.range 8).filter (fun d => bitOf s.liveSet d)

/-- Devices PRESENT in the routing table. -/
def State.presentList (s : State) : List Nat := (List.range 8).filter (fun d => s.flag (F.IXL.RT_ENTRY.PRESENT d))

/-- N of R577, and quorum. -/
def State.cascadeN (s : State) : Nat := if s.tableSeen then s.presentList.length else s.get F.IXL.SITE.SIZE + 1
def State.quorum (s : State) : Bool :=
  let live := s.liveList.length
  decide (s.cascadeN < 2 * live) ||
    (2 * live == s.cascadeN && s.liveList.contains (if s.tableSeen then s.presentList.headD 0 else 0))

/-- Wait for the primary's answer anew. -/
def State.askAgain (s : State) : State := ({ s with jsnAsked := false } : State).jsnAsk

/-- A heartbeat goes out (R576), and TIME_SYNC with it on each ACTIVE port of the primary (R581). -/
def State.timePkt (s : State) (hops : Nat) : IxPkt :=
  s.pkt 0x80 0 s.selfId false [] (leBytes 4 s.tbNs ++ leBytes 6 s.tbSec ++ leBytes 1 hops)

def State.heartbeat (s : State) : State :=
  let s1 := s.setReg R.IXL.LIVE (BitVec.ofNat 40 s.liveSet)
  let s2 := s1.ixBcast (s1.pkt 0x50 0 s1.selfId true
    (leBytes 2 (s1.get F.IXL.ROLE.EPOCH) ++ leBytes 1 (s1.get F.IXL.ROLE.IS_PRIMARY) ++ leBytes 1 (s1.get F.IXL.RT_CTRL.RT_EPOCH))
    (leBytes 5 (s1.get F.IXL.JSN_HIGH.JSN) ++ leBytes 1 s1.liveSet ++ List.replicate 10 0))
  if s2.isPrimary then
    let s3 := if s2.ixActive 0 then s2.ixPut 0 (s2.timePkt 0) else s2
    if s3.ixActive 1 then s3.ixPut 1 (s3.timePkt 0) else s3
  else s2

/-- A fire-and-forget posting of a device that left: counted where it was surely lost, and by a free choice where the owner may
have had it (R388). -/
def State.countFf (s : State) (e : Nat × Bool) : State :=
  if e.2 then s.ffFailed e.1 6
  else
    let (n, s1) := s.draw
    if Config.freeBool n then s1.ffFailed e.1 6 else s1

/-- Remote operations on devices no longer PRESENT end (R388): tickets with REMOTE_UNKNOWN, reads as lost, and
fire-and-forget postings still queued or lost on the way are counted. -/
def State.dropRemote (s : State) : State :=
  let gone := fun d => !s.flag (F.IXL.RT_ENTRY.PRESENT d)
  let s1 := (s.remoteOps.filter (fun o => gone (devOf o.acct))).foldl (fun (s : State) o =>
    let s1 := { s with remoteOps := s.remoteOps.erase o }
    if o.kind == .pread || o.kind == .preadc then s1.landLost o
    else match o.ticket with
      | some i => s1.completeTicket i 6 (devOf o.acct) 0
      | none => s1) s
  let lost := fun (k : IxPkt) => k.type == 0x10 && gone k.dst
  let s2 := (s1.ixLose true ((s1.ix[0].txq ++ s1.ix[1].txq ++ s1.ixHold).filter lost)).ixLose false ((s1.ix[0].replay ++ s1.ix[1].replay).filter lost)
  let clean := fun (q : IxPort) => { q with txq := q.txq.filter (fun k => !lost k), replay := q.replay.filter (fun k => !(lost k && ffPost k)) }
  let out := s2.ffOut.filter (fun e => gone (e.1 / 2 ^ 18 % 8))
  out.foldl State.countFf { s2 with ix := #v[clean s2.ix[0], clean s2.ix[1]], ixHold := s2.ixHold.filter (fun k => !lost k)
                                    ffOut := s2.ffOut.filter (fun e => !gone (e.1 / 2 ^ 18 % 8)) }

/-- A routing table is applied (R580): TLY.DEV_MAP takes every entry but this device's own. -/
def State.applyTable (s : State) (entry : Nat → Nat) (epoch : Nat) : State :=
  let s1 := (List.range 8).foldl (fun (s : State) d =>
    let e := entry d
    let s1 := (s.put (F.IXL.RT_ENTRY.PRESENT d) (e % 2)).put (F.IXL.RT_ENTRY.KEY d) (e / 2 % 16)
    if d = s.selfId then s1 else (s1.put (F.TLY.DEV_MAP.PRESENT d) (e % 2)).put (F.TLY.DEV_MAP.KEY d) (e / 2 % 16)) s
  let map := ((List.range 8).map (fun d => entry d % 2 * 2 ^ d)).sum
  let s2 := { s1.put F.IXL.RT_CTRL.RT_EPOCH epoch with tableSeen := true }
  ((s2.event 0x1305 0x13 0 epoch map 0).pageInt pgIXL 4).dropRemote

/-- The primary raises RT_EPOCH, applies its table and broadcasts it. -/
def State.sendTable (s : State) : State :=
  let e := (s.get F.IXL.RT_CTRL.RT_EPOCH + 1) % 256
  let entry := fun d => s.get (F.IXL.RT_ENTRY.PRESENT d) + 2 * s.get (F.IXL.RT_ENTRY.KEY d)
  let s1 := s.applyTable entry e
  s1.ixBcast (s1.pkt 0x60 0 s1.selfId true (leBytes 2 (s1.get F.IXL.ROLE.EPOCH) ++ leBytes 1 e)
    ((List.range 8).map (fun d => BitVec.ofNat 8 (entry d)) ++ List.replicate 8 0))

/-- AUTO_PRUNE (R580): the primary clears PRESENT for devices that are not live. -/
def State.prune (s : State) : State :=
  if s.isPrimary && s.flag F.IXL.HB_CFG.AUTO_PRUNE then
    let dead := s.presentList.filter (fun d => !bitOf s.liveSet d)
    if dead = [] then s
    else (dead.foldl (fun (s : State) d => s.put (F.IXL.RT_ENTRY.PRESENT d) 0) s).sendTable
  else s

/-- The device takes the primary role (R575, R577, R578, R581): 0 by strap, 1 by succession, 2 by handover. -/
def State.becomePrimary (s : State) (epoch how jsn : Nat) : State :=
  let s1 := ((((s.put F.IXL.ROLE.IS_PRIMARY 1).put F.IXL.ROLE.PRIMARY_ID s.selfId).put F.IXL.ROLE.KNOWN 1).put F.IXL.ROLE.EPOCH epoch).put
    F.IXL.JSN_NEXT.JSN jsn
  let s2 := { (s1.put F.TB.TB_CTRL.SOURCE 0) with hiEpoch := max s.hiEpoch epoch, jsnAsked := false, noQuorum := false }
  ((((s2.event 0x1302 0x13 2 epoch how (jsn % 2 ^ 40)).pageInt pgIXL 1).prune).heartbeat).ownBlock

/-- The primary steps down in favour of another (R575, R578). -/
def State.stepDown (s : State) (new : Nat) : State :=
  ((s.put F.IXL.ROLE.IS_PRIMARY 0).event 0x1303 0x13 2 (s.get F.IXL.ROLE.EPOCH) new 0).pageInt pgIXL 1

/-- The succession rule (R577): with no accepted primary, the lowest live device with quorum claims. -/
def State.succeed (s : State) : State :=
  if s.flag F.IXL.ROLE.KNOWN || s.isPrimary || !s.ixlRuns then s
  else if s.quorum then
    if s.liveList.headD 0 = s.selfId then
      s.becomePrimary ((s.hiEpoch + 1) % 65536) 1 ((s.get F.IXL.JSN_HIGH.JSN + 1 + 2 ^ s.get F.IXL.JSN_CFG.GAP_LOG * (s.selfId + 1)) % 2 ^ 40)
    else s
  else if s.noQuorum then s
  else ({ s with noQuorum := true } : State).event 0x1308 0x13 4 s.liveSet s.cascadeN 0

/-- At a cold start a strapped device claims at epoch 1 once its enabled ports are ACTIVE or DOWN (R575). -/
def State.strapClaim (s : State) : State :=
  let settled := (List.range 2).all (fun p =>
    !s.flag (F.IXP.XCTRL.ENABLE (pgIxp p)) || [4, 7].contains (s.get (F.IXP.XSTATUS.STATE (pgIxp p))))
  if s.ixlRuns && s.flag F.IXL.ROLE.STRAP && !s.isPrimary && !s.flag F.IXL.ROLE.KNOWN && s.hiEpoch == 0 && settled then
    s.becomePrimary 1 0 (s.get F.IXL.JSN_NEXT.JSN)
  else s

/-! ### Training (R567) -/

/-- A port's state changes. RETRAIN reads 1 until its retraining ends (R5). -/
def State.ixState (s : State) (p : Nat) (st : Nat) : State :=
  let g := pgIxp p
  let s0 := if [0, 4, 6, 7].contains st then s.put (F.IXP.XCTRL.RETRAIN g) 0 else s
  let s1 := (s0.put (F.IXP.XSTATUS.STATE g) st).pageInt g 1
  if st = 6 ∨ st = 7 then s1.event 0x1301 0x13 3 p st (s1.get (F.IXP.XSTATUS.REFUSE g)) else s1

/-- A port starts a new link: nothing sent, nothing received. -/
def IxPort.fresh (q : IxPort) : IxPort :=
  { q with replay := [], seq := 0, rxSeq := 0, credit := Vector.replicate 4 0, crcRun := 0, fails := 0 }

/-- Routes learned through a port are forgotten. -/
def State.dropRoutes (s : State) (p : Nat) : State :=
  (List.range 8).foldl (fun (s : State) d => if s.get (F.IXL.RT_ENTRY.PORT d) = p then s.put (F.IXL.RT_ENTRY.HOPS d) 0 else s) s

/-- The packets of a link that goes DOWN (R583): in a ring they go out on the other port, in a chain they are lost. The peer is
unreachable through the port (R567), and the cascade is a chain from now on. -/
def State.linkDown (s : State) (p : Fin 2) : State :=
  let q := s.ix[p]
  let s1 := { s.dropRoutes p with ix := s.ix.set p { q.fresh with txq := [] }, ixRing := false, ixHeard := false }
  let s2 := if s.ixRing then (q.replay ++ q.txq).foldl (fun (s : State) k => s.ixPut (1 - p) k) s1
    else (s1.ixLose true q.txq).ixLose false q.replay
  s2.ixUnhold

/-- The refusal of CONFIG, if any: 1 SITE_ID, 2 same ID, 3 version, 4 both ports on one peer. -/
def State.refuseReason (s : State) (p : Nat) (peer : IxPeer) : Nat :=
  let o := pgIxp (1 - p)
  if peer.site != s.get F.IXL.SITE.SITE_ID then 1
  else if peer.id = s.selfId then 2
  else if peer.version != 1 then 3
  else if s.get (F.IXP.XSTATUS.STATE o) = 4 ∧ s.get (F.IXP.XSTATUS.PEER_ID o) = peer.id then 4
  else 0

/-- R567: a port goes one training state on; from RECOVERY it resumes by replay. A new link begins with the credits of this
device's receive buffers, whose sizes the spec does not give: free values, log 72. -/
def execIxlTrainStep (p : Fin 2) (w : BitVec 2) (peer : IxPeer) (s : State) : Host.Outcome State Fault Refusal :=
  .next <|
    let g := pgIxp p
    if !s.ixlRuns || !s.refClk 1 then s
    else match s.get (F.IXP.XSTATUS.STATE g) with
      | 1 => s.ixState p 2
      | 2 => (s.put (F.IXP.XSTATUS.WIDTH g) (min w.toNat (s.get (F.IXP.XCTRL.MAXW g)))).ixState p 3
      | 3 =>
        let s1 := ((s.put (F.IXP.XSTATUS.PEER_ID g) peer.id).put (F.IXP.XSTATUS.PEER_PORT g) peer.port).put (F.IXP.DELAY.NS g) peer.delay
        match s1.refuseReason p peer with
        | 0 =>
          let (bs, s2) := ({ s1.put (F.IXP.XSTATUS.REFUSE g) 0 with ix := s1.ix.set p s1.ix[p].fresh } : State).freeBytes 8
          (((s2.sendLink p 3 bs).ixState p 4).ixPump p).strapClaim
        | n => (s1.put (F.IXP.XSTATUS.REFUSE g) n).ixState p 6
      | 5 =>
        let q := s.ix[p]
        (({ s.bumpSat (F.IXP.REPLAYS.COUNT g) with ix := s.ix.set p { q with fails := 0, crcRun := 0 } } : State).ixState p 4).ixPump p
      | _ => s

/-- A port enters RECOVERY. -/
def State.toRecovery (s : State) (p : Fin 2) : State :=
  ({ s.bumpSat (F.IXP.RECOVERIES.COUNT (pgIxp p)) with ix := s.ix.set p { s.ix[p] with fails := 0, crcRun := 0 } } : State).ixState p 5

/-- R567: an ACTIVE port loses its lock; in RECOVERY, an attempt fails, and after the third the port is DOWN. -/
def execIxlRecovery (p : Fin 2) (s : State) : Host.Outcome State Fault Refusal :=
  .next <|
    let q := s.ix[p]
    if !s.ixlRuns then s
    else match s.get (F.IXP.XSTATUS.STATE (pgIxp p)) with
      | 4 => s.toRecovery p
      | 5 =>
        if 3 ≤ q.fails + 1 then ((s.linkDown p).ixState p 7).strapClaim
        else { s with ix := s.ix.set p { q with fails := q.fails + 1 } }
      | _ => s

/-- R567: a DOWN port goes back to DETECT. -/
def execIxlDownWait (p : Fin 2) (s : State) : Host.Outcome State Fault Refusal :=
  .next <|
    if s.ixlRuns && s.get (F.IXP.XSTATUS.STATE (pgIxp p)) == 7 && s.flag (F.IXP.XCTRL.ENABLE (pgIxp p)) then s.ixState p 1 else s

/-- Writes on a port page (R567, R588). -/
def State.wIxp (s : State) (r : Requester) (a : Nat) (v : Word) : Option State :=
  let p : Fin 2 := if pageIdx a = 2 then 1 else 0
  let g := pgIxp p
  if a % 4096 = 0x40 then
    some <|
      if getF v 2 2 = 3 then s.pageErr g 0x13 0x40 r true
      else
        let was := s.flag (F.IXP.XCTRL.ENABLE g)
        let s1 := (s.put (F.IXP.XCTRL.ENABLE g) (getF v 0 1)).put (F.IXP.XCTRL.MAXW g) (getF v 2 2)
        let st := s1.get (F.IXP.XSTATUS.STATE g)
        if v.getLsbD 0 && !was then s1.ixState p 1
        else if !v.getLsbD 0 && was then (s1.linkDown p).ixState p 0
        else if v.getLsbD 1 && st == 4 then (s1.toRecovery p).put (F.IXP.XCTRL.RETRAIN g) 1
        else if v.getLsbD 1 && st == 6 then (s1.ixState p 1).put (F.IXP.XCTRL.RETRAIN g) 1
        else s1
  else none

/-! ### The link layer (R568–R570) -/

/-- SEQ `a` precedes `b`, modulo 4,096. -/
def seqBefore (a b : BitVec 12) : Bool := decide (1 ≤ (b - a).toNat ∧ (b - a).toNat < 2048)

/-- The neighbour acknowledges up to and with a SEQ. What it forwards to an owner further on may still be lost there. -/
def State.ixAck (s : State) (p : Fin 2) (n : BitVec 12) : State :=
  let q := s.ix[p]
  let on := q.replay.filter (fun k => !seqBefore n k.seq && k.dst != s.get (F.IXP.XSTATUS.PEER_ID (pgIxp p)))
  (((({ s with ix := s.ix.set p { q with replay := q.replay.filter (fun k => seqBefore n k.seq) } } : State).ixLose false on).ixPump p).ixUnhold)

/-- R569: an ACK. -/
def execAck (p : Fin 2) (k : IxPkt) (s : State) : Host.Outcome State Fault Refusal :=
  .next (if s.ixlRuns && k.type == 1 then s.ixAck p (BitVec.ofNat 12 (leVal (k.args.take 2))) else s)

/-- A NAK: everything before its SEQ has arrived, and every packet from it on is sent again. -/
def State.ixNak (s : State) (p : Fin 2) (n : BitVec 12) : State := (s.ixAck p (n - 1)).bumpSat (F.IXP.REPLAYS.COUNT (pgIxp p))

/-- R569: a NAK. -/
def execNak (p : Fin 2) (k : IxPkt) (s : State) : Host.Outcome State Fault Refusal :=
  .next (if s.ixlRuns && k.type == 2 then s.ixNak p (BitVec.ofNat 12 (leVal (k.args.take 2))) else s)

/-- Credits return, 2 bytes for each virtual channel. -/
def State.ixCredit (s : State) (p : Fin 2) (args : List Byte) : State :=
  let q := s.ix[p]
  let cr := Vector.ofFn (fun i : Fin 4 => q.credit[i] + leVal ((args.drop (2 * i.val)).take 2))
  ({ s with ix := s.ix.set p { q with credit := cr } } : State).ixPump p

/-- R569: credits return. -/
def execCredit (p : Fin 2) (k : IxPkt) (s : State) : Host.Outcome State Fault Refusal :=
  .next (if s.ixlRuns && k.type == 3 then s.ixCredit p k.args else s)

/-! ### Remote tally operations (R572, R387, R388) -/

/-- A remote operation enters port 9. -/
def State.postPush (s : State) (k : IxPkt) : State :=
  let pl := k.payload
  let op := (pl.getD 3 0).toNat
  let handle := BitVec.ofNat 40 (leVal ((pl.drop 32).take 5))
  let kind : TKind := match op with | 2 => .postl | 3 | 4 => .pread | 5 => .preadc | _ => .post
  if 5 < op then s.bumpSat F.IXL.FORWARD_ERR.COUNT
  else s.tallyPush 9 { kind := kind, acct := BitVec.ofNat 21 (leVal (pl.take 3)), b := (pl.getD 4 0).getLsbD 0
                       amount := BitVec.ofNat 88 (leVal ((pl.drop 5).take 11)), count := BitVec.ofNat 40 (leVal ((pl.drop 16).take 5))
                       floor := BitVec.ofNat 88 (leVal ((pl.drop 21).take 11)), psn := 0, ticket := none, cid := 0, xreg := 0, dloc := .own 0
                       lpsn := op == 4, wide := false, pc := 0, origin := some (k.src, k.tag, if op = 0 then 0 else handle), tag := 0 }

/-- Has a remote operation to wait, because port 9 is full (R370) or an earlier one waits? -/
def State.postFull (s : State) : Bool := decide (64 ≤ s.tports[9].length) || s.ixIn != []

/-- A remote operation arrives: it enters port 9, or waits for room there. -/
def State.postFwd (s : State) (k : IxPkt) : State := if s.postFull then { s with ixIn := s.ixIn ++ [(none, k)] } else s.postPush k

/-- The first remote operation that waits enters port 9 once there is room, and its credit returns. -/
def State.ixAdmit (s : State) : State :=
  match s.ixIn with
  | [] => s
  | (p, k) :: r =>
    if s.tports[9].length < 64 then
      let s1 := ({ s with ixIn := r } : State).postPush k
      match p with
      | some p => s1.sendCredit p k
      | none => s1
    else s

/-- R572: POST_FWD. -/
def execPostFwd (_p : Fin 2) (k : IxPkt) (s : State) : Host.Outcome State Fault Refusal :=
  .next (if s.ixlRuns && k.type == 0x10 then s.postFwd k else s)

/-- The owner's answer completes the ticket or lands the read; the owner's FMT is not known here, so a wide read's
extension and its sign follow a free choice of format. DESIGN CHOICE, log 48. -/
def State.postDone (s : State) (k : IxPkt) : State :=
  match s.remoteOps.find? (fun o => o.tag == k.tag && devOf o.acct == k.src) with
  | none => s
  | some o =>
    let pl := k.payload
    let st := (pl.getD 5 0).toNat
    let s1 := { s with remoteOps := s.remoteOps.erase o }
    if o.kind == .pread || o.kind == .preadc then
      if st = 4 then s1.landLost o
      else
        let (i, s2) := s1.draw
        s2.landRead o (Config.freeBool i) (BitVec.ofNat 88 (leVal ((pl.drop 7).take 11))) (BitVec.ofNat 40 (leVal ((pl.drop 18).take 5)))
          ((pl.getD 6 0).getLsbD 0) false
    else match o.ticket with
      | some i => s1.completeTicket i st k.src (BitVec.ofNat 40 (leVal ((pl.drop 23).take 5)))
      | none => s1

/-- R572: POST_DONE. -/
def execPostDone (_p : Fin 2) (k : IxPkt) (s : State) : Host.Outcome State Fault Refusal :=
  .next (if s.ixlRuns && k.type == 0x11 then s.postDone k else s)

/-! ### Queue messages (R573) -/

/-- A queue message is offered to its destination queue. -/
def State.qmsgIn (s : State) (k : IxPkt) : State :=
  let pl := k.payload
  let n := min (pl.getD 3 0).toNat 53
  s.offer 12 (leVal (pl.take 2) % 8192) 5 (0x4000 + k.src) ([pl.getD 2 0] ++ (pl.drop 4).take 2 ++ (pl.drop 6).take n) (.qmsg k.src)

/-- The queue manager's answer: a refused message is dropped and counted. -/
def State.qmsgAck (s : State) (queue dev : Nat) (ok : Bool) : State :=
  if ok then s
  else
    let s1 := s.bumpSat F.IXL.DROPS.QMSG
    if s1.qmsgSec = s1.ticks / 100000000 + 1 then s1
    else ({ s1 with qmsgSec := s1.ticks / 100000000 + 1 } : State).event 0x1307 0x13 2 queue dev (s1.reg R.IXL.DROPS).toNat

/-- R573: QMSG. -/
def execQmsg (_p : Fin 2) (k : IxPkt) (s : State) : Host.Outcome State Fault Refusal :=
  .next (if s.ixlRuns && k.type == 0x20 then s.qmsgIn k else s)

/-- R573: the Ixlink takes the element its choice falls on among the queues of CKIND 4 and sends it, while no earlier
message waits for the link. -/
def execQmsgSend (s : State) : Host.Outcome State Fault Refusal :=
  .next <|
    let waits := (s.ix[0].txq ++ s.ix[1].txq ++ s.ixHold).any (fun k => k.vc == 2)
    match s.chosenQueue 4 (fun n => (s.hwHead n).1.isSome) with
    | none => s
    | some n =>
      if !s.ixlRuns || waits then s
      else match s.hwHead n with
        | (none, s1) => s1
        | (some e, s1) =>
          let s2 := s1.hwTake n
          let pl := e.drop 8
          let dev := (pl.getD 2 0).toNat % 8
          let len := elLen e - 3
          if elType e < 0x40 ∨ elLen e < 3 ∨ 56 < elLen e ∨ dev = s.selfId ∨ !s.flag (F.IXL.RT_ENTRY.PRESENT dev) then s2.bumpSat F.IXL.DROPS.TX
          else (s2.ixSend (s2.pkt 0x20 2 dev false [] (pl.take 2 ++ leBytes 1 (elType e) ++ leBytes 1 len ++ (e.drop 6).take 2 ++
            ((pl.drop 3).take len ++ List.replicate 53 0).take 53 ++ List.replicate 5 0))).nextTag

/-! ### Global cuts (R582, R583) -/

/-- The global cut is DONE at the primary; START reads 0 again (R5). -/
def State.gcutEnd (s : State) : State :=
  ({ (s.put F.IXL.GCUT_STATUS.DONE 1).put F.IXL.GCUT_CTRL.START 0 with gcutOn := false } : State).pageInt pgIXL 3

/-- The primary records a device's result (R582). -/
def State.gcutNote (s : State) (d result b : Nat) : State :=
  let s1 := (s.put (F.IXL.GCUT_STATUS.RESULT d) result).setReg (R.IXL.GCUT_B d) (BitVec.ofNat 40 b)
  if s1.gcutOn && s1.presentList.all (fun d => s1.get (F.IXL.GCUT_STATUS.RESULT d) != 0) then s1.gcutEnd else s1

/-- Send or note this device's report. -/
def State.cutReport (s : State) (number result b : Nat) : State :=
  let s1 := s.event 0x1306 0x13 0 number b result
  if s1.isPrimary then s1.gcutNote s1.selfId result b
  else s1.ixSend (s1.pkt 0x31 0 (s1.get F.IXL.ROLE.PRIMARY_ID) false (leBytes 1 number ++ leBytes 1 result ++ leBytes 5 b) [])

/-- An operation of the Ixlink port without a ticket. -/
def cutTOp (kind : TKind) : TOp :=
  { kind := kind, acct := 0, b := false, amount := 0, count := 0, floor := 0, psn := 0, ticket := none, cid := 0, xreg := 0, dloc := .own 0
    lpsn := false, wide := false, pc := 0, origin := none, tag := 0 }

/-- The tally engine grants the global PCUT (R582). It waits while the engine does not grant, is not SEEDED (R374) or has a bank
without room. -/
def State.globalCut (s : State) (w : CutWait) : State :=
  if !s.tallyRuns || !s.flag F.TLY.SEEDED || !(List.finRange 8).all s.bankRoom then { s with cutAt := some { w with due := true } }
  else
    let s1 := { s with cutAt := none }
    match s1.cutRefused with
    | some 8 => s1.cutReport w.number 4 0
    | some _ => s1.cutReport w.number 3 0
    | none =>
      let b := s1.get F.TLY.PSN_NEXT.PSN
      (s1.takeCut (cutTOp .pcut) true).cutReport w.number (if w.late then 2 else 1) b

/-- A global cut whose T is past, and which the tally engine held up, is tried again. -/
def State.cutDue (s : State) : State :=
  match s.cutAt with
  | some w => if w.due && s.ixlRuns then s.globalCut w else s
  | none => s

/-- CUT_AT is received: T lies ahead, or has passed. -/
def State.cutAtIn (s : State) (number sec ns : Nat) : State :=
  let w : CutWait := { number := number, sec := sec, ns := ns, late := decide (1000000000 * sec + ns < s.tbTotal), due := false }
  if w.late then s.globalCut w else { s with cutAt := some w }

/-- R582: CUT_AT. -/
def execCutAt (_p : Fin 2) (k : IxPkt) (s : State) : Host.Outcome State Fault Refusal :=
  .next (if s.ixlRuns && k.type == 0x30 then
    s.cutAtIn (k.args.getD 0 0).toNat (leVal ((k.payload.drop 4).take 6)) (leVal (k.payload.take 4)) else s)

/-- R582: the timebase reaches T. -/
def execCutInstant (s : State) : Host.Outcome State Fault Refusal :=
  .next (match s.cutAt with
    | some w => if s.ixlRuns then s.globalCut w else s
    | none => s)

/-- A device's report arrives at the primary. -/
def State.cutReportIn (s : State) (k : IxPkt) : State :=
  if s.isPrimary && s.get F.IXL.GCUT_CTRL.NUMBER == (k.args.getD 0 0).toNat && s.gcutOn then
    s.gcutNote (k.src % 8) ((k.args.getD 1 0).toNat) (leVal ((k.args.drop 2).take 5)) else s

/-- R582: CUT_REPORT. -/
def execCutReport (_p : Fin 2) (k : IxPkt) (s : State) : Host.Outcome State Fault Refusal :=
  .next (if s.ixlRuns && k.type == 0x31 then s.cutReportIn k else s)

/-- A GLOBAL cut held here is released as PREL would. -/
def State.cutReleaseIn (s : State) : State :=
  if s.flag F.TLY.CUT_STATUS.HELD && s.flag F.TLY.CUT_STATUS.GLOBAL then s.grantPrel (cutTOp .prel) else s

/-- R582: CUT_RELEASE. -/
def execCutRelease (_p : Fin 2) (k : IxPkt) (s : State) : Host.Outcome State Fault Refusal :=
  .next (if s.ixlRuns && k.type == 0x32 then s.cutReleaseIn else s)

/-- START on the primary (R582). -/
def State.gcutStart (s : State) : State :=
  let n := (s.get F.IXL.GCUT_CTRL.NUMBER + 1) % 256
  let s1 := { ((s.put F.IXL.GCUT_CTRL.NUMBER n).put F.IXL.GCUT_CTRL.START 1).setReg R.IXL.GCUT_STATUS 0 with gcutOn := true }
  let s2 := (List.range 8).foldl (fun (s : State) d => s.setReg (R.IXL.GCUT_B d) 0) s1
  let t := s2.tbTotal + 1000 * s2.get F.IXL.GCUT_CTRL.LEAD
  let s3 := s2.ixBcast (s2.pkt 0x30 0 s2.selfId true (leBytes 1 n) (leBytes 4 (t % 1000000000) ++ leBytes 6 (t / 1000000000)))
  { s3 with cutAt := some { number := n, sec := t / 1000000000, ns := t % 1000000000, late := false, due := false } }

/-- RELEASE on the primary (R582). -/
def State.gcutRelease (s : State) : State :=
  (s.ixBcast (s.pkt 0x32 0 s.selfId true (leBytes 1 (s.get F.IXL.GCUT_CTRL.NUMBER)) [])).cutReleaseIn

/-- R582: LEAD + 10 ms have passed; devices that have not reported read result 5. -/
def execGcutDeadline (s : State) : Host.Outcome State Fault Refusal :=
  .next <|
    if s.ixlRuns && s.gcutOn then
      ((s.presentList.filter (fun d => s.get (F.IXL.GCUT_STATUS.RESULT d) == 0)).foldl (fun (s : State) d => s.put (F.IXL.GCUT_STATUS.RESULT d) 5) s).gcutEnd
    else s

/-! ### JSN grants (R579) -/

/-- The primary answers a request. -/
def State.jsnReqIn (s : State) (k : IxPkt) : State :=
  if s.isPrimary then
    let size := (k.args.getD 0 0).toNat
    let (f, _, s1) := s.drawJsns size
    s1.ixBcast (s1.pkt 0x41 0 s1.selfId true (leBytes 5 f ++ leBytes 1 k.src ++ leBytes 1 size) [])
  else s

/-- R579: JSN_REQ. -/
def execJsnReq (_p : Fin 2) (k : IxPkt) (s : State) : Host.Outcome State Fault Refusal :=
  .next (if s.ixlRuns && k.type == 0x40 then s.jsnReqIn k else s)

/-- A grant is heard: JSN_HIGH keeps the highest last JSN, and a grant to this device from the accepted primary adds a
block, unless it is a second copy of one it holds. -/
def State.jsnGrantIn (s : State) (k : IxPkt) : State :=
  let f := leVal (k.args.take 5)
  let l := f + 256 * ((k.args.getD 6 0).toNat + 1) - 1
  let s1 := if s.isPrimary then s else s.put F.IXL.JSN_HIGH.JSN (max (s.get F.IXL.JSN_HIGH.JSN) (l % 2 ^ 40))
  if (k.args.getD 5 0).toNat = s.selfId ∧ s.flag F.IXL.ROLE.KNOWN ∧ s.get F.IXL.ROLE.PRIMARY_ID = k.src ∧ !s.isPrimary ∧ !s.jr.jsns.any (fun b => b.2 == l) then
    ({ s1 with jr := { s1.jr with jsns := s1.jr.jsns ++ [(f, l)] } } : State).askAgain
  else s1

/-- R579: JSN_GRANT. -/
def execJsnGrant (_p : Fin 2) (k : IxPkt) (s : State) : Host.Outcome State Fault Refusal :=
  .next (if s.ixlRuns && k.type == 0x41 then s.jsnGrantIn k else s)

/-- R579: a satellite has waited 1 s for a grant. It asks again. DEDUCED, log 72. -/
def execJsnGrantTimeout (s : State) : Host.Outcome State Fault Refusal :=
  .next (if s.ixlRuns && s.jsnAsked then (s.event 0x1308 0x13 4 s.liveSet s.cascadeN 0).askAgain else s)

/-! ### Heartbeats (R570, R575, R576) -/

/-- A primary claim is heard: epoch and device. -/
def State.claimIn (s : State) (epoch d : Nat) : State :=
  let cur := s.get F.IXL.ROLE.EPOCH
  let known := s.flag F.IXL.ROLE.KNOWN
  let id := s.get F.IXL.ROLE.PRIMARY_ID
  let above := !known || decide (cur < epoch) || (cur == epoch && decide (d ≤ id))
  if above then
    let s1 := if s.isPrimary then s.stepDown d else s
    let s2 := ((s1.put F.IXL.ROLE.PRIMARY_ID d).put F.IXL.ROLE.KNOWN 1).put F.IXL.ROLE.EPOCH epoch
    let s3 := { s2 with noQuorum := false }
    if known ∧ id = d ∧ !s.isPrimary then s3.jsnAsk else s3.askAgain
  else s

/-- A heartbeat arrives on a port: liveness, the way to its sender, JSN_HIGH and the claim. A second heartbeat in a row that
comes the longer way shows that the shorter way is gone. DEDUCED, log 72. -/
def State.heartbeatIn (s : State) (p : Nat) (k : IxPkt) : State :=
  let d := k.src % 8
  let epoch := leVal (k.args.take 2)
  let prim := (k.args.getD 2 0).getLsbD 0
  let dist := 8 - k.hops
  let old := s.get (F.IXL.RT_ENTRY.HOPS d)
  let s1 := (s.setReg R.IXL.LIVE (s.reg R.IXL.LIVE ||| (1#40 <<< d))).put (F.IXL.RT_ENTRY.LIVE d) 1
  let n := tabGet 0 s1.ixElse d + 1
  let s2 := if old = 0 ∨ dist < old ∨ s1.get (F.IXL.RT_ENTRY.PORT d) = p ∨ 2 ≤ n then
      { (s1.put (F.IXL.RT_ENTRY.PORT d) p).put (F.IXL.RT_ENTRY.HOPS d) dist with ixElse := tabSet 0 s1.ixElse d 0 }
    else { s1 with ixElse := tabSet 0 s1.ixElse d n }
  let s3 := { s2 with hiEpoch := max s2.hiEpoch epoch }
  if prim then
    let s4 := s3.claimIn epoch d
    let h := leVal (k.payload.take 5)
    if !s4.isPrimary && s4.get F.IXL.ROLE.PRIMARY_ID == d && decide (s4.get F.IXL.JSN_HIGH.JSN < h) then s4.put F.IXL.JSN_HIGH.JSN h else s4
  else if s3.flag F.IXL.ROLE.KNOWN && s3.get F.IXL.ROLE.PRIMARY_ID == d && !s3.isPrimary then s3.put F.IXL.ROLE.KNOWN 0
  else s3

/-- A broadcast of this device comes back (R570). -/
def State.ownBack (s : State) : State := { s with ixRing := true, ixHeard := true }

/-- R575: HEARTBEAT. -/
def execHeartbeat (p : Fin 2) (k : IxPkt) (s : State) : Host.Outcome State Fault Refusal :=
  .next (if s.ixlRuns && k.type == 0x50 then
    (if k.src = s.selfId then s.ownBack else s.heartbeatIn p k) else s)

/-- HB_PERIODs without an accepted primary count up; from HB_TIMEOUT on, R577 applies. -/
def State.awaitPrimary (s : State) : State :=
  if s.flag F.IXL.ROLE.KNOWN || s.isPrimary then { s with noPrim := 0 }
  else
    let s1 := { s with noPrim := s.noPrim + 1 }
    if s1.get F.IXL.HB_CFG.TIMEOUT ≤ s1.noPrim * s1.get F.IXL.HB_CFG.PERIOD then s1.succeed else s1

/-- R576: HB_PERIOD ends. A device that did not hear its own last broadcast again is in a chain. DEDUCED, log 72. -/
def execHeartbeatPeriod (s : State) : Host.Outcome State Fault Refusal :=
  .next (if s.ixlRuns then ({ s with ixRing := s.ixHeard, ixHeard := false } : State).strapClaim.awaitPrimary.heartbeat.jsnAsk else s)

/-- R576, R577: a device has not been heard within HB_TIMEOUT. -/
def execDeviceNotLive (d : Fin 8) (s : State) : Host.Outcome State Fault Refusal :=
  .next <|
    if s.ixlRuns && (s.reg R.IXL.LIVE).getLsbD d && d.val != s.selfId then
      let s1 := ((s.setReg R.IXL.LIVE (s.reg R.IXL.LIVE &&& ~~~(1#40 <<< d.val))).put (F.IXL.RT_ENTRY.LIVE d) 0).put (F.IXL.RT_ENTRY.HOPS d) 0
      let s2 := (s1.event 0x1304 0x13 3 d 0 0).pageInt pgIXL 2
      if s2.isPrimary then s2.prune
      else
        let s3 := if s2.flag F.IXL.ROLE.KNOWN && s2.get F.IXL.ROLE.PRIMARY_ID == d then s2.put F.IXL.ROLE.KNOWN 0 else s2
        s3.succeed
    else s

/-! ### Routing tables (R580) -/

/-- A table is heard. -/
def State.tableIn (s : State) (k : IxPkt) : State :=
  let e := (k.args.getD 2 0).toNat
  if !s.isPrimary && s.flag F.IXL.ROLE.KNOWN && leVal (k.args.take 2) == s.get F.IXL.ROLE.EPOCH && s.get F.IXL.ROLE.PRIMARY_ID == k.src &&
      e != s.get F.IXL.RT_CTRL.RT_EPOCH then
    s.applyTable (fun d => (k.payload.getD d 0).toNat) e
  else s

/-- R580: ROUTE_TABLE. -/
def execRouteTable (_p : Fin 2) (k : IxPkt) (s : State) : Host.Outcome State Fault Refusal :=
  .next (if s.ixlRuns && k.type == 0x60 then s.tableIn k else s)

/-! ### Remote windows (R574) -/

/-- May a remote access reach a range: assigned DRAM or on-chip SRAM, under REMOTE_KRR? -/
def State.remoteOk (s : State) (a n : Nat) (write : Bool) : Bool :=
  (s.inDram a n || (s.region a == .sram && s.region (a + n - 1) == .sram)) && s.keysAllow (s.reg R.IXL.REMOTE_KRR) a n write

/-- A remote read is performed and answered. -/
def State.memRdIn (s : State) (k : IxPkt) : State :=
  let a := 2 ^ 30 * s.get F.IXL.INBOUND.BASE + leVal (k.args.take 5)
  let n := (k.args.getD 5 0).toNat % 64 + 1
  if s.remoteOk a n false then s.ixSend { s.pkt 0x71 3 k.src false [0] (s.bytes a n) with tag := k.tag }
  else (s.remoteFail .engine false).ixSend { s.pkt 0x71 3 k.src false [1] [] with tag := k.tag }

/-- R574: MEM_RD. -/
def execMemRd (_p : Fin 2) (k : IxPkt) (s : State) : Host.Outcome State Fault Refusal :=
  .next (if s.ixlRuns && k.type == 0x70 then s.memRdIn k else s)

/-- A remote write is performed, or dropped. -/
def State.memWrIn (s : State) (k : IxPkt) : State :=
  let a := 2 ^ 30 * s.get F.IXL.INBOUND.BASE + leVal (k.args.take 5)
  let n := (k.args.getD 5 0).toNat % 64 + 1
  if s.remoteOk a n true then s.engineWrite a (k.payload.take n) else s.remoteFail .engine true

/-- R574: MEM_WR. -/
def execMemWr (_p : Fin 2) (k : IxPkt) (s : State) : Host.Outcome State Fault Refusal :=
  .next (if s.ixlRuns && k.type == 0x72 then s.memWrIn k else s)

/-- The answer of a remote read: the read has its data already (a free value); a refusal is recorded. -/
def State.memRspIn (s : State) (k : IxPkt) : State :=
  match s.memRds.find? (fun m => m.1 == k.tag && m.2 == k.src) with
  | none => s
  | some m =>
    let s1 := { s with memRds := s.memRds.erase m }
    if k.args.getD 0 0 = 0 then s1 else s1.remoteFail .engine false

/-- R574: MEM_RSP. -/
def execMemRsp (_p : Fin 2) (k : IxPkt) (s : State) : Host.Outcome State Fault Refusal :=
  .next (if s.ixlRuns && k.type == 0x71 then s.memRspIn k else s)

/-- R574: a remote read has had no answer for 1 ms. -/
def execMemRdTimeout (tag : BitVec 16) (s : State) : Host.Outcome State Fault Refusal :=
  .next (match s.memRds.find? (fun m => m.1 == tag.toNat) with
    | some m => ({ s with memRds := s.memRds.erase m } : State).remoteFail .engine false
    | none => s)

/-! ### Time and handover (R578, R581) -/

/-- A satellite follows the primary's time: a step above 1 µs, else a rate whose value the device chooses. -/
def State.timeSyncIn (s : State) (p : Fin 2) (k : IxPkt) : State :=
  if s.isPrimary then s
  else
    let t := 1000000000 * leVal ((k.payload.drop 4).take 6) + leVal (k.payload.take 4) + s.get (F.IXP.DELAY.NS (pgIxp p))
    let err : Int := (t : Int) - s.tbTotal
    let s1 := s.put F.TB.TB_CTRL.SOURCE 1
    let s2 := if 1000 < err.natAbs then s1.tbStep err
      else
        let (i, s2) := s1.draw
        s2.put F.TB.TB_RATE.RATE (umod 28 ((Config.freeNat i % 85899345 : Nat) - (42949672 : Int)))
    if s2.ixActive (1 - p) then s2.ixPut (1 - p) (s2.timePkt ((k.payload.getD 10 0).toNat + 1)) else s2

/-- R581: TIME_SYNC. -/
def execTimeSync (p : Fin 2) (k : IxPkt) (s : State) : Host.Outcome State Fault Refusal :=
  .next (if s.ixlRuns && k.type == 0x80 then s.timeSyncIn p k else s)

/-- The target takes the role with the primary's JSN_NEXT. -/
def State.handoverIn (s : State) (k : IxPkt) : State :=
  if (k.args.getD 0 0).toNat = s.selfId then s.becomePrimary (leVal ((k.args.drop 1).take 2)) 2 (leVal ((k.args.drop 3).take 5)) else s

/-- R578: HANDOVER. -/
def execHandover (_p : Fin 2) (k : IxPkt) (s : State) : Host.Outcome State Fault Refusal :=
  .next (if s.ixlRuns && k.type == 0x90 then s.handoverIn k else s)

/-- GO of the HANDOVER register on the primary (R578). -/
def State.handoverGo (s : State) (target : Nat) : State :=
  let s1 := s.ixSend (s.pkt 0x90 0 target false (leBytes 1 target ++ leBytes 2 (s.get F.IXL.ROLE.EPOCH + 1) ++ leBytes 5 (s.get F.IXL.JSN_NEXT.JSN)) [])
  (s1.stepDown target).put F.IXL.ROLE.KNOWN 0

/-! ### Packets (R569–R571) -/

/-- Is a packet well formed: a known TYPE with its LEN and its zero fields (R571)? -/
def ixWellFormed (k : IxPkt) : Bool :=
  let len := k.payload.length / 16
  let z := fun (l : List Byte) => l.all (· == 0)
  k.payload.length % 16 == 0 && k.args.length == 8 &&
  match k.type with
  | 0x10 => len == 3 && z k.args && z (k.payload.drop 37)
  | 0x11 => len == 2 && z k.args && z (k.payload.drop 28)
  | 0x20 => len == 4 && z k.args && z (k.payload.drop 59)
  | 0x30 => len == 1 && z (k.args.drop 1) && z (k.payload.drop 10)
  | 0x31 => len == 0 && z (k.args.drop 7)
  | 0x32 => len == 0 && z (k.args.drop 1)
  | 0x40 => len == 0 && z (k.args.drop 1)
  | 0x41 => len == 0 && z (k.args.drop 7)
  | 0x50 => len == 1 && z (k.args.drop 4) && z (k.payload.drop 6)
  | 0x60 => len == 1 && z (k.args.drop 3) && z (k.payload.drop 8)
  | 0x70 => len == 0 && z (k.args.drop 6) && decide ((k.args.getD 5 0).toNat < 64)
  | 0x71 => decide (len ≤ 4) && z (k.args.drop 1)
  | 0x72 => decide (len ≤ 4) && z (k.args.drop 6) && decide ((k.args.getD 5 0).toNat < 16 * len)
  | 0x80 => len == 1 && z k.args && z (k.payload.drop 11)
  | 0x90 => len == 0
  | _ => false

/-- Take a packet addressed to this device. -/
def State.ixTake (s : State) (p : Fin 2) (k : IxPkt) : State :=
  match k.type with
  | 0x10 => s.postFwd k
  | 0x11 => s.postDone k
  | 0x20 => s.qmsgIn k
  | 0x30 => s.cutAtIn (k.args.getD 0 0).toNat (leVal ((k.payload.drop 4).take 6)) (leVal (k.payload.take 4))
  | 0x31 => s.cutReportIn k
  | 0x32 => s.cutReleaseIn
  | 0x40 => s.jsnReqIn k
  | 0x41 => s.jsnGrantIn k
  | 0x50 => s.heartbeatIn p k
  | 0x60 => s.tableIn k
  | 0x70 => s.memRdIn k
  | 0x71 => s.memRspIn k
  | 0x72 => s.memWrIn k
  | 0x80 => s.timeSyncIn p k
  | 0x90 => s.handoverIn k
  | _ => s

/-- A numbered packet in order: taken, forwarded, or discarded (R570). -/
def State.ixArrive (s : State) (p : Fin 2) (k : IxPkt) : State :=
  if !ixWellFormed k then s.bumpSat F.IXL.FORWARD_ERR.COUNT
  else if k.type = 0x80 then s.ixTake p k
  else if k.bcast then
    if k.src = s.selfId then s.ownBack
    else
      let s1 := s.ixTake p k
      if k.hops ≤ 1 then s1 else s1.ixPut (1 - p) { k with hops := k.hops - 1 }
  else if k.dst = s.selfId then s.ixTake p k
  else if k.hops ≤ 1 then s.bumpSat F.IXL.FORWARD_ERR.COUNT
  else s.ixPut (1 - p) { k with hops := k.hops - 1 }

/-- Is a packet a remote operation for this device that finds port 9 full? Its credit is held until it has entered. -/
def State.postWaits (s : State) (k : IxPkt) : Bool := ixWellFormed k && k.type == 0x10 && !k.bcast && k.dst == s.selfId && s.postFull

/-- R568–R570: a packet is received. Link packets act at once; others are checked for CRC and order, acknowledged, and
their credit returned. -/
def execIxlPacketRx (p : Fin 2) (k : IxPkt) (crc : Bool) (s : State) : Host.Outcome State Fault Refusal :=
  .next <|
    let q := s.ix[p]
    if !s.ixlRuns || !s.ixActive p then s
    else if !crc then
      let s1 := { s.bumpSat (F.IXP.CRC_ERRORS.COUNT (pgIxp p)) with ix := s.ix.set p { q with crcRun := q.crcRun + 1 } }
      if 8 ≤ q.crcRun + 1 then s1.toRecovery p else s1.sendLink p 2 (leBytes 2 q.rxSeq.toNat)
    else
      let s0 := { s with ix := s.ix.set p { q with crcRun := 0 } }
      match k.type with
      | 1 => s0.ixAck p (BitVec.ofNat 12 (leVal (k.args.take 2)))
      | 2 => s0.ixNak p (BitVec.ofNat 12 (leVal (k.args.take 2)))
      | 3 => s0.ixCredit p k.args
      | _ =>
        if k.seq != q.rxSeq then
          if seqBefore k.seq q.rxSeq then s0.sendLink p 1 (leBytes 2 (q.rxSeq - 1).toNat) else s0.sendLink p 2 (leBytes 2 q.rxSeq.toNat)
        else
          let s1 := { s with ix := s.ix.set p { q with rxSeq := q.rxSeq + 1, crcRun := 0 } }
          let s2 := s1.sendLink p 1 (leBytes 2 q.rxSeq.toNat)
          if s2.postWaits k then { s2 with ixIn := s2.ixIn ++ [(some p, k)] } else (s2.sendCredit p k).ixArrive p k

/-! ### Writes (R588) -/

/-- Writes on the IXL control page. -/
def State.wIxl (s : State) (r : Requester) (off : Nat) (v : Word) : Option State :=
  let err := fun c => s.pageErr pgIXL c off r true
  let plain := s.plainWrite .ixl (pgIXL + off) v
  let prim := fun (x : State) => some (if s.isPrimary then x else err 0x14)
  if off = 0x48 then
    some (if s.enabled pgIXL && getF v 0 16 != s.get F.IXL.SITE.SITE_ID then (err 0x10).put F.IXL.SITE.SIZE (getF v 16 3) else plain)
  else if off = 0x50 then some (s.rangedWrite .ixl r 0x13 R.IXL.HB_CFG v [(0, 16, decide (getF v 8 8 < 3 * getF v 0 8))])
  else if off = 0x70 then some (if getF v 0 5 < 10 ∨ 30 < getF v 0 5 then err 0x13 else plain)
  else if off = 0x78 then (if v.getLsbD 0 then prim s.sendTable else some s)
  else if off = 0x80 then
    some <|
      if !reqWarden r then err 0x11
      else if !v.getLsbD 3 then s
      else if !s.isPrimary then err 0x14
      else if !(s.reg R.IXL.LIVE).getLsbD (getF v 0 3) || getF v 0 3 == s.selfId then err 0x12
      else s.handoverGo (getF v 0 3)
  else if off = 0x88 then
    some <|
      let bad := decide (getF v 2 14 < 100) || decide (10000 < getF v 2 14)
      let s1 := if bad then err 0x13 else s.put F.IXL.GCUT_CTRL.LEAD (getF v 2 14)
      if (v.getLsbD 0 || v.getLsbD 1) && !(s.isPrimary && s.ixlRuns) then s1.pageErr pgIXL 0x14 off r true
      else
        let s2 := if v.getLsbD 0 && !s1.gcutOn then s1.gcutStart else s1
        if v.getLsbD 1 then s2.gcutRelease else s2
  else if off = 0x98 then some (if reqWarden r then plain else err 0x11)
  else if 0x100 ≤ off ∧ off < 0x140 then prim plain
  else none

/-- A block restart or warm reset retrains both enabled ports and keeps the role and the table (R584). -/
def State.ixlRestart (s : State) : State :=
  let s0 := (s.ixLose true (s.ix[0].txq ++ s.ix[1].txq ++ s.ixHold)).ixLose false (s.ix[0].replay ++ s.ix[1].replay)
  let s1 := { s0 with ix := #v[{ s.ix[0].fresh with txq := [] }, { s.ix[1].fresh with txq := [] }], ixHold := [], memRds := [], ixLnk := [], cutAt := none
                      gcutOn := false, jsnAsked := false, ixRing := false, ixHeard := false, ixElse := [] }
  (List.range 2).foldl (fun (s : State) p =>
    s.setReg (R.IXP.XSTATUS (pgIxp p)) (if s.flag (F.IXP.XCTRL.ENABLE (pgIxp p)) then 1 else 0)) s1

end Sys2Proof.Machine
end

