-- ==== Sys2Proof/Machine/Power.lean ====
section
/-! DEFINITION. Clocks, power domains, resets, boot, the code store and last gasp (R653–R682, R708), and the thaw that
power failure forces (R686, R702). -/

namespace Sys2Proof.Machine

/-! ### Thaw of a full eclipse (R686, R702) -/

/-- The whole device goes on: enabled weigh channels re-enter STARTING with ZERO_OFF kept, and armed checks end with
verdict 4. A cluster in partial eclipse stays so. -/
def State.thawFull (s : State) (forced : Bool) : State :=
  if s.get F.DBG.ECL_STATUS.STATE != 1 then s
  else
    let (n, s0) := s.draw
    let s1 := (s0.put F.DBG.ECL_STATUS.STATE (if s0.eclPart.isSome then 2 else 0)).put F.DBG.ECL_STATUS.FORCED (b2n forced)
    let s2 := (List.range 64).foldl (fun (s : State) ch =>
      if s.flag (F.CH.CH_CTRL.ENABLE (pgCh ch)) then (s.endCheck ch 4 0).toStarting ch else s) s1
    (s2.event 0x1902 0x19 1 (Config.freeNat n) (b2n forced) 0).pageInt pgDBG 1

/-! ### Power domains (R657, R658) -/

/-- Set whether a domain is on (PD_STATUS). -/
def State.setPd (s : State) (n : Nat) (on : Bool) : State :=
  let m := s.get F.CPR.PD_STATUS.POWERED
  s.put F.CPR.PD_STATUS.POWERED (if bitOf m n == on then m else if on then m + 2 ^ n else m - 2 ^ n)

/-- Power several domains on. -/
def State.powerOn (s : State) (ns : List Nat) : State := ns.foldl (fun s n => s.setPd n true) s

/-- The mask of every bit that a cold reset, or the power-on of its domain, returns to reset. -/
def notKept (r : RegRow) : Nat := r.clsB ||| r.clsW ||| r.clsC

/-- The contexts and cores of a cluster at reset. -/
def State.dropCluster (s : State) (n : Nat) : State :=
  { s with ctx := s.ctx.filter (fun p => !(decide (64 * n ≤ p.1) && decide (p.1 < 64 * n + 64)))
           core := s.core.filter (fun p => !(decide (8 * n ≤ p.1) && decide (p.1 < 8 * n + 8))) }

/-- CORE_MAP from the defect fuses (R110). -/
def State.defects (s : State) (n : Nat) : Nat := s.get (if n < 4 then F.SEC.DEFECT_LO.CLU n else F.SEC.DEFECT_HI.CLU (n - 4))
def State.loadMap (s : State) (n : Nat) : State :=
  let d := s.defects n
  let m := ((List.range 8).map (fun k => (if bitOf d k then 8 else k) * 2 ^ (4 * k))).sum + (if d = 0 then 8 else 15) * 2 ^ 32
  s.setReg (R.CLU.CORE_MAP (pgClu n)) (BitVec.ofNat 40 m)

/-- A domain is switched on (R658): its blocks hold their reset values, class n fields excepted. -/
def State.domainOn (s : State) (n : Nat) : State :=
  let s1 := (s.setPd n true).resetPages (fun a => domainOf (pageBase a) == n) notKept
  if 2 ≤ n ∧ n ≤ 9 then (s1.dropCluster (n - 2)).loadMap (n - 2)
  else if n = 16 then s1.wghReset
  else if n = 18 then { s1.netRestart with hostCpl := none, pciReq := none }
  else s1

/-- May a domain be switched off (R658)? -/
def State.pdIdle (s : State) (n : Nat) : Bool :=
  if 2 ≤ n ∧ n ≤ 9 then
    !s.enabled (pgClu (n - 2)) && (List.range 64).all (fun i => (s.cx (BitVec.ofNat 12 (64 * (n - 2) + i))).run == .halted)
  else if n = 16 then (List.range 64).all (fun ch => !s.flag (F.CH.CH_CTRL.ENABLE (pgCh ch)))
  else if n = 18 then !s.enabled pgNET && !s.enabled pgPCI
  else false

/-- Software may switch these domains. -/
def pdSwitched (n : Nat) : Bool := (decide (2 ≤ n) && decide (n ≤ 9)) || n == 16 || n == 18

/-- A write of PD_CTRL by a warden or supervisor: refused whole where a domain may not be switched.
DEDUCED, log 80. -/
def State.pdSwitch (s : State) (r : Requester) (v : Word) : State :=
  let old := s.get F.CPR.PD_CTRL.ON
  let new := getF v 0 20
  let ch := (List.range 20).filter (fun n => bitOf old n != bitOf new n)
  if !reqSup r || ch.any (fun n => !pdSwitched n || (bitOf old n && !s.pdIdle n)) then s.pageErr pgCPR 0x10 0x50 r true
  else
    (ch.filter (fun n => bitOf old n)).foldl (fun s n =>
      let s1 := (if n = 16 then s.endSeals else s).setPd n false
      if 2 ≤ n ∧ n ≤ 9 then s1.dropCluster (n - 2) else s1) (s.put F.CPR.PD_CTRL.ON new)

/-! ### The code store (R670–R676) -/

/-- The low 12 bits of a code offset name a slot (R69). -/
def State.halfBytes (s : State) (h off n : Nat) : List Byte := s.bytes (halfBase h + off) n
def allZero (l : List Byte) : Bool := l.all (· == 0)

/-- An image: what reads its bytes by offset. -/
abbrev ImgRead := Nat → Nat → List Byte

/-- A well-formed header (R670). -/
def headerOk (rd : ImgRead) : Bool :=
  let len := leVal (rd 12 4)
  let entry := leVal (rd 16 5)
  let cfg := leVal (rd 21 3)
  let role := leVal (rd 26 3)
  let inBody (a n : Nat) := decide (0x2000 ≤ a) && decide (a + n ≤ 0x2000 + len)
  rd 0 4 == [0x52#8, 0x49#8, 0x4D#8, 0x47#8] && rd 4 1 == [1#8] && allZero (rd 6 2) && allZero (rd 31 33) && allZero (rd 192 3900) &&
    len % 64 == 0 && decide (64 ≤ len) && decide (len ≤ 16769024) && codeOk (BitVec.ofNat 40 entry) && inBody (entry / 64 * 64) 64 &&
    cfg % 16 == 0 && inBody cfg (16 * leVal (rd 24 2)) && role % 8 == 0 && inBody role (8 * leVal (rd 29 2)) && decide (leVal (rd 29 2) ≤ 256)

/-- The check of R596: 0 passes; else 1 hash, 2 revoked, 3 signature. -/
def State.imageCheck (s : State) (rd : ImgRead) : Nat :=
  let k := leVal (rd 5 1)
  let hash := (List.range 32).map (Config.bootHash k)
  if 3 < k ∨ !bitOf (s.get F.SEC.BOOT_STATUS.PROG) k ∨ sha256 (rd 64 64) ≠ hash then 1
  else if bitOf (s.get F.SEC.BOOT_STATUS.REVOKED) k then 2
  else if ecdsaVerify (rd 64 64) (sha256 (rd 0 128 ++ rd 0x1000 0x1000 ++ rd 0x2000 (leVal (rd 12 4)))) (rd 128 64) then 0
  else 3

/-- A half's image. -/
def State.halfImg (s : State) (h : Nat) : ImgRead := fun off n => s.halfBytes h off n

/-- Is a half a candidate (R667)? -/
def State.candidate (s : State) (h : Nat) : Bool := s.halfCommitted h && headerOk (s.halfImg h)

/-- GEN and KEY of a half's header. -/
def State.halfGen (s : State) (h : Nat) : Nat := s.halfField h 8 4
def State.halfKey (s : State) (h : Nat) : Nat := s.halfField h 5 1

/-- The key map of a half goes into its frames' key-store bytes (R672). -/
def State.applyKeyMap (s : State) (h : Nat) : State :=
  (List.range 4096).foldl (fun s f =>
    let b := s.byte (halfBase h + 0x1000 + f)
    let k := if b.toNat / 16 = 0 then b else 0
    let a := halfBase h / 4096 + f
    s.setKeyByte a ((s.keyByte a &&& 0x40#8) ||| k)) s

/-- A refused START or COMMIT (R675, R676). -/
def State.cstRefuse (s : State) (r : Requester) (result : Nat) : State :=
  (s.put F.CST.WR_STATUS.RESULT result).pageErr pgCST 0x10 0x58 r true

/-- The line buffers of every core give up the lines that a byte range touches (R263). -/
def State.dropLines (s : State) (a n : Nat) : State :=
  { s with core := s.core.map (fun p => (p.1, { p.2 with
      lines := p.2.lines.filter (fun x => decide (x.addr + 64 ≤ a) || decide (a + n ≤ x.addr)) })) }

/-- A half's COMMIT field is cleared (R675). -/
def State.uncommit (s : State) (h : Nat) : State := s.setBytes (halfBase h + 4092) (List.replicate 4 0)

/-- WR_CTRL.START (R675): the first line written clears COMMIT. -/
def State.cstStart (s : State) (r : Requester) (flash : Bool) : State :=
  let h := s.get F.CST.WR_DST.HALF
  let off := s.get F.CST.WR_DST.OFFSET
  let len := s.get F.CST.WR_LEN.BYTES
  let src := s.get F.CST.WR_SRC.ADDR
  if s.flag (halfRunning h) then s.cstRefuse r 1
  else if s.get F.GOV.UPD_STATUS.STATE = 1 then s.cstRefuse r 2
  else if len < 64 ∨ 0x1000000 < off + len ∨ src % 64 ≠ 0 ∨ off % 64 ≠ 0 ∨ len % 64 ≠ 0 then s.cstRefuse r 3
  else if !flash && !s.inDram src len then s.cstRefuse r 4
  else if s.flag F.CST.WR_STATUS.BUSY then s.cstRefuse r 5
  else
    let s1 := (s.uncommit h).put F.CST.WR_CTRL.START 1
    { (s1.put F.CST.WR_STATUS.BUSY 1).put (halfVerified h) 0 with
      cst := some { commit := false, half := h, src := src, flash := flash, dst := off, len := len } }

/-- The bytes a write copies. -/
def State.cstSource (s : State) (j : CstJob) (n : Nat) : List Byte :=
  if j.flash then (List.range n).map (fun i => tabGet 0xFF#8 s.flash (j.src + i)) else s.bytes j.src n

/-- Copy `n` bytes of a write into the half: COMMIT stays clear, since a half being written is never committed (R675), and the
lines are invalidated everywhere (R263). DEDUCED, log 81. -/
def State.cstCopy (s : State) (j : CstJob) (n : Nat) : State :=
  ((s.setBytes (halfBase j.half + j.dst) (s.cstSource j n)).uncommit j.half).dropLines (halfBase j.half) 0x1000000

/-- No write or commit runs any more: BUSY, START and COMMIT read 0 (R5). -/
def State.cstIdle (s : State) : State :=
  ((s.put F.CST.WR_STATUS.BUSY 0).put F.CST.WR_CTRL.START 0).put F.CST.WR_CTRL.COMMIT 0

/-- A write completes. DEDUCED, log 81. -/
def State.cstWriteDone (s : State) : State :=
  match s.cst with
  | some j =>
    if j.commit then s
    else
      let s1 := ({ s.cstCopy j j.len with cst := none }.put F.CST.WR_STATUS.RESULT 0).cstIdle
      (s1.pageInt pgCST 1).event 0x1501 0x15 0 j.half j.len 0
  | none => s

/-- WR_CTRL.COMMIT by a warden, or by the host while the boot ROM waits for its image (R665): refused with event 0x1502, or begun
(R676). DEDUCED, log 81. -/
def State.cstCommit (s : State) (r : Requester) (h : Nat) : State :=
  let refuse (n : Nat) := (s.cstRefuse r n).event 0x1502 0x15 1 h (s.halfGen h) n
  let hostBoots := r == .host && (s.boot == .pcie || s.boot == .recovery)
  if !(reqWarden r || r == .engine || hostBoots) then s.pageErr pgCST 0x11 0x58 r true
  else if s.flag (halfRunning h) then refuse 1
  else if s.get F.GOV.UPD_STATUS.STATE = 1 then refuse 2
  else if s.flag F.CST.WR_STATUS.BUSY then refuse 5
  else { (s.put F.CST.WR_CTRL.COMMIT 1).put F.CST.WR_STATUS.BUSY 1 with cst := some { commit := true, half := h, src := 0, flash := false, dst := 0, len := 0 } }

/-- A half fails the check of R596: protected event 0x1A02. -/
def State.imageFailed (s : State) (h key why : Nat) : State := s.event 0x1A02 0x1A 4 h key why

/-- What a commit does once it has checked: its RESULT and state. -/
def State.commitHalf (s : State) (h : Nat) : Nat × State :=
  if !headerOk (s.halfImg h) then (6, s)
  else match s.imageCheck (s.halfImg h) with
    | 0 => (0, ((s.applyKeyMap h).setBytes (halfBase h + 4092) [0x43#8, 0x4D#8, 0x49#8, 0x54#8]).put (halfVerified h) 1)
    | n => (7, s.imageFailed h (s.halfKey h) n)

/-- The commit ends. A half committed while the ROM waits for one restarts the boot at step 4 (R665, R668). -/
def State.cstCommitDone (s : State) : State :=
  match s.cst with
  | some j =>
    if !j.commit then s
    else
      let (n, s1) := s.commitHalf j.half
      let s2 := ({ s1 with cst := none }.put F.CST.WR_STATUS.RESULT n).cstIdle
      let s3 := (s2.pageInt pgCST 2).event 0x1502 0x15 1 j.half (s2.halfGen j.half) n
      if n = 0 ∧ (s3.boot = .pcie ∨ s3.boot = .recovery) then { s3 with boot := .again } else s3
  | none => s

/-- Writes on the CST page (R681). -/
def State.wCst (s : State) (r : Requester) (off : Nat) (v : Word) : Option State :=
  if off = 0x58 then
    let s1 := (s.put F.CST.WR_CTRL.HALF (b2n (v.getLsbD 2))).put F.CST.WR_CTRL.SRC (b2n (v.getLsbD 3))
    let s2 := if v.getLsbD 0 then s1.cstStart r (v.getLsbD 3) else s1
    some (if v.getLsbD 1 then s2.cstCommit r (b2n (v.getLsbD 2)) else s2)
  else none

/-- HALFx_STATUS as read: COMMITTED, KEY and GEN are the half's own. -/
def State.rCst (s : State) (off : Nat) : Option Word :=
  let show_ (h : Nat) (w : Word) := some (putF (putF (putF w 0 1 (b2n (s.halfCommitted h))) 3 2 (s.halfKey h)) 8 32 (s.halfGen h))
  if off = 0x68 then show_ 0 (s.reg R.CST.HALFA_STATUS) else if off = 0x70 then show_ 1 (s.reg R.CST.HALFB_STATUS) else none

/-- A code-store write or commit is abandoned by a power failure (R679): of a write, the lines already programmed stay, a
free number of them. -/
def State.cstAbandon (s : State) : State :=
  match s.cst with
  | some j =>
    let (n, s1) := s.draw
    let s2 := if j.commit then s1 else s1.cstCopy j (64 * (Config.freeNat n % (j.len / 64 + 1)))
    { s2.cstIdle with cst := none }
  | none => s

/-! ### Cold reset (R661, R664) -/

/-- What a cold reset leaves: class n fields, the recorder, the code store, the keys of slots 0 to 31, and what lies
outside the device. CORE_MAP shows the fuse defect map (R110). DEDUCED, log 88. -/
def State.coldReset (s : State) : State :=
  let z := State.reset
  let r := s.clearEnd.endSeals
  (List.range 64).foldl State.filterReset ((List.range 8).foldl State.loadMap { z with
    pending := r.pending, free := r.free, ticks := r.ticks, creg := (r.resetPages (fun _ => true) notKept).creg, dramCap := r.dramCap
    mem := r.mem.filter (fun p => decide (0xFE00000000 ≤ p.1) && decide (p.1 < 0xFE02000000))
    ue := r.ue.filter (fun p => decide (0xFE00000000 ≤ 64 * p.1) && decide (64 * p.1 < 0xFE02000000))
    intake := r.intake, recs := r.recs, recLost := r.recLost, protNext := r.protNext, opTicks := r.opTicks
    vault := r.vault.filter (fun p => decide (p.1 < 32))
    jr := { z.jr with life := r.jr.life, warned := r.jr.warned, slots := r.jr.slots.map (fun x => { (z.jslot 0) with cart := x.cart }) }
    weigh := (r.weigh.map (fun p => (p.1, { Weigh.init with taps := p.2.taps }))).filter (fun p => p.2 != Weigh.init)
    retired := r.retired, flash := r.flash, eclOut := r.eclOut })

/-- PORST_N rises after a cold reset (R661, R664, R680, R708): straps are latched, the cause and the fate of a last gasp
recorded, the banks' voltages are sensed (R544; what they are is the board's: a free value, log 105), and boot begins, or holds
while PFAIL_N is low. -/
def State.porst (s : State) (powerUp : Bool) (straps : BitVec 6) (pfailHigh : Bool) : State :=
  let done := s.flag F.CPR.RST_CAUSE.LG_DONE
  let cut := s.stopped && !done
  let lgDone := done && (s.stopped || !powerUp)
  let refs := s.get F.CPR.CLK_STATUS.REF_OK
  let s1 := s.coldReset
  let s2 := ((s1.put F.CPR.RST_CAUSE.CAUSE (if powerUp then 0 else 1)).put F.CPR.RST_CAUSE.LG_DONE (b2n lgDone)).put F.CPR.RST_CAUSE.LG_CUT (b2n cut)
  let s3 := ((s2.setReg R.CPR.STRAPS (straps.setWidth 40)).put F.TLY.SELF.ID (straps.toNat % 8)).put F.CPR.PFAIL.LEVEL (b2n pfailHigh)
  let s3 := (s3.put F.IXL.ROLE.ID (straps.toNat % 8)).put F.IXL.ROLE.STRAP (b2n (straps.getLsbD 5))
  let (n, s4) := ((s3.put F.CPR.CLK_STATUS.REF_OK (refs / 2 * 2)).bump F.REC.PCYCLES.COUNT 1).draw
  let s5 := s4.setReg R.GPIO.GP_BANK (BitVec.ofNat 40 (Config.freeNat n) &&& 0x555555)
  { s5 with boot := if pfailHigh then .pll else .hold }

/-! ### Boot (R665–R669) -/

/-- The FIXED vault slots are filled at boot step 3 (R598, R599). -/
def State.fixedKeys (s : State) : State :=
  (s.setKey 0 (beBytes 32 (privOf Config.deviceKey))).setKey 63 ((List.range 64).map Config.cartridgeRoot)

/-- The domains of boot step 5. -/
def stepFive : List Nat := [11, 12, 13, 15, 16, 17, 18]

/-- DDR training is complete: RETIRED is set again for the frames on the retirement list (R640). -/
def State.ddrReady (s : State) : State :=
  { s.retired.foldl (fun (s : State) f => s.setKeyByte f (s.keyByte f ||| 0x40#8)) s with trained := true }

/-- The boot ROM trains DDR and brings up the PCIe endpoint (R665): BAR 2 maps DRAM from 0, HOST_KRR grants key 0 read-write. -/
def State.pcieBoot (s : State) : State :=
  let s1 := (s.powerOn stepFive).ddrReady
  let s2 := ((s1.put F.PCI.PCFG.ROLE 0).put F.PCI.BAR2.BASE 0).put F.PCI.HOST_KRR.RIGHTS 2
  s2.put (F.HDR.PG_CTRL.ENABLE pgPCI) 1

/-- Step 3 begins: warden context 0 of warden core 0 runs the ROM from vector 0 (R265). -/
def State.romStart (s : State) : State :=
  let s1 := { (s.setCx 0x200 (Ctx.init 0x200)).fixedKeys with romStopped := false }
  let src := s1.get F.CPR.STRAPS.BOOTSRC
  let s2 := s1.put F.CST.BOOT_STATUS.SOURCE src
  if src = 2 then { s2.pcieBoot with boot := .pcie }
  else if src = 1 then { s2.powerOn stepFive with boot := .rom }
  else { s2 with boot := .rom }

/-- The root PLL locks (R653, R666 steps 2 and 3). DESIGN CHOICE, log 84. -/
def State.pllLock (s : State) : State :=
  if s.boot != .pll then s
  else
    let s1 := (s.put F.CPR.CLK_STATUS.LOCKED 1).put F.CPR.CLK_STATUS.REF_OK (s.get F.CPR.CLK_STATUS.REF_OK ||| 1)
    (s1.powerOn [0, 1, 10, 14, 19]).romStart

/-- The boot flash image, as a reader. -/
def State.flashImg (s : State) : ImgRead := fun off n => (List.range n).map (fun i => tabGet 0xFF#8 s.flash (off + i))

/-- BOOTSRC 0b01 (R665): a flash image that verifies and is newer than every committed half is written and committed, as R675 and
R676 say. Answers whether it was. -/
def State.flashBoot (s : State) : Bool × State :=
  let rd := s.flashImg
  let gen := leVal (rd 8 4)
  let newer := [0, 1].all (fun h => !s.halfCommitted h || decide (s.halfGen h < gen))
  if !headerOk rd || s.imageCheck rd != 0 || !newer then (false, s)
  else
    let h := if !s.halfCommitted 0 then 0 else if !s.halfCommitted 1 then 1 else if s.halfGen 1 < s.halfGen 0 then 1 else 0
    let len := 0x2000 + leVal (rd 12 4)
    let j : CstJob := { commit := false, half := h, src := 0, flash := true, dst := 0, len := len }
    let s1 := ((s.cstCopy j len).pageInt pgCST 1).event 0x1501 0x15 0 h len 0
    let (n, s2) := s1.commitHalf h
    let s3 := (s2.put F.CST.WR_STATUS.RESULT n).pageInt pgCST 2
    (true, (s3.put F.CST.BOOT_STATUS.FLASHED 1).event 0x1502 0x15 1 h gen n)

/-- The candidates in the order they are tried. -/
def State.bootOrder (s : State) : List Nat :=
  (if s.halfGen 0 < s.halfGen 1 then [1, 0] else [0, 1]).filter s.candidate

/-- Boot a half: its key map, status and the next step. -/
def State.bootWith (s : State) (h : Nat) (verified : Bool) : State :=
  let s1 := s.applyKeyMap h
  let s2 := ((s1.put (halfVerified h) (b2n verified)).put (halfRunning h) 1).put (halfRunning (1 - h)) 0
  let s3 := (s2.put F.SEC.BOOT_STATUS.VERIFIED (b2n verified)).put F.SEC.BOOT_STATUS.HALF h
  let s4 := if verified then s3.put F.SEC.BOOT_STATUS.KEY (s.halfKey h) else s3
  { s4 with boot := .config, bootHalf := h, cfgNext := 0 }

/-- Try candidates in order; each that fails is reported. Answers the first that passes. -/
def State.tryHalves : List Nat → State → Option Nat × State
  | [], s => (none, s)
  | h :: r, s => match s.imageCheck (s.halfImg h) with
    | 0 => (some h, s)
    | n => State.tryHalves r (s.imageFailed h (s.halfKey h) n)

/-- Select and verify a half (R667); with none the ROM enters recovery wait (R668). -/
def State.bootVerify (s : State) : State :=
  if s.boot != .rom && s.boot != .again then s
  else
    let s0 := if s.get F.CPR.STRAPS.BOOTSRC = 3 ∧ s.boot = .rom then s.event 0x1806 0x18 2 (s.reg R.CPR.STRAPS).toNat 0 0 else s
    let s1 := if s.get F.CPR.STRAPS.BOOTSRC = 1 ∧ s.boot = .rom then s0.flashBoot.2 else s0
    let order := s1.bootOrder
    match State.tryHalves order s1 with
    | (some h, s2) => s2.bootWith h true
    | (none, s2) =>
      match order.head?, s2.flag F.SEC.BOOT_STATUS.ENFORCE with
      | some h, false => s2.bootWith h false
      | _, _ =>
        let s3 := s2.event 0x1807 0x18 5 ((s2.rCst 0x68).getD 0).toNat ((s2.rCst 0x70).getD 0).toNat 0
        { (s3.put F.CST.BOOT_STATUS.RECOVERY 1).pcieBoot with boot := .recovery }

/-- Recovery wait checks the boot flash again (R668). -/
def State.flashRecheck (s : State) : State :=
  if s.boot != .recovery then s
  else
    match s.flashBoot with
    | (true, s1) => { s1 with boot := .again }
    | (false, s1) => s1

/-- What the undefined registers of warden context 0 hold at the boot entry (R669): free values.
DESIGN CHOICE, log 26. -/
def Ctx.scramble (x : Ctx) (n : Nat) : Ctx :=
  let w (i : Nat) : Word := Config.freeWord (n + i)
  let e (i : Nat) : DWord := (w i).setWidth 80
  { x with
    a := Vector.ofFn (fun i => w i.val), d := Vector.ofFn (fun i => e (20 + i.val))
    win := Vector.ofFn (fun k => Vector.ofFn (fun i => e (30 + 8 * k.val + i.val)))
    x := Vector.ofFn (fun i => BitVec.ofNat 176 (Config.freeNat (n + i.val) % 2 ^ 88))
    ls := Vector.ofFn (fun i => w (62 + i.val)), le := Vector.ofFn (fun i => w (66 + i.val)), lc := Vector.ofFn (fun i => w (70 + i.val))
    rc := w 74, esw := w 75, ph := e 76, pl := e 77, fsr := (w 78).setWidth 11, spu := w 79, role := (w 80).setWidth 12, tkt := w 81 }

/-- Step 7 (R669): the clusters are released, with the CORE_MAP that the cold reset took from the defect fuses (R110) and that a
warm reset keeps (R663), and warden context 0 transfers to the boot entry. -/
def State.releaseClusters (s : State) : State :=
  let s1 := (List.range 8).foldl (fun (s : State) n =>
    let d := s.defects n
    let marked := ((List.range 9).filter (bitOf d)).length
    if 2 ≤ marked then s.event 0x1808 0x18 4 n d 0
    else ((s.setPd (2 + n) true).put (F.CLU.CLK_STATUS.STEP (pgClu n)) 0).put (F.HDR.PG_CTRL.ENABLE (pgClu n)) 1) s
  let c : Cid := 0x200
  let entry := BitVec.ofNat 40 (halfBase s.bootHalf + s.halfField s.bootHalf 16 5)
  let x := (Ctx.init c).scramble s1.free
  let s2 := { s1 with free := s1.free + 100 }.setCx c { x with run := .running, pc := entry, sps := 0xFE80F10000 }
  let (n, s3) := s2.draw
  let ms := Config.freeNat n % 2 ^ 20
  let s4 := { s3.put F.CPR.BOOT_TIME.MS ms with boot := .done }
  s4.event 0x1805 0x18 0 s.bootHalf (s.halfGen s.bootHalf) ms

/-- DDR5 training completes, or DDR leaves self-refresh (R640, R662, R666): listed frames are retired, as after a cold start
they have to be again. The rest of the configuration table follows, or step 7. -/
def State.ddrTrained (s : State) : State :=
  if s.boot != .train then s
  else
    let s2 := s.ddrReady
    if s2.cfgNext < s2.halfField s2.bootHalf 24 2 then { s2 with boot := .config } else s2.releaseClusters

/-- One configuration entry (R673): ADDR, VALUE, OP, and whether its zero fields are zero. -/
structure CfgEntry where
  addr : Nat
  value : Nat
  op : Nat
  zero : Bool
deriving DecidableEq, Repr

def State.cfgEntry (s : State) (i : Nat) : CfgEntry :=
  let b := s.halfBytes s.bootHalf (s.halfField s.bootHalf 21 3 + 16 * i) 16
  let op := leVal ((b.drop 10).take 1)
  let a := leVal (b.take 5)
  let v := leVal ((b.drop 5).take 5)
  { addr := a, value := v, op := op
    zero := allZero (b.drop 11) && (op == 0 || a == 0) && (op != 2 || v == 0) }

/-- A skipped entry. -/
def State.cfgSkip (s : State) (i : Nat) (e : CfgEntry) : State :=
  (s.bumpSat F.CST.BOOT_STATUS.CFG_ERRS).event 0x1803 0x18 2 i e.addr e.op

/-! ### Warm reset (R662, R663) -/

/-- Step 1: contexts stop at their boundary, intakes stop, and the journal closes its batch with CLOSE 7. -/
def State.warmStart (s : State) (cause : Nat) : State :=
  if s.stopped || s.boot == .warm || s.boot == .hold || s.boot == .pll then s
  else if s.get F.DBG.ECL_STATUS.STATE = 1 then { s with heldReset := some cause }
  else
    let s1 := s.put F.CPR.RST_CAUSE.CAUSE cause
    let s2 := (List.range 68).foldl State.pauseCore s1
    let s3 := { State.replayDrain (s2.replayEntries.length + 65) s2.drainBanks with remoteOps := [] }
    { s3.journalFlush with boot := .warm }

/-- Step 3: class w and b fields return to reset. Clocks and power stay; DRAM, accounts, the code store, class c fields
and the retirement list are kept. No context then takes part in a handover, so one under way is DONE (R644). DEDUCED, log 82. -/
def State.warmClear (s : State) : State :=
  let clk := s.reg R.CPR.CLK_STATUS
  let pd := s.reg R.CPR.PD_STATUS
  let pf := s.reg R.CPR.PFAIL
  let s0 := ([0, 1, 2, 3, 4, 5, 6, 7].foldl (fun s n => s.stopTest (fun s _ => s) n) s.cstAbandon).stopJobs.endSeals
  let s1 := s0.resetPages (fun _ => true) (fun r => r.clsB ||| r.clsW)
  let s2 := ((s1.setReg R.CPR.CLK_STATUS clk).setReg R.CPR.PD_STATUS pd).setReg R.CPR.PFAIL pf
  let s3 := s2.wghReset.netRestart.ixlRestart.clearShadow.journalReset
  State.updCheck { s3 with
    ctx := [], core := [], inval := [], irt := [], swi := [], traceq := [], traceLost := 0, traceSince := 0, traceOwed := false
    tickets := [], tports := Vector.replicate 11 [], tptr := 0, remoteOps := [], replayEntries := [], ixIn := []
    prelOp := s3.prelOp.map (fun o => { o with ticket := none }), cutOp := s3.cutOp.map (fun o => { o with ticket := none })
    queues := [], qports := Vector.replicate 15 [], qptr := 0, qtags := [], orphans := [], msix := 0
    own := [], claimRes := [], ownSel := [], framers := [], ready := [], usbErr := [], usbTog := [], ctlReq := [], txHeld := [], tmOut := 0, tmAt := []
    hostCpl := none, pciReq := none, swCopies := [], clears := [], retireQ := [], pwrUp := none, pwrRun := 0, cst := none
    cometBack := none, cometHeld := none, trained := false, warmBoot := true, heldReset := none, dbgDue := false }

/-- Steps 3 to 5, once the journal has committed (R475, R662, R663). -/
def State.warmResume (s : State) : State := if s.boot != .warm || !s.journalSettled then s else s.warmClear.romStart

/-! ### Power failure (R19, R677, R679) -/

/-- Last gasp begins. A full eclipse thaws by force first (R702); a code-store write, a warm reset, moves and tests are
abandoned. DEDUCED, log 83. -/
def State.lastGasp (s : State) : State :=
  if s.stopped || s.boot == .hold then s
  else
    let s0 := { { s with stopped := true }.thawFull true with heldReset := none }
    let s1 := (s0.event 0x1801 0x18 4 (s0.reg R.CPR.PD_STATUS).toNat 0 0).pageInt pgCPR 1
    let s2 := (((s1.put F.CPR.RST_CAUSE.LG_DONE 0).journalGasp).stopJobs).cstAbandon.endSeals
    let s3 := s2.put F.CPR.PD_STATUS.POWERED (s2.get F.CPR.PD_STATUS.POWERED &&& 0x82003)
    let s4 := { s3.setReg R.GHEA.COMET_CTRL 0 with
                        tports := Vector.replicate 11 [], comet := none, pwrUp := none, cometBack := none, cometHeld := none,
                        subs := [], boot := if s3.boot = .warm then .done else s3.boot }
    (List.range 2).foldl (fun (s : State) p => s.setReg (R.IXP.XSTATUS (pgIxp p)) 0) s4

/-- The end of last gasp (R677 step 5). -/
def State.gaspEnd (s : State) : State :=
  if s.stopped && !s.flag F.CPR.RST_CAUSE.LG_DONE then (s.put F.CPR.PD_STATUS.POWERED 1).put F.CPR.RST_CAUSE.LG_DONE 1 else s

/-! ### CPR writes (R658, R660, R680) -/

def State.wCpr (s : State) (r : Requester) (off : Nat) (v : Word) : Option State :=
  if off = 0x50 then some (s.pdSwitch r v)
  else if off = 0x68 then
    some (if !reqWarden r then s.pageErr pgCPR 0x11 off r true else if v.getLsbD 0 then s.warmStart 3 else s)
  else none

/-! ### Commands -/

/-- PORST (R661): the cold reset, seen at the rise of PORST_N. -/
def execPorst (powerUp : Bool) (straps : BitVec 6) (pfailHigh : Bool) (s : State) : Host.Outcome State Fault Refusal :=
  .next (s.porst powerUp straps pfailHigh)

/-- PFAIL_N_HIGH (R708). -/
def execPfailNHigh (s : State) : Host.Outcome State Fault Refusal :=
  .next (if s.boot == .hold then { s.put F.CPR.PFAIL.LEVEL 1 with boot := .pll } else s.put F.CPR.PFAIL.LEVEL 1)

/-- PLL_LOCK (R653, R666). -/
def execPllLock (s : State) : Host.Outcome State Fault Refusal := .next (if s.stopped then s else s.pllLock)

/-- BOOT_VERIFY (R667). -/
def execBootVerify (s : State) : Host.Outcome State Fault Refusal := .next (if s.stopped then s else s.bootVerify)

/-- DDR_TRAIN_DONE (R666). -/
def execDdrTrainDone (s : State) : Host.Outcome State Fault Refusal := .next (if s.stopped then s else s.ddrTrained)

/-- BOOT_FLASH_RECHECK (R668). -/
def execBootFlashRecheck (s : State) : Host.Outcome State Fault Refusal := .next (if s.stopped then s else s.flashRecheck)

/-- PCIE_BOOT_TIMEOUT (R665). -/
def execPcieBootTimeout (s : State) : Host.Outcome State Fault Refusal :=
  .next (if s.boot == .pcie && !s.stopped then { s with boot := .rom } else s)

/-- WRST (R662): WRST_N has been low for 1 µs. -/
def execWrst (s : State) : Host.Outcome State Fault Refusal := .next (s.warmStart 2)

/-- WARM_RESET_RESUME (R662): the journal has committed and WRST_N is high. -/
def execWarmResetResume (s : State) : Host.Outcome State Fault Refusal := .next s.warmResume

/-- REFCLK_LOSS (R654): REFCLK stops, or the PLL loses lock. -/
def execRefclkLoss (refclk : Bool) (s : State) : Host.Outcome State Fault Refusal :=
  .next (if s.flag F.CPR.CLK_STATUS.LOCKED && !s.flag F.CPR.CLK_STATUS.HOLDOVER then
      let s1 := (s.put F.CPR.CLK_STATUS.LOCKED 0).put F.CPR.CLK_STATUS.HOLDOVER 1
      let s2 := if refclk then s1.put F.CPR.CLK_STATUS.REF_OK (s1.get F.CPR.CLK_STATUS.REF_OK / 2 * 2) else s1
      (s2.pageInt pgCPR 2).event 0x1804 0x18 3 (s2.reg R.CPR.CLK_STATUS).toNat 1 0
    else s)

/-- LOCK_REGAIN (R654). -/
def execLockRegain (s : State) : Host.Outcome State Fault Refusal :=
  .next (if s.flag F.CPR.CLK_STATUS.HOLDOVER then
      let s1 := (s.put F.CPR.CLK_STATUS.LOCKED 1).put F.CPR.CLK_STATUS.HOLDOVER 0
      let s2 := s1.put F.CPR.CLK_STATUS.REF_OK (s1.get F.CPR.CLK_STATUS.REF_OK ||| 1)
      (s2.pageInt pgCPR 2).event 0x1804 0x18 3 (s2.reg R.CPR.CLK_STATUS).toNat 0 0
    else s)

/-- HOLDOVER_EXPIRY (R654): last gasp runs as if PFAIL_N had fallen. -/
def execHoldoverExpiry (s : State) : Host.Outcome State Fault Refusal :=
  .next (if s.flag F.CPR.CLK_STATUS.HOLDOVER then s.lastGasp else s)

/-- SERIAL_REFERENCE_CHANGE (R655): 0 SDREFCLK, 1 PEREFCLK, 2 USBREFCLK starts or stops. -/
def execSerialReferenceChange (which : Fin 3) (present : Bool) (s : State) : Host.Outcome State Fault Refusal :=
  .next (let m := s.get F.CPR.CLK_STATUS.REF_OK
    let b := which.val + 1
    s.put F.CPR.CLK_STATUS.REF_OK (if bitOf m b == present then m else if present then m + 2 ^ b else m - 2 ^ b))

/-- PD_ON_DONE (R658). -/
def execPdOnDone (n : Fin 20) (s : State) : Host.Outcome State Fault Refusal :=
  .next (if pdSwitched n && bitOf (s.get F.CPR.PD_CTRL.ON) n && !s.powered n && !s.stopped && s.boot == .done then s.domainOn n else s)

/-- CODE_STORE_WRITE_DONE (R675). -/
def execCodeStoreWriteDone (s : State) : Host.Outcome State Fault Refusal :=
  .next (if s.live pgCST then s.cstWriteDone else s)

/-- CODE_STORE_COMMIT_DONE (R676). -/
def execCodeStoreCommitDone (s : State) : Host.Outcome State Fault Refusal :=
  .next (if s.live pgCST then s.cstCommitDone else s)

/-- PFAIL_EDGE (R677). -/
def execPfailEdge (s : State) : Host.Outcome State Fault Refusal := .next (s.lastGasp.put F.CPR.PFAIL.LEVEL 0)

/-- LAST_GASP_END (R677 step 5). -/
def execLastGaspEnd (s : State) : Host.Outcome State Fault Refusal := .next s.gaspEnd

end Sys2Proof.Machine
end

