-- ==== Sys2Proof/Machine/Clock.lean ====
section
/-! DEFINITION. The model's clock: one TCLK of 10 ns passes at a step on an empty queue (R77, R559, R666). -/

namespace Sys2Proof.Machine

/-- Does TCLK run: the fabric is powered, the root PLL is locked or in holdover, and the device is not frozen (R559, R654,
R686)? -/
def State.tclkRuns (s : State) : Bool :=
  s.powered 10 && (s.flag F.CPR.CLK_STATUS.LOCKED || s.flag F.CPR.CLK_STATUS.HOLDOVER) && !s.frozen none

/-- The operating time of the recorder (R77): one unit of OPTIME is 87,890,625 ticks. -/
def State.opTick (s : State) : State :=
  if s.opTicks == 87890624 then { s with opTicks := 0 }.bump F.REC.OPTIME.TIME 1 else { s with opTicks := s.opTicks + 1 }

/-- The countdown of an expert grant (R593): LEFT falls each second; its last second ends by GRANT_EXPIRY. -/
def State.grantTick (s : State) : State :=
  let l := s.get F.WRD.GRANT_EXPIRE.LEFT
  if l ≤ 1 then s
  else if s.grantTicks == 99999999 then { s with grantTicks := 0 }.put F.WRD.GRANT_EXPIRE.LEFT (l - 1)
  else { s with grantTicks := s.grantTicks + 1 }

/-- One tick: the timebase, the operating time and the countdown of a grant advance. -/
def State.tick (s : State) : State :=
  let s1 := { s with ticks := s.ticks + 1 }.opTick.grantTick
  if s1.tclkRuns then s1.tbTick else s1

end Sys2Proof.Machine
end

