-- ==== Sys2Proof/Machine/Float.lean ====
section
/-! DEFINITION. binary32 and decimal64 arithmetic (R63–R66, R178–R193): every rounded result is the exact
result rounded once. A finite value is held as sign × m × base^e with natural m. -/

namespace Sys2Proof.Machine

/-- A floating-point datum: NaN (signalling?, sign, payload), infinity or a finite value. -/
inductive FDatum where
  | nan (sig : Bool) (neg : Bool) (payload : Nat)
  | inf (neg : Bool)
  | fin (neg : Bool) (m : Nat) (e : Int)
deriving DecidableEq, Repr

/-- The sticky flags an operation sets: invalid, division by zero, overflow, underflow, inexact. -/
structure FFlags where
  iv : Bool
  dz : Bool
  ov : Bool
  uf : Bool
  nx : Bool
deriving DecidableEq, Repr

/-- No flag. -/
def FFlags.none : FFlags := { iv := false, dz := false, ov := false, uf := false, nx := false }
def FFlags.invalid : FFlags := { FFlags.none with iv := true }

/-- The direction a rounding-select field names (R182): 0 SR.FRM, 1–5 FRM value RC − 1. -/
def frmSel (rc frm : Nat) : Option Nat := if rc = 0 then some frm else if rc < 6 then some (rc - 1) else none

/-- Does rounding go away from zero? `cmp` compares the dropped part with half a unit. -/
def roundAway (dir : Nat) (neg : Bool) (odd : Bool) (inexact : Bool) (cmp : Ordering) : Bool :=
  match dir with
  | 0 => cmp == .gt || (cmp == .eq && odd)
  | 2 => inexact && !neg
  | 3 => inexact && neg
  | 4 => cmp == .gt || cmp == .eq
  | _ => false

/-- Does overflow in a direction give infinity (R183)? -/
def overflowInf (dir : Nat) (neg : Bool) : Bool :=
  match dir with
  | 1 => false
  | 2 => !neg
  | 3 => neg
  | _ => true

/-- Compare a dropped remainder `r` (with a sticky part below it) against half of `p`. -/
def halfCmp (r p : Nat) (sticky : Bool) : Ordering :=
  if 2 * r < p then .lt else if 2 * r = p then (if sticky then .gt else .eq) else .gt

/-- Number of digits of `v` in a base, with fuel. -/
def numDigits (base : Nat) : Nat → Nat → Nat
  | 0, _ => 0
  | f + 1, v => if v = 0 then 0 else 1 + numDigits base f (v / base)

/-- Integer square root, from bit `k` down. -/
def isqrtAux (n : Nat) : Nat → Nat → Nat
  | 0, r => r
  | k + 1, r => let t := r + 2 ^ k; isqrtAux n k (if t * t ≤ n then t else r)

/-- Integer square root of a number below 2^512. -/
def isqrt (n : Nat) : Nat := isqrtAux n 256 0

/-- Round m × base^e (plus a sticky part) to a significand at exponent `q ≥ e`: significand and inexact. -/
def roundAt (base : Nat) (dir : Nat) (neg : Bool) (m : Nat) (e q : Int) (sticky : Bool) : Nat × Bool :=
  if q ≤ e then (m * base ^ (e - q).toNat, sticky)
  else
    let p := base ^ (q - e).toNat
    let s := m / p
    let r := m % p
    let nx := sticky || r != 0
    ((if roundAway dir neg (s % 2 == 1) nx (halfCmp r p sticky) then s + 1 else s), nx)

/-! ### binary32 (R63) -/

/-- The bits of a sign, biased exponent and fraction. -/
def b32Bits (neg : Bool) (ex fr : Nat) : Nat := b2n neg * 2 ^ 31 + ex * 2 ^ 23 + fr

/-- Read a binary32 from bits [31:0]. -/
def b32Dec (v : Nat) : FDatum :=
  let neg := bitOf v 31
  let ex := bitsOf v 23 8
  let fr := bitsOf v 0 23
  if ex = 255 then (if fr = 0 then .inf neg else .nan (!bitOf v 22) neg fr)
  else if ex = 0 then .fin neg fr (-149)
  else .fin neg (fr + 2 ^ 23) ((ex : Int) - 150)

/-- The default quiet NaN (R185). -/
def b32DefNan : Nat := 0x7FC00000
def b32Inf (neg : Bool) : Nat := b32Bits neg 255 0

/-- Round an exact value to binary32 (R183, R184). PRESUMED, log 22. -/
def b32Round (dir : Nat) (neg : Bool) (m : Nat) (e : Int) (sticky : Bool) : Nat × FFlags :=
  if m = 0 ∧ !sticky then (b32Bits neg 0 0, .none) else
  let len := numDigits 2 2048 m
  let q0 := e + len - 24
  let q := if q0 < -149 then -149 else q0
  let (s, nx) := roundAt 2 dir neg m e q sticky
  let (s', q') := if s = 2 ^ 24 then (2 ^ 23, q + 1) else (s, q)
  if 104 < q' then
    ((if overflowInf dir neg then b32Inf neg else b32Bits neg 254 (2 ^ 23 - 1)),
      { FFlags.none with ov := true, nx := true })
  else
    let (u, _) := roundAt 2 dir neg m e q0 sticky
    let tiny := decide (q0 < -149) && !(decide (u = 2 ^ 24) && q0 + 1 == -149)
    let bits := if s' < 2 ^ 23 then b32Bits neg 0 s' else b32Bits neg (q' + 150).toNat (s' - 2 ^ 23)
    (bits, { FFlags.none with uf := tiny && nx, nx := nx })

/-- A NaN operand made quiet (R185). -/
def b32Quiet (neg : Bool) (p : Nat) : Nat := b32Bits neg 255 (if bitOf p 22 then p else p + 2 ^ 22)

/-- NaN propagation for two operands: the first NaN made quiet, invalid for a signalling NaN (R185). -/
def b32Nan2 (a b : FDatum) : Option (Nat × FFlags) :=
  match a, b with
  | .nan sa na pa, .nan sb _ _ => some (b32Quiet na pa, { FFlags.none with iv := sa || sb })
  | .nan sa na pa, _ => some (b32Quiet na pa, { FFlags.none with iv := sa })
  | _, .nan sb nb pb => some (b32Quiet nb pb, { FFlags.none with iv := sb })
  | _, _ => none

/-- A signed integer as sign and magnitude. -/
def signedOf (neg : Bool) (m : Nat) : Int := if neg then -(m : Int) else (m : Int)

/-- The sum of two finite values in a base, exact: sign and magnitude at the smaller exponent. The sign of
an exact zero sum is + , and − only toward −∞, unless both operands are zeros of one sign (R183). -/
def exactSum (base dir : Nat) (na : Bool) (ma : Nat) (ea : Int) (nb : Bool) (mb : Nat) (eb : Int) : Bool × Nat × Int :=
  let e := if ea ≤ eb then ea else eb
  let v := signedOf na (ma * base ^ (ea - e).toNat) + signedOf nb (mb * base ^ (eb - e).toNat)
  if v = 0 then ((if na == nb ∧ ma = 0 ∧ mb = 0 then na else dir == 3), 0, e)
  else (decide (v < 0), v.natAbs, e)

/-- FADD, and FSUB with the second sign inverted. -/
def b32Add (dir : Nat) (a b : FDatum) : Nat × FFlags :=
  match b32Nan2 a b with
  | some r => r
  | none => match a, b with
    | .inf na, .inf nb => if na = nb then (b32Inf na, .none) else (b32DefNan, .invalid)
    | .inf na, _ => (b32Inf na, .none)
    | _, .inf nb => (b32Inf nb, .none)
    | .fin na ma ea, .fin nb mb eb =>
      let (n, m, e) := exactSum 2 dir na ma ea nb mb eb
      b32Round dir n m e false
    | _, _ => (b32DefNan, .invalid)

/-- Invert the sign of a datum that is not a NaN. -/
def fNegate : FDatum → FDatum
  | .nan s n p => .nan s n p
  | .inf n => .inf (!n)
  | .fin n m e => .fin (!n) m e

/-- FMUL. -/
def b32Mul (dir : Nat) (a b : FDatum) : Nat × FFlags :=
  match b32Nan2 a b with
  | some r => r
  | none => match a, b with
    | .inf na, .inf nb => (b32Inf (na != nb), .none)
    | .inf na, .fin nb mb _ => if mb = 0 then (b32DefNan, .invalid) else (b32Inf (na != nb), .none)
    | .fin na ma _, .inf nb => if ma = 0 then (b32DefNan, .invalid) else (b32Inf (na != nb), .none)
    | .fin na ma ea, .fin nb mb eb => b32Round dir (na != nb) (ma * mb) (ea + eb) false
    | _, _ => (b32DefNan, .invalid)

/-- FDIV. -/
def b32Div (dir : Nat) (a b : FDatum) : Nat × FFlags :=
  match b32Nan2 a b with
  | some r => r
  | none => match a, b with
    | .inf _, .inf _ => (b32DefNan, .invalid)
    | .inf na, .fin nb _ _ => (b32Inf (na != nb), .none)
    | .fin na _ _, .inf nb => (b32Bits (na != nb) 0 0, .none)
    | .fin na ma ea, .fin nb mb eb =>
      if mb = 0 then
        if ma = 0 then (b32DefNan, .invalid) else (b32Inf (na != nb), { FFlags.none with dz := true })
      else b32Round dir (na != nb) (ma * 2 ^ 64 / mb) (ea - eb - 64) (ma * 2 ^ 64 % mb != 0)
    | _, _ => (b32DefNan, .invalid)

/-- FSQRT. -/
def b32Sqrt (dir : Nat) (a : FDatum) : Nat × FFlags :=
  match a with
  | .nan s n p => (b32Quiet n p, { FFlags.none with iv := s })
  | .inf n => if n then (b32DefNan, .invalid) else (b32Inf false, .none)
  | .fin n m e =>
    if m = 0 then (b32Bits n 0 0, .none)
    else if n then (b32DefNan, .invalid)
    else
      let odd := (e % 2).toNat
      let v := m * 2 ^ (64 + odd)
      let r := isqrt v
      b32Round dir false r ((e - odd - 64) / 2) (r * r != v)

/-- Compare two data: less, equal, greater or unordered (R187). -/
def fCompare (base : Nat) (a b : FDatum) : Option Ordering :=
  match a, b with
  | .nan .., _ => none
  | _, .nan .. => none
  | .inf na, .inf nb => some (if na = nb then .eq else if na then .lt else .gt)
  | .inf na, _ => some (if na then .lt else .gt)
  | _, .inf nb => some (if nb then .gt else .lt)
  | .fin na ma ea, .fin nb mb eb =>
    let e := if ea ≤ eb then ea else eb
    let v := signedOf na (ma * base ^ (ea - e).toNat)
    let w := signedOf nb (mb * base ^ (eb - e).toNat)
    some (if v < w then .lt else if v = w then .eq else .gt)

/-- Is a datum a NaN; a signalling NaN? -/
def fIsNan : FDatum → Bool | .nan .. => true | _ => false
def fIsSig : FDatum → Bool | .nan s _ _ => s | _ => false

/-- SR after a floating-point compare (R187). -/
def flagsFcmp (sr : Word) (o : Option Ordering) : Word :=
  match o with
  | none => setCVZN sr false true false false
  | some .gt => setCVZN sr true false false false
  | some .eq => setCVZN sr true false true false
  | some .lt => setCVZN sr false false false true

/-- The invalid flag of a compare (R187). -/
def fcmpInvalid (signalling : Bool) (a b : FDatum) : Bool :=
  fIsSig a || fIsSig b || (signalling && (fIsNan a || fIsNan b))

/-- A finite value rounded to an integer in a base: the integer and inexact. -/
def roundToInt (base dir : Nat) (neg : Bool) (m : Nat) (e : Int) : Int × Bool :=
  let (s, nx) := roundAt base dir neg m e 0 false
  (signedOf neg s, nx)

/-- FTOI to `w` bits (R188): the two's-complement result, invalid and inexact. -/
def b32ToInt (w dir : Nat) (a : FDatum) : Nat × FFlags :=
  let lo : Int := -(2 ^ (w - 1) : Nat)
  let hi : Int := (2 ^ (w - 1) : Nat) - 1
  match a with
  | .nan .. => (umod w lo, .invalid)
  | .inf n => (umod w (if n then lo else hi), .invalid)
  | .fin n m e =>
    let (v, nx) := roundToInt 2 dir n m e
    if v < lo then (umod w lo, .invalid)
    else if hi < v then (umod w hi, .invalid)
    else (umod w v, { FFlags.none with nx := nx })

/-- ITOF of a `w`-bit integer (R180, R188). -/
def b32OfInt (w dir a : Nat) : Nat × FFlags :=
  let v := sint w a
  b32Round dir (decide (v < 0)) v.natAbs 0 false

/-! ### decimal64 (R64–R66) -/

/-- The three digits of a declet (IEEE 754-2008 densely packed decimal), any of the 1024 codes. -/
def decletVal (x : Nat) : Nat :=
  let b (i : Nat) := b2n (bitOf x i)
  let abc := 4 * b 9 + 2 * b 8 + b 7
  let d := b 6; let e := b 5; let f := b 4
  let g := b 3; let h := b 2; let i := b 1; let j := b 0
  if g = 0 then 100 * abc + 10 * (4 * d + 2 * e + f) + (4 * h + 2 * i + j)
  else
    match 2 * h + i with
    | 0 => 100 * abc + 10 * (4 * d + 2 * e + f) + (8 + j)
    | 1 => 100 * abc + 10 * (8 + f) + (4 * d + 2 * e + j)
    | 2 => 100 * (8 + b 7) + 10 * (4 * d + 2 * e + f) + (4 * b 9 + 2 * b 8 + j)
    | _ => match 2 * d + e with
      | 0 => 100 * (8 + b 7) + 10 * (8 + f) + (4 * b 9 + 2 * b 8 + j)
      | 1 => 100 * (8 + b 7) + 10 * (4 * b 9 + 2 * b 8 + f) + (8 + j)
      | 2 => 100 * abc + 10 * (8 + f) + (8 + j)
      | _ => 100 * (8 + b 7) + 10 * (8 + f) + (8 + j)

/-- The canonical declet of three digits. -/
def decletOf (v : Nat) : Nat :=
  let x := v / 100 % 10; let y := v / 10 % 10; let z := v % 10
  let xl := x % 2; let yl := y % 2; let zl := z % 2
  let yh := y / 2 % 4; let zh := z / 2 % 4
  match decide (8 ≤ x), decide (8 ≤ y), decide (8 ≤ z) with
  | false, false, false => x * 128 + y * 16 + z
  | false, false, true => x * 128 + y * 16 + 8 + zl
  | false, true, false => x * 128 + zh * 32 + yl * 16 + 10 + zl
  | true, false, false => zh * 256 + xl * 128 + y * 16 + 12 + zl
  | true, true, false => zh * 256 + xl * 128 + yl * 16 + 14 + zl
  | true, false, true => yh * 256 + xl * 128 + 32 + yl * 16 + 14 + zl
  | false, true, true => x * 128 + 64 + yl * 16 + 14 + zl
  | true, true, true => xl * 128 + 96 + yl * 16 + 14 + zl

/-- The digits of `n` declets. -/
def decletsVal : Nat → Nat → Nat
  | 0, _ => 0
  | n + 1, v => decletVal (v % 1024) + 1000 * decletsVal n (v / 1024)

/-- `n` canonical declets. -/
def decletsOf : Nat → Nat → Nat
  | 0, _ => 0
  | n + 1, v => decletOf (v % 1000) + 1024 * decletsOf n (v / 1000)

/-- Read a decimal64 from 64 bits (R64, R65). A NaN's payload is its 15 digits. -/
def d64Dec (v : Nat) : FDatum :=
  let neg := bitOf v 63
  let g := bitsOf v 58 5
  let cont := bitsOf v 50 8
  let low := decletsVal 5 (bitsOf v 0 50)
  if g = 31 then .nan (bitOf v 57) neg low
  else if g = 30 then .inf neg
  else
    let (ex, msd) := if g / 8 = 3 then (g / 2 % 4, 8 + g % 2) else (g / 8, g % 8)
    .fin neg (msd * 10 ^ 15 + low) ((ex * 256 + cont : Nat) - 398)

/-- The canonical encoding of a finite decimal64 (coefficient below 10^16, exponent −398 to 369). -/
def d64Bits (neg : Bool) (c : Nat) (e : Int) : Nat :=
  let be := (e + 398).toNat
  let msd := c / 10 ^ 15 % 10
  let g := if 8 ≤ msd then 24 + 2 * (be / 256 % 4) + msd % 2 else 8 * (be / 256 % 4) + msd
  b2n neg * 2 ^ 63 + g * 2 ^ 58 + be % 256 * 2 ^ 50 + decletsOf 5 (c % 10 ^ 15)

def d64Inf (neg : Bool) : Nat := b2n neg * 2 ^ 63 + 30 * 2 ^ 58
def d64DefNan : Nat := 31 * 2 ^ 58
/-- A NaN with its payload, quiet or signalling, canonical (R65, R185). -/
def d64Nan (sig neg : Bool) (p : Nat) : Nat := b2n neg * 2 ^ 63 + 31 * 2 ^ 58 + b2n sig * 2 ^ 57 + decletsOf 5 p

/-- The canonical encoding of any datum. -/
def d64Enc : FDatum → Nat
  | .nan s n p => d64Nan s n p
  | .inf n => d64Inf n
  | .fin n m e => d64Bits n m e

/-- The exact decimal64 of `v` × 10^−`n` (R189): trailing zeros of a longer value go into the exponent. None where 16 digits do not
hold it. -/
def d64OfDec (v : Int) (n : Nat) : Option Nat :=
  let k := numDigits 10 64 v.natAbs - 16
  if v.natAbs % 10 ^ k = 0 then some (d64Bits (decide (v < 0)) (v.natAbs / 10 ^ k) ((k : Int) - n)) else none

/-- Clamp an exponent to the format. -/
def d64Clamp (e : Int) : Int := if e < -398 then -398 else if 369 < e then 369 else e

/-- Move an exact coefficient's exponent up toward `p` by dropping trailing zeros, or down by appending
zeros while 16 digits hold it (R186). -/
def d64Prefer (p : Int) : Nat → Nat → Int → Nat × Int
  | 0, c, e => (c, e)
  | f + 1, c, e =>
    if e < p ∧ c % 10 = 0 then d64Prefer p f (c / 10) (e + 1)
    else if p < e ∧ c * 10 < 10 ^ 16 then d64Prefer p f (c * 10) (e - 1)
    else (c, e)

/-- Round an exact value to decimal64 with a preferred exponent (R183, R184, R186). -/
def d64Round (dir : Nat) (neg : Bool) (m : Nat) (e : Int) (sticky : Bool) (pref : Int) : Nat × FFlags :=
  if m = 0 ∧ !sticky then (d64Bits neg 0 (d64Clamp pref), .none) else
  let len := numDigits 10 2048 m
  let q0 := e + len - 16
  let q := if q0 < -398 then -398 else q0
  let (s, nx) := roundAt 10 dir neg m e (if q < e ∧ !sticky then e else q) sticky
  let qe := if q < e ∧ !sticky then e else q
  let (s', q') := if s = 10 ^ 16 then (10 ^ 15, qe + 1) else (s, qe)
  let (c, x) := if nx then (s', q') else d64Prefer (d64Clamp pref) 2048 s' q'
  if 369 < x then
    ((if overflowInf dir neg then d64Inf neg else d64Bits neg (10 ^ 16 - 1) 369),
      { FFlags.none with ov := true, nx := true })
  else
    let (u, _) := roundAt 10 dir neg m e q0 sticky
    let tiny := decide (q0 < -398) && !(decide (u = 10 ^ 16) && q0 + 1 == -398)
    (d64Bits neg c x, { FFlags.none with uf := tiny && nx, nx := nx })

/-- NaN propagation for two operands (R185). -/
def d64Nan2 (a b : FDatum) : Option (Nat × FFlags) :=
  match a, b with
  | .nan sa na pa, .nan sb _ _ => some (d64Nan false na pa, { FFlags.none with iv := sa || sb })
  | .nan sa na pa, _ => some (d64Nan false na pa, { FFlags.none with iv := sa })
  | _, .nan sb nb pb => some (d64Nan false nb pb, { FFlags.none with iv := sb })
  | _, _ => none

/-- DFADD, and DFSUB with the second sign inverted. -/
def d64Add (dir : Nat) (a b : FDatum) : Nat × FFlags :=
  match d64Nan2 a b with
  | some r => r
  | none => match a, b with
    | .inf na, .inf nb => if na = nb then (d64Inf na, .none) else (d64DefNan, .invalid)
    | .inf na, _ => (d64Inf na, .none)
    | _, .inf nb => (d64Inf nb, .none)
    | .fin na ma ea, .fin nb mb eb =>
      let (n, m, e) := exactSum 10 dir na ma ea nb mb eb
      d64Round dir n m e false e
    | _, _ => (d64DefNan, .invalid)

/-- DFMUL. -/
def d64Mul (dir : Nat) (a b : FDatum) : Nat × FFlags :=
  match d64Nan2 a b with
  | some r => r
  | none => match a, b with
    | .inf na, .inf nb => (d64Inf (na != nb), .none)
    | .inf na, .fin nb mb _ => if mb = 0 then (d64DefNan, .invalid) else (d64Inf (na != nb), .none)
    | .fin na ma _, .inf nb => if ma = 0 then (d64DefNan, .invalid) else (d64Inf (na != nb), .none)
    | .fin na ma ea, .fin nb mb eb => d64Round dir (na != nb) (ma * mb) (ea + eb) false (ea + eb)
    | _, _ => (d64DefNan, .invalid)

/-- DFDIV; `z` is the exponent of a finite value divided by infinity, which R186 leaves open. -/
def d64Div (z : Int) (dir : Nat) (a b : FDatum) : Nat × FFlags :=
  match d64Nan2 a b with
  | some r => r
  | none => match a, b with
    | .inf _, .inf _ => (d64DefNan, .invalid)
    | .inf na, .fin nb _ _ => (d64Inf (na != nb), .none)
    | .fin na _ _, .inf nb => (d64Bits (na != nb) 0 z, .none)
    | .fin na ma ea, .fin nb mb eb =>
      if mb = 0 then
        if ma = 0 then (d64DefNan, .invalid) else (d64Inf (na != nb), { FFlags.none with dz := true })
      else d64Round dir (na != nb) (ma * 10 ^ 40 / mb) (ea - eb - 40) (ma * 10 ^ 40 % mb != 0) (ea - eb)
    | _, _ => (d64DefNan, .invalid)

/-- DFSQRT. -/
def d64Sqrt (dir : Nat) (a : FDatum) : Nat × FFlags :=
  match a with
  | .nan s n p => (d64Nan false n p, { FFlags.none with iv := s })
  | .inf n => if n then (d64DefNan, .invalid) else (d64Inf false, .none)
  | .fin n m e =>
    if m = 0 then (d64Bits n 0 (d64Clamp (e / 2)), .none)
    else if n then (d64DefNan, .invalid)
    else
      let odd := (e % 2).toNat
      let v := m * 10 ^ (40 + odd)
      let r := isqrt v
      d64Round dir false r ((e - odd - 40) / 2) (r * r != v) (e / 2)

/-- DFQUA: a rounded to the exponent of b; invalid when 16 digits do not hold it (R181, R184). -/
def d64Quantize (dir : Nat) (a b : FDatum) : Nat × FFlags :=
  match d64Nan2 a b with
  | some r => r
  | none => match a, b with
    | .inf na, .inf _ => (d64Inf na, .none)
    | .fin na ma ea, .fin _ _ eb =>
      let (s, nx) := roundAt 10 dir na ma ea eb false
      if s < 10 ^ 16 then (d64Bits na s eb, { FFlags.none with nx := nx }) else (d64DefNan, .invalid)
    | _, _ => (d64DefNan, .invalid)

/-- DFTOD: a × 10^n rounded to an `w`-digit decimal register (R189). -/
def d64ToDec (w dir n : Nat) (a : FDatum) : Nat × FFlags :=
  let lo : Int := -(5 * 10 ^ (w - 1) : Nat)
  let hi : Int := (5 * 10 ^ (w - 1) : Nat) - 1
  match a with
  | .nan .. => (decOf w lo, .invalid)
  | .inf neg => (decOf w (if neg then lo else hi), .invalid)
  | .fin neg m e =>
    let (v, nx) := roundToInt 10 dir neg m (e + n)
    if v < lo then (decOf w lo, .invalid)
    else if hi < v then (decOf w hi, .invalid)
    else (decOf w v, { FFlags.none with nx := nx })

end Sys2Proof.Machine
end

