-- ==== Sys2Proof/Machine/RegRead.lean ====
section
/-! DEFINITION. What a control register shows when it is read: the stored value, or a value computed from the state that
the register reports (R37, R300, R304, R522, R611, R649, R651, R681). A read's own effects are in `Hub.lean`. -/

namespace Sys2Proof.Machine

/-- The logical core a core page reaches: the one its physical core serves, or the warden core. -/
def State.pageCore (s : State) (k : PageKind) (a : Nat) : Option Nat :=
  match k with
  | .core => (s.serves (blkIdx a - 1) (pageIdx a - 1)).map (fun l => 8 * (blkIdx a - 1) + l)
  | .wcore => some (64 + (pageIdx a - 1))
  | _ => none

/-- The context a core page calls c (R300). -/
def pageCid (core c : Nat) : Cid := if core < 64 then BitVec.ofNat 12 (8 * core + c) else BitVec.ofNat 12 (0x200 + 8 * (core - 64) + c)

/-- A context's state as CTX_STATE shows it (R301). -/
def RunSt.code : RunSt → Nat
  | .halted => 0 | .waiting => 1 | .ready => 2 | .running => 3

/-- CTX_STATE as read. -/
def State.ctxStates (s : State) (core : Nat) : Word :=
  BitVec.ofNat 40 ((List.range (if core < 64 then 8 else 2)).map (fun c => (s.cx (pageCid core c)).run.code * 4 ^ c)).sum

/-- CORE_STATUS as read (R301): LOGICAL while it is valid, SERVING, MOVING as stored, and the fast bank. A LOGICAL that is not valid
is open: State.openMask. -/
def State.coreStatus (s : State) (k : PageKind) (a : Nat) : Word :=
  let moving := 16 * b2n (bitOf (s.reg a).toNat 4)
  match s.pageCore k a with
  | some core =>
    let fb := if k = .core then s.fbHolder core else none
    BitVec.ofNat 40 (core % 8 + 8 + moving + (match fb with | some c => 32 + 64 * (c.toNat % 8) | none => 0))
  | none => BitVec.ofNat 40 moving

/-- The context number of a context register on a core page; none for the page's other registers. -/
def ctxOff (off : Nat) : Option Nat :=
  if 0x100 ≤ off ∧ off < 0x200 then some ((off - 0x100) / 32)
  else if 0x200 ≤ off ∧ off < 0x240 then some ((off - 0x200) / 8)
  else none

/-- A register of a core page as read: on a warden core page the fields for contexts 2 to 7 read zero (R300). -/
def State.coreValue (s : State) (k : PageKind) (a : Nat) : Word :=
  let off := a % 4096
  if off = 0x40 then s.coreStatus k a
  else if off = 0x48 then (match s.pageCore k a with | some core => s.ctxStates core | none => 0)
  else if off = 0x58 then putF (s.reg a) 0 16 (s.ceWindow (blkIdx a - 1) (pageIdx a - 1))
  else match ctxOff off with
    | some c => if k = .wcore ∧ 2 ≤ c then 0 else s.reg a
    | none => s.reg a

/-- IRT_READ as read: the entry of IRT_SELECT and whether its source is asserted (R304). -/
def State.irtRead (s : State) : Word :=
  let n := s.get F.SYS.IRT_SELECT.SOURCE
  let e := s.irtOf n
  BitVec.ofNat 40 (e.target.toNat + 2 ^ 12 * e.level + 2 ^ 16 * b2n e.urgent + 2 ^ 17 * b2n e.enable + 2 ^ 18 * b2n (s.asserted n))

/-- The value that a block computes for a register, if it does. -/
def State.blockValue (s : State) (r : Requester) (k : PageKind) (a : Nat) : Option Word :=
  let off := a % 4096
  match k with
  | .core | .wcore => some (s.coreValue k a)
  | .sys => if off = 0x58 then some s.irtRead else none
  | .ch => (s.rCh a).map (·.1)
  | .own => s.rOwn r off
  | .recp => s.rRec r off
  | .sec => (s.rSec r off).map (·.1)
  | .ghea => s.rGhea off
  | .gov => s.rGov off
  | .cst => s.rCst off
  | _ => none

/-- What a register shows to a requester. -/
def State.regValue (s : State) (r : Requester) (k : PageKind) (a : Nat) : Word :=
  let off := a % 4096
  if off = 0x18 then s.readStatus (pageBase a)
  else if off < 0x40 then s.reg a
  else (s.blockValue r k a).getD (s.reg a)

end Sys2Proof.Machine
end

