-- ==== Sys2Proof/Machine/Debug.lean ====
section
/-! DEFINITION. Eclipse, the test access port, the state-dump chain and trace (R683–R704). -/

namespace Sys2Proof.Machine

/-! ### Thaw (R686–R688, R702) -/

/-- A full eclipse is thawed, and a reset held for the thaw acts. -/
def State.thawDevice (s : State) : State :=
  let s1 := s.thawFull false
  match s1.heldReset with
  | some c => { s1 with heldReset := none }.warmStart c
  | none => s1

/-- The cluster in partial eclipse goes on. -/
def State.thawPartial (drain : State → Nat → State) (s : State) : State :=
  let (n, s1) := s.thawInvals.draw
  let s2 := ({ s1 with eclPart := none }.put F.DBG.ECL_STATUS.STATE 0).put F.DBG.ECL_STATUS.FORCED 0
  ((s2.event 0x1902 0x19 1 (Config.freeNat n) 0 0).pageInt pgDBG 1).thawTest drain

/-- Has the tally engine answered every read of a cluster's contexts (R390)? -/
def State.readsLanded (s : State) (clu : Nat) : Bool :=
  (List.range 64).all (fun i => (s.cx (BitVec.ofNat 12 (64 * clu + i))).pend.isEmpty)

/-- A partial freeze completes once the landings are in (R687): the contexts stop at their boundaries, the store buffers drain, a
self-test of the cluster stops (R646), and the clocks stop. -/
def State.freezeCluster (drain : State → Nat → State) (s : State) : State :=
  match s.eclWait with
  | none => s
  | some (clu, cause) =>
    if !s.readsLanded clu then s else
    let s1 := (List.range 8).foldl (fun (s : State) l => drain (s.pauseCore (8 * clu + l)) (8 * clu + l)) s
    let s2 := { (s1.eclipseTest clu).setReg R.DBG.ECL_CTRL 0 with eclWait := none, eclPart := some clu }
    let s3 := ((s2.put F.DBG.ECL_STATUS.STATE 2).put F.DBG.ECL_STATUS.PCLUSTER clu).put F.DBG.ECL_STATUS.CAUSE cause
    (s3.bumpSat F.DBG.ECL_STATUS.FREEZES).event 0x1901 0x19 2 cause 1 clu

/-! ### The state-dump chain (R692–R695) -/

/-- The pages of a block, in address order. -/
def blockPages (base n : Nat) : List Nat := (List.range n).map (fun i => base + 0x1000 * i)

/-- The pages of a cluster. -/
def clusterPages (n : Nat) : List Nat := blockPages (pgClu n) 10

/-- Every page, in the order of R693. -/
def allPages : List Nat :=
  [pgSYS] ++ (List.range 8).flatMap clusterPages ++ blockPages pgWRD 5 ++ blockPages pgTLY 9 ++ [pgQMG] ++ blockPages pgJRN 3 ++
    [pgWGH] ++ (List.range 64).map pgCh ++ blockPages pgLIO 16 ++ blockPages pgNET 4 ++ [pgPCI] ++ blockPages pgIXL 3 ++
    blockPages 0xFFF0120000 5 ++ [pgCST, pgREC] ++ blockPages pgGOV 6 ++ [pgCPR, pgDBG] ++ blockPages pgSEC 2

/-- Words of one context in its core's REG section, and of the fast bank: the joined even core uses the Conjunction
layouts. -/
def ctxWords (wide : Bool) : Nat := if wide then 178 else 128
def bankWords (wide : Bool) : Nat := if wide then 24 else 16

/-- Does a core page show the Conjunction layouts? -/
def State.wideCore (s : State) (core : Nat) : Bool := s.wide (pageCid core 0) && core % 2 == 0

/-- The body of a REG section in words (R693). -/
def State.regLen (s : State) (a : Nat) : Nat :=
  match pageOf a with
  | some .core =>
    let w := (s.pageCore .core a).any s.wideCore
    512 + 8 * ctxWords w + bankWords w
  | _ => 512

/-- The words of a byte image, five bytes each. -/
def imageWord (bs : List Byte) (i : Nat) : Word := BitVec.ofNat 40 (leVal ((bs.drop (5 * i)).take 5))

/-- A context's block: the lower area, whose link word is software's and open here, the upper area, ROLE, TKT, the BTRs,
and the pending lazy address with SR.LZ in bit 39. Open words are the free value `n`. -/
def State.ctxWord (s : State) (n : Nat) (c : Cid) (wide : Bool) (i : Nat) : Word :=
  let x := s.cx c
  let lo := if wide then 27 else 19
  let up := if wide then 116 else 74
  if i = 0 then Config.freeWord n
  else if i < lo then imageWord (lowerImage wide x x.sr x.pc) (i - 1)
  else if i < lo + up then imageWord (upperImage wide x) (i - lo)
  else if i = lo + up then x.role.setWidth 40
  else if i = lo + up + 1 then x.tkt
  else if i < lo + up + 34 then
    let j := i - lo - up - 2
    let b := (x.btr[j / 4]?).getD { vbase := 0, size := 0, pbase := 0, attr := 0 }
    (match j % 4 with | 0 => b.vbase | 1 => b.size | 2 => b.pbase | _ => b.attr)
  else (x.lazyAddr &&& 0x7FFFFFFFFF) ||| (if srLZ x.sr then 0x8000000000 else 0)

/-- A word of the fast bank of a logical core. -/
def State.bankWord (s : State) (core : Nat) (wide : Bool) (i : Nat) : Word :=
  let k := s.core_ core
  imageWord ((k.fastA.toList.flatMap (fun v => leBytes 5 v.toNat)) ++
    (k.fastD.toList.flatMap (fun v => leBytes (if wide then 10 else 5) v.toNat))) i

/-- Events of R701 whose counts this model does not follow: cycles, pairs, caches, TLB, stalls and DDR traffic.
DESIGN CHOICE, log 42. -/
def openEvent (ev : Nat) : Bool := [0, 2, 3, 4, 5, 6, 7, 10, 12, 14, 15].contains ev

/-- The bits of a register whose value the spec leaves open as the register stands: LOGICAL of a core that serves none (R301),
and a counter of an event that the model does not follow. -/
def State.openMask (s : State) (k : PageKind) (a : Nat) : Word :=
  match k with
  | .core => if a % 4096 = 0x40 ∧ (s.pageCore k a).isNone then 7 else 0
  | .dbg =>
    let off := a % 4096
    if 0x400 ≤ off ∧ off < 0x500 ∧ off % 16 = 8 ∧ (s.reg (a - 8)).getLsbD 18 ∧ openEvent (getF (s.reg (a - 8)) 0 6)
      then 0xFFFFFFFFFF else 0
  | _ => 0

/-- A value with its open bits from the free value `n`. -/
def openBits (m v : Word) (n : Nat) : Word := (v &&& ~~~m) ||| (Config.freeWord n &&& m)

/-- A word of a REG section. A core page that serves no logical core has no contexts: its words are open. -/
def State.regWord (s : State) (n a i : Nat) : Word :=
  match pageOf a with
  | none => 0
  | some k =>
    if i < 512 then (match rowOf k (8 * i) with | some _ => openBits (s.openMask k (a + 8 * i)) (s.regValue .engine k (a + 8 * i)) n | none => 0)
    else match s.pageCore k a with
      | none => Config.freeWord n
      | some core =>
        let w := s.wideCore core
        let j := i - 512
        if j < 8 * ctxWords w then s.ctxWord n (pageCid core (j / ctxWords w)) w (j % ctxWords w)
        else s.bankWord core w (j - 8 * ctxWords w)

/-- The body length of a section: 0 REG, 1 PIPE, which this model presents with length 0 (R693), 2 ARRAY. -/
def State.bodyLen (s : State) (a sec : Nat) : Nat :=
  if !s.powered (domainOf a) then 0
  else match sec with
    | 0 => s.regLen a
    | 1 => 0
    | _ => Config.dumpLen a

/-- A word of a segment: the two header words, then the body. The arrays of SEC hold keys and read zero (R694); the others are
open. -/
def State.segWord (s : State) (n a sec i : Nat) : Word :=
  match pageOf a with
  | none => 0
  | some k =>
    if i = 0 then BitVec.ofNat 40 (pageType k + 2 ^ 16 * pageInstance k a + 2 ^ 24 * sec)
    else if i = 1 then BitVec.ofNat 40 (s.bodyLen a sec)
    else if sec = 0 then s.regWord n a (i - 2)
    else if blkIdx a = 0x18 then 0
    else Config.freeWord n

/-- The segments of some pages: the kinds DUMP_SEL selects. -/
def State.segments (s : State) (pages : List Nat) : List (Nat × Nat) :=
  pages.flatMap (fun a => ((List.range 3).filter (fun sec => bitOf (s.reg R.DBG.DUMP_SEL).toNat sec)).map (fun sec => (a, sec)))

/-- The word at a position of a run of segments; zero beyond the end. -/
def State.segsWord (s : State) (n : Nat) : List (Nat × Nat) → Nat → Word
  | [], _ => 0
  | (a, sec) :: r, i =>
    let l := 2 + s.bodyLen a sec
    if i < l then s.segWord n a sec i else s.segsWord n r (i - l)

/-- Words of a run of segments. -/
def State.segsLen (s : State) (l : List (Nat × Nat)) : Nat := (l.map (fun p => 2 + s.bodyLen p.1 p.2)).sum

/-- PDUMP_DATA as a warden reads it (R695). -/
def State.pdumpWord (s : State) (n : Nat) : Word :=
  match s.eclPart with
  | some clu => s.segsWord n (s.segments (clusterPages clu)) (s.reg R.DBG.PDUMP_PTR).toNat
  | none => 0

/-- A word of the chain (R692): word 0 counts them all, itself included. -/
def State.chainWord (s : State) (n i : Nat) : Word :=
  let l := s.segments allPages
  if i = 0 then BitVec.ofNat 40 (1 + s.segsLen l) else s.segsWord n l (i - 1)

/-! ### Writes on the DBG page (R703) -/

def State.wDbg (drain : State → Nat → State) (s : State) (r : Requester) (off : Nat) (v : Word) : Option State :=
  let err (code : Nat) := some (s.pageErr pgDBG code off r true)
  let ranged := s.rangedWrite .dbg r 0x13 (pgDBG + off) v
  if (off == 0x40 || off == 0x48 || off == 0x58 || off == 0x68) && !reqWarden r then err 0x11
  else if off = 0x48 then
    let s1 := if v.getLsbD 0 then s.fullEclipse 2 else s
    let s2 := if v.getLsbD 1 then s1.startPartial r (getF v 2 3) 2 else s1
    let s2 := if v.getLsbD 1 && s2.eclWait.isSome && s1.eclWait.isNone then
        (s2.put F.DBG.ECL_CTRL.PARTIAL 1).put F.DBG.ECL_CTRL.CLUSTER (getF v 2 3) else s2
    some (if v.getLsbD 5 then
        (if s2.get F.DBG.ECL_STATUS.STATE = 1 then s2.thawDevice
          else if s2.eclPart.isSome then s2.thawPartial drain
          else s2.pageErr pgDBG 0x14 off r true)
      else s2)
  else if off = 0x78 then
    (let c := v.extractLsb' 0 12
     some (if v.getLsbD 12 && validCid c then s.modCx c (fun x => { x with skip := true }) else s))
  else if 0x100 ≤ off ∧ off < 0x180 ∧ off % 16 = 8 then some (ranged [(1, 3, decide (6 ≤ getF v 1 3))])
  else if 0x200 ≤ off ∧ off < 0x2C0 then
    (match (off - 0x200) % 24 with
      | 8 => some (ranged [(0, 24, decide (getF v 0 24 = 0))])
      | 16 => some (ranged [(1, 3, decide (6 ≤ getF v 1 3))])
      | _ => none)
  else if off = 0x308 then (if getF v 0 5 < 12 ∨ 30 < getF v 0 5 then err 0x13 else none)
  else if off = 0x310 then
    let was := s.flag F.DBG.TR_CTRL.EN
    let s1 := s.setReg R.DBG.TR_CTRL (putF (v &&& 0xFFFFFFF) 0 1 (b2n (v.getLsbD 0 && was)))
    some (if v.getLsbD 0 && !was then s1.traceOn r else s1)
  else none

/-! ### Trace (R699, R700) -/

/-- A Time record: timebase nanoseconds and seconds. -/
def State.timeRecord (s : State) : List Byte := leBytes 1 7 ++ leBytes 4 s.tbNs ++ leBytes 6 s.tbSec ++ List.replicate 5 0

/-- Room has returned: a Lost record with event 0x1903, and a Time record that is due. -/
def State.traceRoom (s : State) : State :=
  let s1 := if s.traceLost != 0 && decide (s.traceq.length < 256) then
      { s with traceq := s.traceq ++ [leBytes 1 6 ++ leBytes 5 s.traceLost ++ List.replicate 10 0], traceLost := 0, traceOwed := true }.event
        0x1903 0x19 1 s.traceLost 0 0
    else s
  if s1.traceOwed && decide (s1.traceq.length < 256) then { s1 with traceq := s1.traceq ++ [s1.timeRecord], traceOwed := false } else s1

/-- The unit writes its oldest record into the ring. DEDUCED, log 41. -/
def State.traceWrite (s : State) : State :=
  match s.traceq with
  | [] => s
  | r :: rest =>
    let size := 2 ^ s.get F.DBG.TR_SIZE.LOG2
    let at_ := s.get F.DBG.TR_PTR.BYTES
    let s1 := { s with traceq := rest }.engineWrite (4096 * s.get F.DBG.TR_BASE.BASE + at_) r
    let next := (at_ + 16) % size
    let s2 := s1.put F.DBG.TR_PTR.BYTES next
    let s3 := if next = 0 && s2.flag F.DBG.TR_CTRL.STOP_FULL then
        ((s2.put F.DBG.TR_CTRL.EN 0).put F.DBG.TR_STATUS.FULL 1).pageInt pgDBG 2 else s2
    (if s3.traceSince == 65535 then { s3 with traceSince := 0, traceOwed := true } else { s3 with traceSince := s3.traceSince + 1 }).traceRoom

/-- Does the trace unit write: its block runs, the ring is where it may be, and is not full? -/
def State.traceRuns (s : State) : Bool := s.live pgDBG && s.ringOk && !s.flag F.DBG.TR_STATUS.FULL

/-- TRACE_RECORD (R699, R700). -/
def execTraceRecord (s : State) : Host.Outcome State Fault Refusal := .next (if s.traceRuns then s.traceWrite else s)

/-! ### Triggers (R683) -/

/-- ECLIPSE_N (R683): a falling edge, low for 40 ns. -/
def execEclipseN (s : State) : Host.Outcome State Fault Refusal :=
  .next (if s.flag F.DBG.ECL_CFG.PIN_EN then s.fullEclipse 1 else s)

/-! ### The test access port (R689–R692) -/

/-- Are the instructions open under R691? -/
def State.tapOpen (s : State) : Bool := !s.flag F.SEC.BOOT_STATUS.ENFORCE || s.flag F.DBG.AUTH.TAP_OPEN

/-- BYPASS: one bit, which Capture-DR loads with 0. -/
def State.tapBypass (s : State) (ir : Byte) : State := { s with tapIr := ir, tapOut := 0 }

/-- A scan through the boundary register: the pins captured are open, and the cells shifted in stay in it.
DESIGN CHOICE, log 27. -/
def State.boundary (s : State) (ir : Byte) (cells : List Bool) : State :=
  let (n, s1) := s.draw
  { s1 with tapIr := ir, tapOut := BitVec.ofNat 50 (Config.freeNat n), bsr := cells }

/-- TAP_RESET (R689): the TAP's instruction after its reset is IDCODE. -/
def execTapReset (s : State) : Host.Outcome State Fault Refusal := .next { s with tapIr := 0x01 }

/-- EXTEST (R689). -/
def execExtest (cells : List Bool) (s : State) : Host.Outcome State Fault Refusal := .next (s.boundary 0x00 cells)

/-- IDCODE (R689). -/
def execIdcode (s : State) : Host.Outcome State Fault Refusal :=
  .next { s with tapIr := 0x01, tapOut := BitVec.ofNat 50 (0x0644038F + 2 ^ 28 * (s.get (F.HDR.PG_ID.VERSION pgSYS) % 16)) }

/-- SAMPLE/PRELOAD (R689). -/
def execSamplePreload (cells : List Bool) (s : State) : Host.Outcome State Fault Refusal := .next (s.boundary 0x02 cells)

/-- The one bit that FREEZE and THAW capture is open. DESIGN CHOICE, log 27. -/
def State.oneBit (s : State) (ir : Byte) : State :=
  let (n, s1) := s.draw
  { s1 with tapIr := ir, tapOut := BitVec.ofNat 50 (Config.freeNat n % 2) }

/-- DUMP_PTR (R692). -/
def execDumpPtr (v : Word) (s : State) : Host.Outcome State Fault Refusal :=
  .next (if s.tapOpen then { s with tapIr := 0x10, tapOut := s.tapPtr.setWidth 50, tapPtr := v } else s.tapBypass 0x10)

/-- DUMP (R692). -/
def execDump (s : State) : Host.Outcome State Fault Refusal :=
  .next (if s.tapOpen then
      let (n, s1) := s.draw
      { s1 with tapIr := 0x11, tapOut := (s.chainWord n s.tapPtr.toNat).setWidth 50, tapPtr := s.tapPtr + 1 }
    else s.tapBypass 0x11)

/-- FREEZE of the TAP (R689). -/
def execTapFreeze (b : Bool) (s : State) : Host.Outcome State Fault Refusal :=
  .next (if s.tapOpen then (if b then (s.oneBit 0x12).fullEclipse 5 else s.oneBit 0x12) else s.tapBypass 0x12)

/-- BYPASS (R689): code 0xFF, or any code of no other instruction. -/
def execBypass (code : Byte) (s : State) : Host.Outcome State Fault Refusal :=
  .next (if [0x00, 0x01, 0x02, 0x10, 0x11, 0x12, 0x13, 0x14].contains code.toNat then s else s.tapBypass code)

end Sys2Proof.Machine
end

