-- ==== Sys2Proof/Machine/CoreRegs.lean ====
section
/-! DEFINITION. The context registers of the core pages, Conjunction, and the routing registers of the SYS page (R107,
R111–R117, R284–R290, R300–R306). -/

namespace Sys2Proof.Machine

/-! ### The SYS page (R45, R287–R290, R304, R305) -/

/-- The writer that event 0x0D03 names. -/
def writerOf : Requester → Nat
  | .ctx c _ => c.toNat
  | .host => 0xFFF
  | .engine => 0xFFE

/-- A write of IRT_WRITE. -/
def State.writeIrt (s : State) (r : Requester) (v : Word) : State :=
  let t := v.extractLsb' 10 12
  let warden := reqWarden r || r == .engine
  if !reqSup r then s
  else if !validCid t || ((v.getLsbD 26 || isWardenCid t) && !warden) || getF v 28 12 != 0 then s.pageErr pgSYS 0x10 0x48 r true
  else { s with irt := tabSet Irt.init s.irt (getF v 0 10) { target := t, level := getF v 22 4, urgent := v.getLsbD 26, enable := v.getLsbD 27 } }

/-- A write of SWI. -/
def State.writeSwi (s : State) (r : Requester) (v : Word) : State :=
  let n := getF v 0 10
  if !reqSup r then s
  else if n < 512 ∨ 768 ≤ n ∨ getF v 11 29 ≠ 0 then s.pageErr pgSYS 0x11 0x68 r true
  else { s with swi := tabSet false s.swi n (v.getLsbD 10) }

/-- Writes on the SYS page. EXPERT_GRANT and HALT_QUEUE are a warden's. -/
def State.wSys (s : State) (r : Requester) (off : Nat) (v : Word) : Option State :=
  let warden := reqWarden r || r == .engine
  if off = 0x40 then some (if warden then s.changeGrant (v &&& 0x3FFFFF) (writerOf r) else s)
  else if off = 0x48 then some (s.writeIrt r v)
  else if off = 0x50 then (if reqSup r then none else some s)
  else if off = 0x60 then (if warden then none else some s)
  else if off = 0x68 then some (s.writeSwi r v)
  else none

/-! ### Core pages (R300–R303) -/

/-- May the requester write START, HALT, PC and PRIO: a supervisor or warden context? -/
def ctxSup : Requester → Bool
  | .ctx _ pl => pl != 0#2
  | .host => false
  | .engine => true

/-- START of one context (R301, R303): of a halted context, at a valid code address. A context that the ROM stopped stays
so (R669), and the odd core of a joined pair takes no contexts (R111). -/
def State.ctxStart (s : State) (r : Requester) (p : Nat) (c : Cid) : State :=
  let pc := s.reg (R.CORE.CTX_PC p (ctxNo c))
  if (s.cx c).run != .halted then s.pageErr p 0x11 0x50 r true
  else if !codeOk pc then s.pageErr p 0x12 0x50 r true
  else if (s.romStopped && c == 0x200#12) || s.oddJoined (coreIdx c) then s
  else
    let s1 := s.modCx c (fun x => { x with run := .ready, wait := none, strOp := none, onVector := false, pc := pc, sr := srReset c,
                                            late := none, depthOpen := 0, linesIn := x.linesIn + 1 })
    (s1.pageInt p 2).dispatch (coreIdx c)

/-- HALT of one context (R302): a waiting or ready one halts at once; a running one at its boundary. -/
def State.ctxHalt (s : State) (p : Nat) (c : Cid) : State :=
  match (s.cx c).run with
  | .halted => s
  | .running => s.put ⟨R.CORE.CTX_CTRL p, 8 + ctxNo c, 1⟩ 1
  | _ => if (s.cx c).atEngine then s.put ⟨R.CORE.CTX_CTRL p, 8 + ctxNo c, 1⟩ 1 else s.haltCtx c 5 0 0 0

/-- ROLE_INC of one context (R107). -/
def State.roleInc (s : State) (c : Cid) : State := s.modCx c (fun x => { x with role := x.role + 1 })

/-- A write of CTX_CTRL. START and HALT together: HALT wins (R306). -/
def State.writeCtxCtrl (s : State) (r : Requester) (p core : Nat) (v : Word) : State :=
  (coreCids core).foldl (fun s c =>
    let i := ctxNo c
    let s1 := if v.getLsbD i && !v.getLsbD (8 + i) && ctxSup r then s.ctxStart r p c else s
    let s2 := if v.getLsbD (8 + i) && ctxSup r then s1.ctxHalt p c else s1
    if v.getLsbD (16 + i) && (reqWarden r || r == .engine) then s2.roleInc c else s2) s

/-- A write of CTXc_RESCUE by a warden. -/
def State.writeRescue (s : State) (a : Nat) (v : Word) : State :=
  let b := 512 * getF v 9 31
  let inside := decide (0xFE80000000 ≤ b) && decide (b ≤ 0xFE80FFFFFF)
  s.setReg a (putF (v &&& 0xFFFFFFFE01) 0 1 (b2n (v.getLsbD 0 && inside)))

/-- Writes on a core page. The context registers reach the contexts of the logical core served, and are refused while the
core serves none or is moving (R300, R303). -/
def State.wCore (s : State) (r : Requester) (k : PageKind) (a : Nat) (v : Word) : Option State :=
  let off := a % 4096
  let p := pageBase a
  if off != 0x50 && (ctxOff off).isNone then none
  else match s.pageCore k a with
    | none => some (s.pageErr p 0x10 off r true)
    | some core =>
      if s.flag (F.CORE.CORE_STATUS.MOVING p) then some (s.pageErr p 0x10 off r true)
      else match ctxOff off with
        | none => some (s.writeCtxCtrl r p core v)
        | some i =>
          if k = .wcore ∧ 2 ≤ i then some s
          else if 0x200 ≤ off then some ((s.plainWrite k a v).updCheck)
          else match (off - 0x100) % 32 with
            | 0 => if ctxSup r && (s.cx (pageCid core i)).run == .halted then none else some s
            | 8 => if ctxSup r then none else some s
            | 16 => some (if reqWarden r || r == .engine then s.writeRescue a v else s)
            | _ => none

/-! ### Conjunction (R112–R116) -/

/-- Why pair k of a cluster may not join, as a RESULT; 0 when it may (R112). DEDUCED, log 36. -/
def State.conjRefuse (s : State) (clu k : Nat) : Nat :=
  let odd := coreCids (8 * clu + 2 * k + 1)
  if odd.any (fun c => (s.cx c).run != .halted) then 1
  else if s.queues.any (fun q => q.2.ckind == 0 && q.2.bound && odd.contains q.2.cid) then 2
  else if s.tickets.any (fun t => t.2.held && odd.contains t.2.cid) then 3
  else if s.physOf clu (2 * k) != 2 * k || s.physOf clu (2 * k + 1) != 2 * k + 1 then 4
  else 0

/-- Hold or release the even core's contexts (R115 steps 2, 3 and 5). -/
def State.conjHold (s : State) (clu k : Nat) (on : Bool) : State :=
  let core := 8 * clu + 2 * k
  let s1 := if on then s.pauseCore core else s
  (coreCids core).foldl (fun s c => s.modCx c (fun x => { x with moving := on })) s1

/-- A request for pair k: entry, or exit (R113). -/
def State.conjRequest (s : State) (clu k : Nat) (enter : Bool) : State :=
  let p := pgClu clu
  let result (n : Nat) (s : State) := (s.put (F.CLU.CONJ_STATUS.RESULT p k) n).pageInt p 2
  if s.flag (F.CLU.CONJ_STATUS.BUSY p k) then result 5 s
  else if enter && s.conjRefuse clu k != 0 then result (s.conjRefuse clu k) s
  else ((s.put ⟨R.CLU.CONJ_CTRL p, k, 1⟩ (b2n enter)).put (F.CLU.CONJ_STATUS.BUSY p k) 1).conjHold clu k true

/-- Writes on a cluster page: CONJ_CTRL by a supervisor or warden; any other requester's write is ignored and records nothing. Only
a bit that the write changes asks for something, also while BUSY is 1. DESIGN CHOICE, log 95. -/
def State.wClu (s : State) (r : Requester) (a : Nat) (v : Word) : Option State :=
  let clu := blkIdx a - 1
  if a % 4096 = 0x48 then
    some (if reqSup r then
        (List.range 4).foldl (fun (s : State) k =>
          if v.getLsbD k == s.flag ⟨R.CLU.CONJ_CTRL (pgClu clu), k, 1⟩ then s else s.conjRequest clu k (v.getLsbD k)) s
      else s)
  else none

/-- A context's registers cut to the widths outside Conjunction (R115 step 4): entry clears the upper bits and exit
discards them. -/
def Ctx.narrow (x : Ctx) : Ctx :=
  let w (v : DWord) : DWord := v &&& 0xFFFFFFFFFF
  let f (v : XWord) : XWord := (v.setWidth 88).setWidth 176
  { x with d := x.d.map w, win := x.win.map (fun (r : Vector DWord 8) => r.map w), x := x.x.map f, ph := w x.ph, pl := w x.pl }

/-- Are the even core's contexts at their boundaries (R115 step 3)? A pending read of the tally engine holds nothing up (R390). -/
def State.conjLanded (s : State) (clu k : Nat) : Bool := (coreCids (8 * clu + 2 * k)).all (fun c => !(s.cx c).atEngine)

/-- Steps 4 and 5 of R115. -/
def State.conjFinish (s : State) (clu k : Nat) (join : Bool) : State :=
  let p := pgClu clu
  let core := 8 * clu + 2 * k
  let s1 := (coreCids core).foldl (fun s c => s.modCx c Ctx.narrow) s
  let s1a := s1.setCore core { s1.core_ core with fastD := (s1.core_ core).fastD.map (fun (v : DWord) => v &&& 0xFFFFFFFFFF) }
  let s2 := if join then s1a
    else
      let s1b := s1a.setCore (core + 1) { (s1a.core_ (core + 1)).emptyCaches with lines := [] }
      (coreCids (core + 1)).foldl (fun s c => s.modCx c (fun x => { x with run := .halted, sr := srReset c })) s1b
  let s3 := (s2.put (F.CLU.CONJ_STATUS.JOINED p k) (b2n join)).put (F.CLU.CONJ_STATUS.BUSY p k) 0
  (((s3.put (F.CLU.CONJ_STATUS.RESULT p k) 0).conjHold clu k false).pageInt p 1).dispatch core

end Sys2Proof.Machine
end

