-- ==== Sys2Proof/Machine/Hub.lean ====
section
/-! DEFINITION. Reaching a control register or a device window: the hub that tests and performs an access (R26–R34,
R37–R48, R564, R574, R645, R688, R727), block restarts, and the store buffer that accesses leave through (R252, R321). -/

namespace Sys2Proof.Machine

/-! ### Block restart (R47, R393, R433, R475, R512, R549, R584, R615, R645) -/

/-- Class-b bits of a row, on the header only, and on a page's other registers. -/
def clsB (r : RegRow) : Nat := r.clsB

/-- The header's class-b fields of every page of a block return to reset. -/
def State.resetHeaders (s : State) (blk : Nat) : State :=
  s.resetPages (fun a => inBlock blk a && decide (a % 4096 < 0x40)) clsB

/-- A block's own class-b fields return to reset. -/
def State.resetBlock (s : State) (blk : Nat) : State :=
  s.resetPages (fun a => inBlock blk a && decide (0x40 ≤ a % 4096)) clsB

/-- A restart of the block of a page begins: what becomes of its work in hand. -/
def State.beginRestart (s : State) (p : Nat) : State :=
  let blk := if 0x20 ≤ blkIdx p then 0xD else blkIdx p
  let seals := s.openSeals.map (fun ch => (ch, s.get (F.CH.SEAL_STATUS.STAGED (pgCh ch))))
  let s0 := match blk with
    | 0xA => s.stampingDone
    | 0xC => s.journalFlush
    | 0x17 => (List.range (s.traceq.length + 4)).foldl (fun (s : State) _ => if s.traceRuns then s.traceWrite else s) s
    | _ => s
  let s1 := s0.resetHeaders blk
  let s2 := (if blk = 0xA ∨ blk = 0xC ∨ blk = 0x15 then s1 else s1.resetBlock blk).put (F.HDR.PG_CTRL.BLOCK_RESET (ctlBase + 0x10000 * blk)) 1
  match blk with
  | 0xB => { s2 with qtags := [] }.tagCount
  | 0xD => s2.wghRestart seals
  | 0xE => s2.lioRestart
  | 0xF => s2.netRestart
  | 0x10 => { s2 with hostCpl := none, pciReq := none }
  | 0x11 => s2.ixlRestart
  | 0x18 => s2.stopJobs
  | _ => s2

/-- May a restart complete now: a comet step completes first (R645), the JRN restart once its last batch is committed. -/
def State.restartMayEnd (s : State) (blk : Nat) : Bool :=
  match blk with
  | 0xC => s.journalSettled
  | 0x15 => s.comet.isNone
  | _ => true

/-- A restart completes. -/
def State.endRestart (s : State) (blk : Nat) : State :=
  let p := ctlBase + 0x10000 * blk
  if !s.flag (F.HDR.PG_CTRL.BLOCK_RESET p) || !s.restartMayEnd blk then s
  else
    let s1 := match blk with
      | 0xA => s.drainBanks.resetBlock blk
      | 0xC => (s.resetBlock blk).journalReset
      | 0x15 => (s.resetBlock blk).govRestart (s.get F.GHEA.RETIRE_REQ.FRAME) (s.get F.GHEA.RETIRE_REQ.CAUSE) (s.flag F.GHEA.RETIRE_REQ.VALID)
      | _ => s
    let s2 := s1.put (F.HDR.PG_CTRL.BLOCK_RESET p) 0
    if blk = 0xC ∧ s2.enabled pgJRN then s2.setJstate 1 else s2

/-! ### Writes -/

/-- Every bit of a register, as a whole write covers it. -/
def allBits : Word := 0xFFFFFFFFFF#40

/-- The slot that an access to control space reaches (R32). -/
def slotOf (a : Nat) : Nat := a / 8 * 8

/-- A write of PG_CTRL (R37, R44, R47): EXPERT, ENABLE, and a restart of the page's block. A restart of DBG waits for the
thaw of a partial eclipse (R645). -/
def State.writeCtrl (s : State) (r : Requester) (k : PageKind) (a : Nat) (v : Word) : State :=
  let p := pageBase a
  let s1 := s.writeExpert r k a (v.getLsbD 1)
  let was := s1.enabled p
  let s2 := s1.put (F.HDR.PG_CTRL.ENABLE p) (b2n (v.getLsbD 0))
  let s3 := if v.getLsbD 0 && !was then
      (match k with
        | .tly => s2.tallyEnabled
        | .jrn => s2.journalEnabled.jrefresh
        | _ => s2)
    else if k = .jrn && !v.getLsbD 0 && was then s2.journalStopped.jrefresh
    else s2
  if v.getLsbD 2 && restartPresent k && !s3.flag (F.HDR.PG_CTRL.BLOCK_RESET p) then
    (if k = .dbg && (s3.eclPart.isSome || s3.eclWait.isSome) then { s3 with dbgDue := true } else s3.beginRestart p)
  else s3

/-- A write of a header register. -/
def State.writeHeader (s : State) (r : Requester) (k : PageKind) (a : Nat) (v : Word) : State :=
  let p := pageBase a
  match a % 4096 with
  | 0x10 => s.writeCtrl r k a v
  | 0x20 => s.clearInt p (v &&& 0xFFFFFFFF)
  | 0x28 => s.plainWrite k a v
  | 0x38 => s.writeLock r p v
  | _ => s

/-- A write with an effect that its block gives; none for a plain masked write. -/
def State.blockWrite (drain : State → Nat → State) (s : State) (r : Requester) (k : PageKind) (a : Nat) (v : Word) : Option State :=
  let off := a % 4096
  match k with
  | .sys => s.wSys r off v
  | .clu => s.wClu r a v
  | .core | .wcore => s.wCore r k a v
  | .wrd => s.wWrd r off v
  | .tly => s.wTly r off v
  | .bank => none
  | .qmg => s.wQmg r off v
  | .jrn => s.wJrn r off v
  | .crt => s.wCrt r (pageIdx a - 1) off v
  | .wgh => s.wWgh r off v
  | .ch => s.wCh r a v
  | .lio => s.wLio r a v
  | .usb => s.wUsb r a v
  | .uart => s.wUart r a v
  | .can => s.wCan r a v
  | .gpio => s.wGpio r a v
  | .timer => s.wTimer r a v
  | .prof => s.wProf r a v
  | .own => s.wOwn r off v
  | .net => s.wNet r a v
  | .nport => s.wNport r a v
  | .tb => s.wTb r off v
  | .pci => s.wPci r off v
  | .ixl => s.wIxl r off v
  | .ixp => s.wIxp r a v
  | .ddr | .ddrch => none
  | .cst => s.wCst r off v
  | .recp => s.wRec r off v
  | .gov => s.wGov r off v
  | .gpwr => if off = 0x40 then some (s.wGctrl drain r (pageBase a) v) else s.wGpwr r off v
  | .ghea => if off = 0x40 then some (s.wGctrl drain r (pageBase a) v) else s.wGhea drain r off v
  | .gwea | .gfil | .gflo => if off = 0x40 then some (s.wGctrl drain r (pageBase a) v) else s.wGoth r k off v
  | .cpr => s.wCpr r off v
  | .dbg => s.wDbg drain r off v
  | .sec => s.wSec r off v
  | .vault => s.wVault r off v

/-- A restart of DBG that waited for the thaw begins. DEDUCED, log 38. -/
def State.dbgThawed (s : State) : State :=
  if s.dbgDue && s.eclPart.isNone && s.eclWait.isNone then { s with dbgDue := false }.beginRestart pgDBG else s

/-- The offset of an error that a block itself recorded on its page is that of the access (R41): a 32-bit host access at slot
base + 4 stands at its own. `p` is the page and `t` the state after the access. -/
def State.errAt (s t : State) (p at_ m : Nat) : State :=
  if at_ % 8 != 0 && !s.flag (F.HDR.PG_INT_STATUS.ERR p) && t.flag (F.HDR.PG_INT_STATUS.ERR p) &&
      t.get (F.HDR.PG_ERR_SYNDROME.OFFSET p) == slotOf at_ % m
  then t.put (F.HDR.PG_ERR_SYNDROME.OFFSET p) (at_ % m) else t

/-- A write of a control register, by an access at `at_`. `v` holds the value and `cov` the bits it covers (R32). A page whose
power domain is off cannot be reached. -/
def ctlWriteWith (drain : State → Nat → State) (s : State) (r : Requester) (at_ : Nat) (v cov : Word) : State :=
  let a := slotOf at_
  if inWindow a then (if s.powered 12 then s.errAt (s.winWrite r a v cov) pgQMG at_ 64 else s)
  else match pageOf a with
  | none => s.unassigned r at_ true
  | some k =>
    if !s.powered (domainOf (pageBase a)) then s
    else match s.gate r k a true with
    | .refuse none => s
    | .refuse (some c) => s.pageErr (pageBase a) c (at_ % 4096) r true
    | .pass =>
      match rowOf k (a % 4096) with
      | none => s
      | some row =>
        let w := coverValue row (s.reg a) v cov
        if cov != allBits && !row.touches cov then s
        else if a % 4096 < 0x40 then s.errAt (s.writeHeader r k a w) (pageBase a) at_ 4096
        else (s.errAt ((s.blockWrite drain r k a w).getD (s.plainWrite k a w)) (pageBase a) at_ 4096).dbgThawed

/-! ### Reads -/

/-- A register's value with its open bits drawn. -/
def State.openRead (s : State) (k : PageKind) (a : Nat) (v : Word) : Word × State :=
  if s.openMask k a = 0 then (v, s)
  else
    let (n, s1) := s.draw
    (openBits (s.openMask k a) v n, s1)

/-- What a read of a register does beside showing it: FIR_INDEX moves on, PDUMP_PTR moves on, and a value that is open is
drawn. Answers the value read. -/
def State.readEffect (s : State) (r : Requester) (k : PageKind) (a : Nat) : Word × State :=
  let off := a % 4096
  let v := s.regValue r k a
  match k with
  | .ch => ((s.rCh a).map (fun q => (v, q.2))).getD (v, s)
  | .sec => ((s.rSec r off).map (fun q => (v, q.2))).getD (v, s)
  | .dbg =>
    if off = 0x70 then
      (if reqWarden r && s.eclPart.isSome then
        let (n, s1) := s.draw
        (s.pdumpWord n, s1.setReg R.DBG.PDUMP_PTR (s.reg R.DBG.PDUMP_PTR + 1))
       else (0, s))
    else s.openRead k a v
  | _ => s.openRead k a v

/-- A read of a control register. A page whose power domain is off cannot be reached: the value is open.
DESIGN CHOICE, log 28. -/
def ctlRead (s : State) (r : Requester) (at_ : Nat) : Word × State :=
  let a := slotOf at_
  if inWindow a then
    (if s.powered 12 then (s.winRead a, s) else let (n, s1) := s.draw; (Config.freeWord n, s1))
  else match pageOf a with
  | none => (0, s.unassigned r at_ false)
  | some k =>
    if !s.powered (domainOf (pageBase a)) then let (n, s1) := s.draw; (Config.freeWord n, s1)
    else match s.gate r k a false with
    | .refuse none => (0, s)
    | .refuse (some c) => (0, s.pageErr (pageBase a) c (at_ % 4096) r false)
    | .pass => s.readEffect r k a

/-! ### Device windows -/

/-- A read of device memory: a register's low bytes, an outbound PCIe request, or another device's memory. -/
def devRead (s : State) (r : Requester) (a n : Nat) : List Byte × State :=
  match s.region a with
  | .control => let (v, s1) := ctlRead s r a; (leBytes n v.toNat, s1)
  | .pcie => let (c, s1) := s.freeCpl n; s1.outbound a n none c
  | .ixlink => s.remoteRead r a n
  | _ => (List.replicate n 0, s.unassigned r a false)

/-- A write of device memory, with what drains a core's store buffer. -/
def devWriteWith (drain : State → Nat → State) (s : State) (r : Requester) (a : Nat) (bs : List Byte) : State :=
  match s.region a with
  | .control => ctlWriteWith drain s r a (BitVec.ofNat 40 (leVal bs)) (BitVec.ofNat 40 (2 ^ (8 * bs.length) - 1))
  | .pcie => let (c, s1) := s.freeCpl 0; (s1.outbound a 0 (some bs) c).2
  | .ixlink => s.remoteWrite r a bs
  | _ => s.unassigned r a true

/-! ### The store buffer (R252, R321) -/

/-- Set CHG before a core's store becomes visible (R325). Where the core's cached key-store byte shows CHG and the key store does
not, it may leave it unset (R335). The cached byte shows CHG from then on. -/
def State.coreChg (s : State) (k a : Nat) : State :=
  match (s.core_ k).keys.find? (fun e => e.1 == a / 4096) with
  | none => s.setFrameBit a 0x20#8
  | some e =>
    let s1 := s.setCore k { s.core_ k with keys := (s.core_ k).keys.map (fun q => if q.1 == a / 4096 then (q.1, q.2 ||| 0x20#8) else q) }
    if e.2.getLsbD 5 && !(s.keyByte (a / 4096)).getLsbD 5 then
      let (n, s2) := s1.draw
      if Config.freeBool (8 * n) then s2 else s2.setFrameBit a 0x20#8
    else s1.setFrameBit a 0x20#8

/-- Perform one buffered store: it becomes visible, CHG is set first, and a device store reaches its
target. -/
def performWith (dev : State → Requester → Nat → List Byte → State) (s : State) (e : SbEntry) : State :=
  match s.regionOf e.cid e.addr with
  | .dram | .sram => (s.coreChg (coreIdx e.cid) e.addr).setBytes e.addr e.data
  | .codeStore | .bootRom => s
  | .unassigned => s.unassigned (.ctx e.cid e.pl) e.addr true
  | _ => dev s (.ctx e.cid e.pl) e.addr e.data

/-- Perform every buffered store of a core, in order. -/
def drainWith (dev : State → Requester → Nat → List Byte → State) (s : State) (k : Nat) : State :=
  (s.core_ k).sb.foldl (performWith dev) (s.setCore k { s.core_ k with sb := [] })

/-- Drain a core whose stores move no contexts themselves. -/
def drainCore (s : State) (k : Nat) : State := drainWith (devWriteWith (fun s _ => s)) s k

/-- A write of a control register; a move of contexts that it starts drains their store buffer first (R633). -/
def ctlWrite (s : State) (r : Requester) (a : Nat) (v cov : Word) : State := ctlWriteWith drainCore s r a v cov

/-- A write of device memory. -/
def devWrite (s : State) (r : Requester) (a : Nat) (bs : List Byte) : State := devWriteWith drainCore s r a bs

/-- A host access of the wrong size or offset: code 0x05 on the page it meets (R32, R727 order 1). -/
def State.hostBad (s : State) (a : Nat) (write : Bool) : State :=
  if inWindow a then
    let s1 := if s.flag (F.HDR.PG_INT_STATUS.ERR pgQMG) then s else s.put F.QMG.WIN_ERR.QUEUE (winQueue a)
    s1.pageErr pgQMG 5 (a % 64) .host write
  else match pageOf a with
    | none => s.unassigned .host a write
    | some _ => s.pageErr (pageBase a) 5 (a % 4096) .host write

/-! ### Commands that are one register write -/

/-- Can a requester make an access now: not in full eclipse, from a context only while its core runs, and from the host only
over a link of the endpoint role (R32, R563)? -/
def State.canReach (s : State) (r : Requester) : Bool :=
  !s.frozen none && (match r with
    | .ctx c _ => validCid c && s.coreLive (coreIdx c)
    | .host => !s.stopped && s.pciUp && !s.pciRoot
    | .engine => true)

end Sys2Proof.Machine
end

