-- ==== Sys2Proof/Machine/Access.lean ====
section
/-! DEFINITION. A context's accesses to memory: translation, walks, keys, the order of checks, the store
buffer, and the comparators (R252, R307–R337, R696). -/

namespace Sys2Proof.Machine

/-- An exception to take (R264): vector, fault address, CAUSE.INFO and CAUSE.SYNDROME, and the comparator
hits to count when it is taken. -/
structure Exc where
  vec : Nat
  fault : Word
  info : Nat
  synd : Nat
  hits : List Fld
  /-- The DRAM frame whose uncorrectable error the exception reports (R638). -/
  frame : Option Nat := none
deriving DecidableEq, Repr

/-- Why an instruction does not complete: an exception, a stall (nothing happens yet), or a comparator that
holds it unexecuted and starts an eclipse (R697). -/
inductive Stop where
  | exc (e : Exc)
  | stall
  | hold (hits : List Fld) (partialEclipse : Bool)
  /-- The context waits, its PC still naming the instruction, which runs again when it resumes (R255, R366,
  R415). -/
  | out (w : WaitCond)
  /-- The filling store of the lazy area raised this fault: the context halts with reason 3 (R272). -/
  | lazyHalt (e : Exc)
deriving DecidableEq, Repr

/-- A computation of an instruction over the machine state. One that stops answers the state it had reached, for the marks
that its checks leave behind (R318, R325). -/
abbrev Act := StateT State (Except (Stop × State))

/-- Stop the instruction. -/
def stop {α : Type} (x : Stop) : Act α := fun s => .error (x, s)

/-- Raise a vector with a fault address. -/
def raiseAt {α : Type} (vec : Nat) (fault : Word) : Act α :=
  stop (.exc { vec := vec, fault := fault, info := 0, synd := 0, hits := [] })

/-- Raise a vector with a fault address and a syndrome. -/
def raiseSynd {α : Type} (vec : Nat) (fault : Word) (synd : Nat) : Act α :=
  stop (.exc { vec := vec, fault := fault, info := 0, synd := synd, hits := [] })

/-- Raise a vector whose fault address is the instruction. -/
def raise {α : Type} (c : Cid) (vec : Nat) : Act α := do
  let s ← get
  raiseAt vec (s.cx c).pc

/-- Check a condition, raising a vector at the instruction when it fails. -/
def need (c : Cid) (vec : Nat) (b : Bool) : Act Unit := if b then pure () else raise c vec

/-- A free choice of the device (R334): choice `j` of the access under way. Both halves of a split access
choose alike (R330), so the index moves on only when the access's checks end. DESIGN CHOICE, log 19. -/
def freeChoice (j : Nat) : Act Bool := do
  let s ← get
  pure (Config.freeBool (8 * s.free + j))

/-! ### Translation (R309–R319) -/

inductive AccKind where
  | read | write | fetch | atomic
deriving DecidableEq, Repr

/-- CAUSE.SYNDROME.ACC (R331). -/
def AccKind.code : AccKind → Nat
  | .read => 0 | .write => 1 | .fetch => 2 | .atomic => 3

/-- A translated part of an access. -/
structure Piece where
  pa : Nat
  len : Nat
  /-- 0 normal cacheable, 1 normal uncached, 2 device. -/
  attr : Nat
  region : Region
  /-- Its translation read a descriptor from DRAM (R347). -/
  walked : Bool
deriving DecidableEq, Repr

/-- The region's attribute floor (R307). -/
def Region.floor : Region → Nat
  | .pcie | .ixlink | .control => 2
  | _ => 0

/-- Does a BTR cover an address (R309)? -/
def Btr.covers (b : Btr) (va : Nat) : Bool :=
  let vb := getF b.vbase 16 24 * 65536
  b.attr.getLsbD 0 && decide (vb ≤ va) && decide (va < vb + (getF b.size 0 24 + 1) * 65536)

/-- The lowest-numbered valid BTR that covers an address. -/
def findBtr (bs : Vector Btr 8) (va : Nat) : Option (Fin 8) :=
  (List.finRange 8).find? (fun i => (bs[i]).covers va)

/-- The walk's descriptor read (R317): refused outside assigned DRAM and on-chip SRAM. -/
def State.readable (s : State) (c : Cid) (a : Nat) : Bool :=
  match s.regionOf c a with
  | .dram | .sram => true
  | _ => false

/-- A failed check of one half of an access. -/
def failAcc {α : Type} (vec : Nat) (ea : Word) (k : AccKind) (half : Bool) (user : Bool) (rest : Nat) : Act α :=
  raiseSynd vec ea (k.code + 4 * b2n half + 8 * b2n user + rest)

/-- Enter a descriptor in the walk cache of 64 entries, replacing the entry of the same tag, else the oldest. -/
def CoreSt.addWalk (k : CoreSt) (stag : BitVec 12) (pg : Nat) (d : Word) : CoreSt :=
  { k with walk := (TlbEntry.mk stag pg d :: k.walk.filter (fun e => !(e.stag == stag && e.page == pg))).take 64 }

/-- Enter a descriptor in the TLB of 1,024 entries, replacing the entry of the same tag, else the oldest. -/
def CoreSt.addTlb (k : CoreSt) (stag : BitVec 12) (pg : Nat) (d : Word) : CoreSt :=
  { k with tlb := (TlbEntry.mk stag pg d :: k.tlb.filter (fun e => !(e.stag == stag && e.page == pg))).take 1024 }

/-- The two-level walk through a table BTR (R314–R318), using the TLB and walk cache of the core. A cached
entry may be stale after a change, so each access may use it or walk again (R334). Answers the level-2 descriptor, and
whether a descriptor was read from DRAM. -/
def walkTable (c : Cid) (ea : Word) (k : AccKind) (half user : Bool) (bi : Nat) (b : Btr) (va : Nat) : Act (Word × Bool) := do
  let s ← get
  let x := s.cx c
  let kc := coreIdx c
  let off := va - getF b.vbase 16 24 * 65536
  let pg := va / 4096
  let useTlb ← match (s.core_ kc).tlb.find? (fun e => e.stag == x.stag && e.page == pg) with
    | some e => do
      let y ← freeChoice 0
      pure (if y then some e.desc else none)
    | none => pure none
  match useTlb with
  | some d => pure (d, false)
  | none =>
    let rg := getF b.vbase 16 24 + off / 0x200000 * 32
    let useWalk ← match (s.core_ kc).walk.find? (fun e => e.stag == x.stag && e.page == rg) with
      | some e => do
        let y ← freeChoice 1
        pure (if y then some e.desc else none)
      | none => pure none
    let (d1, r1) ← match useWalk with
      | some d => pure (d, false)
      | none => do
        let a1 := getF b.pbase 12 28 * 4096 + off / 0x200000 * 8
        if !s.readable c a1 then failAcc 7 ea k half user (0x2000 * bi)
        if s.ueAt a1 5 then failAcc 7 ea k half user (2 * 16 + 0x2000 * bi)
        let d := BitVec.ofNat 40 (s.word a1)
        if !d.getLsbD 0 then failAcc 6 ea k half user (1 * 16 + 0x2000 * bi)
        if getF d 1 11 != 0 then failAcc 7 ea k half user (1 * 16 + 0x2000 * bi)
        modify (fun s => s.setCore kc ((s.core_ kc).addWalk x.stag rg d))
        pure (d, s.region a1 == .dram)
    let a2 := getF d1 12 28 * 4096 + off / 4096 % 512 * 8
    if !s.readable c a2 then failAcc 7 ea k half user (0x40 + 0x2000 * bi)
    if s.ueAt a2 5 then failAcc 7 ea k half user (0x40 + 2 * 16 + 0x2000 * bi)
    let d := BitVec.ofNat 40 (s.word a2)
    if !d.getLsbD 0 then failAcc 6 ea k half user (2 * 16 + 0x2000 * bi)
    if getF d 6 6 != 0 || getF d 4 2 == 3 then failAcc 7 ea k half user (0x40 + 1 * 16 + 0x2000 * bi)
    modify (fun s => s.setCore kc ((s.core_ kc).addTlb x.stag pg d))
    pure (d, r1 || s.region a2 == .dram)

/-- Does an address lie in the rescue area of a context other than `c` (R280)? -/
def State.otherRescue (s : State) (c : Cid) (pa : Nat) : Bool :=
  let hit (d : Cid) : Bool :=
    let p := s.corePage d
    d != c && s.flag (F.CORE.CTX_RESCUE.VALID p (ctxNo d)) &&
      s.get (F.CORE.CTX_RESCUE.BASE p (ctxNo d)) == pa / 512
  (List.range 68).any (fun k => (coreCids k).any hit)

/-- The storage key that governs a physical address (R322, R307). -/
def State.keyAt (s : State) (pa : Nat) : Nat :=
  if s.keyed pa then (s.keyByte (pa / 4096)).toNat % 16
  else match s.region pa with
  | .control => match pageOf pa with
    | some _ => s.get (F.HDR.PG_LOCK.KEY (pageBase pa))
    | none => 0
  | _ => 0

/-- Enter a key-store byte in the key cache of 256 frames, replacing the frame's, else the oldest (R319). -/
def CoreSt.addKey (k : CoreSt) (frame : Nat) (b : Byte) : CoreSt :=
  { k with keys := ((frame, b) :: k.keys.filter (fun e => e.1 != frame)).take 256 }

/-- A core's cached key-store byte of a frame that is old: it has another key than the key store, or shows a REF or CHG that
the key store does not (R334, R335). -/
def State.staleKey (s : State) (k frame : Nat) : Option Byte :=
  let now := s.keyByte frame
  match (s.core_ k).keys.find? (fun e => e.1 == frame) with
  | some e => if e.2 &&& 0xF#8 == now &&& 0xF#8 && e.2 &&& 0x30#8 &&& ~~~now == 0#8 then none else some e.2
  | none => none

/-- An access marks its frame referenced, and its core's key cache holds the frame's key-store byte (R319, R325). `old` is a
cached byte that the access goes by, and `skip` leaves REF as it is where that byte shows it set (R335). -/
def State.markRef (s : State) (k pa : Nat) (old : Option Byte) (skip : Bool) : State :=
  if s.keyed pa then
    let f := pa / 4096
    match old with
    | some b =>
      let s1 := if skip && b.getLsbD 4 then s else s.setFrameBit pa 0x10#8
      s1.setCore k ((s1.core_ k).addKey f (b ||| 0x10#8))
    | none =>
      let s1 := s.setFrameBit pa 0x10#8
      s1.setCore k ((s1.core_ k).addKey f (s1.keyByte f))
  else s

/-- A translated address: the physical address, the attribute that the translation names, the W, X and U
bits, the BTR, and whether a descriptor was read from DRAM. -/
structure Xlat where
  pa : Nat
  mem : Nat
  w : Bool
  x : Bool
  u : Bool
  bi : Nat
  walked : Bool
deriving DecidableEq, Repr

/-- Translate a virtual address (orders 1 to 3 of R329): a BTR, then the walk of a table BTR. -/
def translate (c : Cid) (ea : Word) (va : Nat) (k : AccKind) (half user : Bool) : Act Xlat := do
  let s ← get
  let x := s.cx c
  let btrs := match x.staleBtr with
    | [] => x.btr
    | old => (old[Config.freeNat s.free % (old.length + 1)]?).getD x.btr
  match findBtr btrs va with
  | none => failAcc 6 ea k half user 0
  | some i =>
    let b := btrs[i]
    let bi := i.val
    if b.attr.getLsbD 1 then do
      let (d, walked) ← walkTable c ea k half user bi b va
      let m1 := getF b.attr 2 2
      let m2 := getF d 4 2
      pure { pa := getF d 12 28 * 4096 + va % 4096, mem := (if m1 < m2 then m2 else m1)
             w := b.attr.getLsbD 4 && d.getLsbD 1, x := b.attr.getLsbD 5 && d.getLsbD 2
             u := b.attr.getLsbD 6 && d.getLsbD 3, bi := bi, walked := walked }
    else
      pure { pa := (getF b.pbase 16 24 * 65536 + va - getF b.vbase 16 24 * 65536) % 2 ^ 40
             mem := getF b.attr 2 2, w := b.attr.getLsbD 4, x := b.attr.getLsbD 5, u := b.attr.getLsbD 6, bi := bi
             walked := false }

/-- The attribute of a translated address, no lower than its region's (R307). -/
def State.attrOf (s : State) (c : Cid) (t : Xlat) : Nat := let f := (s.regionOf c t.pa).floor; if t.mem < f then f else t.mem

/-- What an access is to its instruction: a word that control space takes as a register (R31), any other
load or store, or an operand of the string group (R203). -/
inductive AccCls where
  | word | plain | string
deriving DecidableEq, Repr

/-- Orders 1 to 6 of R329 for one half, at privilege `pl`. -/
def checkHalf (c : Cid) (pl : BitVec 2) (ea : Word) (va len : Nat) (k : AccKind) (half split : Bool) (cls : AccCls) : Act Piece := do
  let user := pl == 0#2
  let t ← translate c ea va k half user
  let s ← get
  let pa := t.pa
  let rg := s.regionOf c pa
  let attr := s.attrOf c t
  let wr := k == .write || k == .atomic
  let btr := 0x2000 * t.bi
  if k == .fetch then
    if !rg.isMem || attr != 0 then failAcc 6 ea k half user (6 * 16 + btr)
    if !t.x then failAcc 6 ea k half user (4 * 16 + btr)
  if user && !t.u then failAcc 6 ea k half user (5 * 16 + btr)
  if wr && !t.w then failAcc 6 ea k half user (3 * 16 + btr)
  if (attr == 2 && (split || k == .atomic || cls == .string)) || (split && k == .atomic) then raiseAt 5 ea
  if rg == .control && !(cls == .word && pa % 8 == 0) then raiseAt 5 ea
  let kc := coreIdx c
  let (old, skip) ← match (if s.keyed pa then s.staleKey kc (pa / 4096) else none) with
    | some b => do
      let y ← freeChoice 2
      let z ← freeChoice 3
      pure (if y then some b else none, z)
    | none => pure (none, false)
  let key := match old with | some b => b.toNat % 16 | none => s.keyAt pa
  let right := keyRight (s.cx c).krr pl key
  let needed := if k == .fetch then 3 else if wr then 2 else 1
  let rest := 0x80 * key + 0x800 * right + btr
  if wr && (rg == .codeStore || rg == .bootRom) then failAcc 8 ea k half user (1 * 16 + rest)
  if rg == .bootRom && !isWardenCid c then failAcc 8 ea k half user (2 * 16 + rest)
  if rg == .sram && !isWardenCid c && s.otherRescue c pa then failAcc 8 ea k half user (3 * 16 + rest)
  if rg != .unassigned && right < needed then failAcc 8 ea k half user rest
  modify (fun s => s.markRef kc pa old skip)
  pure { pa := pa, len := len, attr := attr, region := rg, walked := t.walked }

/-- Is an access of `n` bytes at `a` across a 64-byte line (R330, R133)? -/
def crosses (a n : Nat) : Bool := decide (64 < a % 64 + n)

/-- Where an address translates to, with no effect and no fault. -/
def probe (c : Cid) (va : Nat) (s : State) : Option Xlat :=
  match (translate c 0 va .read false false) s with
  | .ok (t, _) => some t
  | .error (_, _) => none

/-- A word access to control space is of 5 bytes, in Conjunction too (R31). -/
def accLen (c : Cid) (va n : Nat) (cls : AccCls) (s : State) : Nat :=
  match cls, probe c va s with
  | .word, some t => if s.region t.pa = .control then 5 else n
  | _, _ => n

/-- The checks of an access of `n` bytes at a virtual address (R329, R330): one or two pieces. -/
def checkAcc (c : Cid) (pl : BitVec 2) (ea : Word) (va n0 : Nat) (k : AccKind) (cls : AccCls) : Act (List Piece) := do
  let s ← get
  let n := accLen c va n0 cls s
  if crosses va n then
    let n1 := 64 - va % 64
    let p1 ← checkHalf c pl ea va n1 k false true cls
    let p2 ← checkHalf c pl ea ((va + n1) % 2 ^ 40) (n - n1) k true true cls
    modify (fun s => { s with free := s.free + 1 })
    pure [p1, p2]
  else
    let p ← checkHalf c pl ea va n k false false cls
    modify (fun s => { s with free := s.free + 1 })
    pure [p]

/-- Order 7 of R329: vector 16 when a piece consumes an uncorrectable line or a retired frame (R332). -/
def consume (ea : Word) (k : AccKind) : List Piece → Bool → Act Unit
  | [], _ => pure ()
  | p :: ps, half => do
    let s ← get
    let src := match p.region with | .sram => 4 | .codeStore => 5 | _ => 0
    if p.region.hasKey && (s.keyByte (p.pa / 4096)).getLsbD 6 then
      raiseSynd 16 ea (k.code + 4 * b2n half + 6 * 16)
    if k != .write && p.region.isMem && s.ueAt p.pa p.len then
      stop (.exc { vec := 16, fault := ea, info := 0, synd := k.code + 4 * b2n half + src * 16, hits := []
                   frame := if p.region = .dram then some (p.pa / 4096) else none })
    consume ea k ps true

/-! ### The store buffer (R252, R321) -/

/-- Perform one buffered store. -/
def State.perform (s : State) (e : SbEntry) : State := performWith devWrite s e

/-- Perform a list of stores in order. -/
def State.performAll (s : State) (es : List SbEntry) : State := es.foldl State.perform s

/-- The oldest buffered store of a core is performed. -/
def State.drainOne (s : State) (k : Nat) : State :=
  match (s.core_ k).sb with
  | [] => s
  | e :: es => (s.setCore k { s.core_ k with sb := es }).perform e

/-- Every buffered store of a context is performed, in order. -/
def State.drainCtx (s : State) (c : Cid) : State :=
  let k := coreIdx c
  let mine := (s.core_ k).sb.filter (fun e => e.cid == c)
  (s.setCore k { s.core_ k with sb := (s.core_ k).sb.filter (fun e => e.cid != c) }).performAll mine

/-- Put a store into the buffer; a full buffer first performs its oldest store. DEDUCED, log 18. -/
def State.pushStore (s : State) (e : SbEntry) : State :=
  let k := coreIdx e.cid
  let s1 := if (s.core_ k).sb.length < 16 then s else s.drainOne k
  s1.setCore k { s1.core_ k with sb := (s1.core_ k).sb ++ [e] }

/-- A byte as the context's own buffered stores leave it. -/
def sbByte (es : List SbEntry) (c : Cid) (pa : Nat) (b : Byte) : Byte :=
  es.foldl (fun b e => if e.cid == c && decide (e.addr ≤ pa) then (e.data[pa - e.addr]?).getD b else b) b

/-- Does a buffered store of the context overlap a piece only in part? -/
def partOverlap (c : Cid) (p : Piece) (e : SbEntry) : Bool :=
  let lo := e.addr
  let hi := e.addr + e.data.length
  e.cid == c && decide (lo < p.pa + p.len) && decide (p.pa < hi) &&
    !(decide (lo ≤ p.pa) && decide (p.pa + p.len ≤ hi))

/-! ### Comparators (R696, R697) -/

/-- Does a comparator's CID filter select a context? -/
def cmpCid (cfg : Word) (cidLo maskLo : Nat) (c : Cid) : Bool :=
  (c.toNat ^^^ getF cfg cidLo 12) &&& getF cfg maskLo 12 == 0

/-- Are the comparators acting on a context's next instruction? -/
def State.cmpOn (s : State) (c : Cid) : Bool :=
  s.enabled pgDBG && !(s.cx c).skip && (!isWardenCid c || s.flag F.DBG.AUTH.WARDEN)

/-- The breakpoints that match the slot about to execute. -/
def State.bpHits (s : State) (c : Cid) : List Nat :=
  if !s.cmpOn c then [] else
  (List.range 8).filter (fun i =>
    let cfg := s.reg (R.DBG.BP_CFG i)
    cfg.getLsbD 0 && cmpCid cfg 4 16 c && s.reg (R.DBG.BP_ADDR i) == (s.cx c).pc)

/-- The watchpoints that match an access of `n` bytes at an effective address. -/
def State.wpHits (s : State) (c : Cid) (ea : Word) (n : Nat) (write : Bool) : List Nat :=
  if !s.cmpOn c then [] else
  (List.range 8).filter (fun i =>
    let cfg := s.reg (R.DBG.WP_CFG i)
    let ln := s.reg (R.DBG.WP_LEN i)
    let lo := (s.reg (R.DBG.WP_ADDR i)).toNat
    let kind := getF cfg 4 2
    cfg.getLsbD 0 && cmpCid cfg 6 18 c && (if write then kind / 2 % 2 == 1 else kind % 2 == 1) &&
      (!ln.getLsbD 36 || getF ln 24 12 == (s.cx c).stag.toNat) &&
      decide (lo < ea.toNat + n) && decide (ea.toNat < lo + getF ln 0 24))

/-- The ACTION that acts among those of the matching comparators (R702): the lowest of those that stop. -/
def stopAction (acts : List Nat) : Option Nat :=
  if acts.contains 1 then some 1 else if acts.contains 2 then some 2 else if acts.contains 3 then some 3 else none

/-- Start or stop trace (R697 ACTION 4 and 5). -/
def State.traceAction (s : State) (acts : List Nat) : State :=
  if acts.contains 5 then s.put F.DBG.TR_CTRL.EN 0
  else if acts.contains 4 && !s.flag F.DBG.TR_CTRL.EN then s.traceOn .engine else s

/-- Count hits and act (R697). `synd` is the syndrome of vector 19 for the lowest matching comparator. -/
def compAct (fault : Word) (synd : Nat) (hits : List Fld) (acts : List Nat) : Act Unit :=
  match stopAction acts with
  | some 1 => stop (.exc { vec := 19, fault := fault, info := 0, synd := synd, hits := hits })
  | some a => stop (.hold hits (a == 2))
  | none => modify (fun s => (hits.foldl State.bumpSat s).traceAction acts)

/-- The breakpoint check, before order 3 of R124. -/
def checkBp (c : Cid) : Act Unit := do
  let s ← get
  match s.bpHits c with
  | [] => pure ()
  | h :: hs =>
    let all := h :: hs
    let one := (all.find? (fun i => s.get (F.DBG.BP_CFG.ACTION i) == 1)).getD h
    compAct (s.cx c).pc one (all.map F.DBG.BP_CFG.HITS) (all.map (fun i => s.get (F.DBG.BP_CFG.ACTION i)))

/-- The watchpoint check, after the checks of R329 and before any byte is accessed. -/
def checkWp (c : Cid) (ea : Word) (n : Nat) (write : Bool) : Act Unit := do
  let s ← get
  match s.wpHits c ea n write with
  | [] => pure ()
  | h :: hs =>
    let all := h :: hs
    let one := (all.find? (fun i => s.get (F.DBG.WP_CFG.ACTION i) == 1)).getD h
    let lo := s.reg (R.DBG.WP_ADDR one)
    let upper := crosses ea.toNat n && decide ((ea.toNat / 64 + 1) * 64 ≤ lo.toNat)
    compAct (if ea.toNat < lo.toNat then lo else ea) (one + 8 + 16 * b2n upper)
      (all.map F.DBG.WP_CFG.HITS) (all.map (fun i => s.get (F.DBG.WP_CFG.ACTION i)))

/-! ### Loads and stores -/

/-- Read the bytes of one checked piece. -/
def readPiece (c : Cid) (p : Piece) : Act (List Byte) := do
  let s ← get
  let pl := srPL (s.cx c).sr
  if p.attr == 2 then
    -- A device load waits until no older store of its context is buffered (R321).
    let s1 := s.drainCtx c
    if p.region.isMem then
      set s1
      pure (s1.bytes p.pa p.len)
    else if p.region == .unassigned then
      set (s1.unassigned (.ctx c pl) p.pa false)
      pure (List.replicate p.len 0)
    else
      let (bs, s2) := devRead s1 (.ctx c pl) p.pa p.len
      set s2
      pure bs
  else
    let es := (s.core_ (coreIdx c)).sb
    let s1 := if es.any (partOverlap c p) then s.drainCtx c else s
    set s1
    let es1 := (s1.core_ (coreIdx c)).sb
    if p.region.isMem then
      pure ((List.range p.len).map (fun i => sbByte es1 c (p.pa + i) (s1.byte (p.pa + i))))
    else
      set (s1.unassigned (.ctx c pl) p.pa false)
      pure (List.replicate p.len 0)

/-- Read pieces in order. -/
def readPieces (c : Cid) : List Piece → Act (List Byte)
  | [] => pure []
  | p :: ps => do
    let b ← readPiece c p
    let bs ← readPieces c ps
    pure (b ++ bs)

/-- Put the bytes of a store into the buffer, piece by piece. -/
def writePieces (c : Cid) : List Piece → List Byte → Act Unit
  | [], _ => pure ()
  | p :: ps, bs => do
    modify (fun s => s.pushStore { cid := c, pl := srPL (s.cx c).sr, addr := p.pa, data := bs.take p.len,
                                   dev := p.attr == 2 })
    writePieces c ps (bs.drop p.len)

/-- Is the upper half of a split access made first (R330)? DESIGN CHOICE, log 19. -/
def upperFirst : List Piece → Act Bool
  | [_, _] => freeChoice 5
  | _ => pure false

/-- Read the halves of an access, in either order (R330). -/
def readHalves (c : Cid) (ps : List Piece) : Act (List Byte) := do
  let up ← upperFirst ps
  match up, ps with
  | true, [p, q] => do
    let b ← readPiece c q
    let a ← readPiece c p
    pure (a ++ b)
  | _, _ => readPieces c ps

/-- Put the halves of a store into the buffer, in either order (R330). -/
def writeHalves (c : Cid) (ps : List Piece) (bs : List Byte) : Act Unit := do
  let up ← upperFirst ps
  match up, ps with
  | true, [p, q] => writePieces c [q, p] (bs.drop p.len ++ bs.take p.len)
  | _, _ => writePieces c ps bs

/-- May a miss to DRAM switch the context out: SR.SOM without the fast bank, and another context of the core ready (R93,
R255)? -/
def State.mayMiss (s : State) (c : Cid) : Bool :=
  let sr := (s.cx c).sr
  srSOM sr && !srFB sr && (s.choice (coreIdx c)).isSome

/-- Does a data cache miss of checked pieces switch the context out (R93, R255)? Only cacheable DRAM is
cached. DEDUCED, log 15. -/
def State.missSwitches (s : State) (c : Cid) (ps : List Piece) : Bool :=
  s.mayMiss c && ps.any (fun p => p.attr == 0 && p.region == .dram)

/-- A descriptor read of a data access that misses to DRAM switches the context out (R347); whether it misses is free.
DESIGN CHOICE, log 19. -/
def walkMiss (c : Cid) (ps : List Piece) : Act Unit := do
  let s ← get
  if ps.any (fun p => p.walked) && s.mayMiss c then
    let y ← freeChoice 4
    if y then stop (.out .line)

/-- A load of `n` bytes at an effective address: checks, watchpoints, then the data (R329). `miss` says that
the data cache missed to DRAM. -/
def load (c : Cid) (ea : Word) (n : Nat) (word miss : Bool) : Act (List Byte) := do
  let s ← get
  let ps ← checkAcc c (srPL (s.cx c).sr) ea ea.toNat n .read (if word then .word else .plain)
  walkMiss c ps
  consume ea .read ps false
  checkWp c ea n false
  let s ← get
  if miss && s.missSwitches c ps then stop (.out .line)
  readHalves c ps

/-- A store of bytes at an effective address. -/
def store (c : Cid) (ea : Word) (bs : List Byte) (word : Bool) : Act Unit := do
  let s ← get
  let ps ← checkAcc c (srPL (s.cx c).sr) ea ea.toNat bs.length .write (if word then .word else .plain)
  walkMiss c ps
  consume ea .write ps false
  checkWp c ea bs.length true
  writeHalves c ps bs

end Sys2Proof.Machine
end

