-- ==== Sys2Proof/Machine/Exec.lean ====
section
/-! DEFINITION. Taking an exception, returning from one, halting a context, and the frame in which every
instruction executes: the checks before it, its completion, loop ends and repeats (R124, R226–R232,
R264–R286). -/

namespace Sys2Proof.Machine

/-! ### Halting (R284–R286, R728) -/

/-- CAUSE (R270). -/
def Exc.cause (e : Exc) : Word := BitVec.ofNat 40 (e.vec + 64 * e.info + 65536 * e.synd)

/-! ### The frame and the lazy area (R269–R273) -/

/-- The frame size (R267). -/
def frameSize (wide : Bool) : Nat := if wide then 240 else 200

/-- The frame tag (R270). -/
def frameTag (c : Cid) (vec : Nat) (wide filled rescue : Bool) : Nat :=
  vec + 64 * b2n wide + 256 * b2n filled + 512 * b2n rescue + 1024 * b2n (vec == 12 || vec == 13 || vec == 48) +
    4096 * c.toNat + 2 ^ 24 * 0x7E10

/-- The base of a frame (R269): PC, SR with LZ 0, FSR, KRR, CAUSE, fault address, STAG and the tag. -/
def frameBase (c : Cid) (x : Ctx) (wide rescue : Bool) (pc : Word) (e : Exc) (fault : Word) : List Byte :=
  leBytes 5 pc.toNat ++ leBytes 5 (setBit x.sr 38 false).toNat ++ leBytes 5 x.fsr.toNat ++
    leBytes 5 (krrRead x.krr (srPL x.sr)).toNat ++ leBytes 5 e.cause.toNat ++ leBytes 5 fault.toNat ++
    leBytes 5 x.stag.toNat ++ leBytes 5 (frameTag c e.vec wide false rescue)

/-- Split a byte range at 64-byte lines: the address and length of each part, with fuel. -/
def lineParts : Nat → Nat → Nat → List (Nat × Nat)
  | 0, _, _ => []
  | f + 1, a, n =>
    if n = 0 then [] else
    let k := min n (64 - a % 64)
    (a, k) :: lineParts f ((a + k) % 2 ^ 40) (n - k)

/-- Check a range of bytes line by line, without consuming it. -/
def checkRange (c : Cid) (pl : BitVec 2) (k : AccKind) : List (Nat × Nat) → Act (List Piece)
  | [] => pure []
  | (a, n) :: r => do
    let p ← checkAcc c pl (BitVec.ofNat 40 a) a n k .plain
    consume (BitVec.ofNat 40 a) k p false
    let ps ← checkRange c pl k r
    pure (p ++ ps)

/-- Write bytes to checked pieces of normal memory. -/
def writeRange : List Piece → List Byte → State → State
  | [], _, s => s
  | p :: ps, bs, s =>
    writeRange ps (bs.drop p.len) (if p.region.isMem then s.storeBytes p.pa (bs.take p.len) else s)

/-- The bytes that pieces name, in order. -/
def pieceBytes (s : State) (ps : List Piece) : List Byte := ps.flatMap (fun p => s.bytes p.pa p.len)

/-- Fill the pending lazy area, of the form of the frame that reserved it (R270, R273): write the current values, set FILLED,
clear SR.LZ (R271). A fault of the filling store halts the context (R272). It waits for a pending X result (R390). -/
def fillLazy (c : Cid) : Act Unit := do
  let s ← get
  let x := s.cx c
  if srLZ x.sr then
    if x.pend.any (fun p => match p with | .x _ => true | _ => false) then stop .stall
    let w := x.lazyWide
    let r : Act (List Piece) :=
      checkRange c (srPL x.sr) .write (lineParts 8 (x.lazyAddr.toNat + 36) (frameSize w - 36))
    match r (s.drainCtx c) with
    | .error (.exc e, _) => stop (.lazyHalt e)
    | .error (e, _) => stop e
    | .ok (ps, s1) =>
      let x1 := (s1.cx c).land
      let tag := (pieceBytes s1 ps).take 4
      let body := tag.set 0 (tag.getD 0 0 ||| 1#8) ++ lazyImage w x1
      set ((writeRange ps body s1).setCx c { x1 with sr := setBit x1.sr 38 false })

/-- What every instruction that touches lazy state does first (R271). -/
def touchLazy (c : Cid) : Act Unit := fillLazy c

/-! ### Exception entry (R267, R268, R277–R283) -/

/-- SR after entry (R268). -/
def entrySr (c : Cid) (sr : Word) (vec : Nat) : Word :=
  let s1 := putF sr 17 2 (if isWardenCid c then 3 else 1)
  let s2 := if (vec == 12 || vec == 13 || vec == 48) && !isWardenCid c then setBit s1 19 true else s1
  let s3 := setBit (setBit (setBit s2 38 true) 36 false) 37 false
  let s4 := setBit (setBit (putF s3 27 3 0) 15 false) 16 false
  if 32 ≤ vec ∧ vec ≤ 47 then putF s4 31 4 (vec - 32) else s4

/-- An exception of warden context 0 taken before the image set its VBR enters the ROM's table: the ROM writes event 0x1809
and stops the context until the next reset (R669). -/
def State.romEntry (s : State) (c : Cid) (vec : Nat) (src : Word) : State :=
  if c = 0x200 ∧ (s.cx c).vbr = 0xFFFFF00000 ∧ s.boot = .done then
    let s1 := s.event 0x1809 0x18 5 vec src.toNat 0
    ({ s1.modCx c (fun x => { x with run := .halted }) with romStopped := true }).dispatch (coreIdx c)
  else s

/-- Entry once the frame is written: steps 5 and 6 of R267. -/
def State.enter (s : State) (c : Cid) (frame : Word) (vec : Nat) (src : Word) : State :=
  let x := s.cx c
  let x1 := { x with
    sps := frame, lazyAddr := frame, sr := entrySr c x.sr vec, onVector := true, strOp := none
    pc := x.vbr + BitVec.ofNat 40 (64 * vec)
    lazyWide := s.wide c
    depthOpen := x.depthOpen + b2n (isWardenCid c && (vec == 12 || vec == 13 || vec == 48))
    linesIn := x.linesIn + 1 }
  (((s.setCx c x1).emptyLines (coreIdx c)).traceXfer 2 c src vec).romEntry c vec src

/-- The stack fault (R277–R279): the frame goes to the rescue area with vector 14, or the context halts
with reason 2. -/
def State.stackFault (s : State) (c : Cid) (pc : Word) (e : Exc) : State :=
  let p := s.corePage c
  let x := s.cx c
  let base := 512 * s.get (F.CORE.CTX_RESCUE.BASE p (ctxNo c))
  let w := s.wide c
  let fr := base + 512 - frameSize w
  if !s.flag (F.CORE.CTX_RESCUE.VALID p (ctxNo c)) || s.flag (F.CORE.CTX_CFG.RBUSY p (ctxNo c)) ||
      (lineParts 8 fr (frameSize w)).any (fun q => s.ueAt q.1 q.2) then
    s.haltCtx c 2 e.vec e.cause e.fault
  else
    let e14 : Exc := { vec := 14, fault := x.sps, info := e.vec, synd := 0, hits := [] }
    let s1 := s.storeBytes fr (frameBase c x w true pc e14 x.sps)
    (s1.put (F.CORE.CTX_CFG.RBUSY p (ctxNo c)) 1).enter c (BitVec.ofNat 40 fr) 14 pc

/-- Does a push at SPS fail before its accesses are checked (R277, R280)? -/
def State.pushBad (s : State) (c : Cid) (sps f : Nat) : Bool :=
  let p := s.corePage c
  let base := 512 * s.get (F.CORE.CTX_RESCUE.BASE p (ctxNo c))
  sps % 8 != 0 || decide (sps < f) ||
    (s.flag (F.CORE.CTX_CFG.RBUSY p (ctxNo c)) && decide (base ≤ sps) && decide (sps ≤ base + 512) &&
      decide (sps < base + f))

/-- An exception entry waits for a result that the pending lazy area needs (R390): it is due before anything else of the
context. An interrupt stays pending at its source. -/
def State.deferEntry (s : State) (c : Cid) (pc : Word) (e : Exc) : State :=
  if e.vec < 32 then
    s.modCx c (fun x => { x with late := some { pc := pc, vec := e.vec, fault := e.fault, info := e.info, synd := e.synd } })
  else s

/-- Take an exception whose frame PC is `pc` (R267): landings, the double fault (R94, R282), the pending
lazy area, the push, SR, PC. -/
def State.takeException (s : State) (c : Cid) (pc : Word) (e : Exc) : State :=
  let s1 := (s.drainCtx c).modCx c Ctx.land
  let x := s1.cx c
  if (e.vec == 12 || e.vec == 13) && (srFB x.sr || x.depthOpen != 0) then s1.haltCtx c 1 e.vec e.cause e.fault
  else
    match fillLazy c s1 with
    | .error (.lazyHalt f, _) => s1.haltCtx c 3 f.vec f.cause f.fault
    | .error (_, _) => s1.deferEntry c pc e
    | .ok (_, s2) =>
      let y := s2.cx c
      let w := s2.wide c
      let f := frameSize w
      let sps := y.sps.toNat
      if s2.pushBad c sps f then s2.stackFault c pc e
      else
        let pl : BitVec 2 := if isWardenCid c then 3#2 else 1#2
        let r : Act (List Piece) := checkRange c pl .write (lineParts 8 (sps - f) f)
        match r s2 with
        | .error (_, _) => s2.stackFault c pc e
        | .ok (ps, s3) =>
          if ps.any (fun p => p.attr == 2 || (p.region.isMem && s3.ueAt p.pa p.len)) then s2.stackFault c pc e
          else
            (writeRange ps (frameBase c y w false pc e e.fault) s3).enter c (BitVec.ofNat 40 (sps - f)) e.vec pc

/-! ### Executing an instruction -/

/-- What R230 and R232 forbid after REP: a transfer of control, a loop or repeat, or a write of RC. -/
inductive IKind where
  /-- An ordinary instruction. -/
  | plain
  /-- An instruction that REP must not precede. -/
  | noRep
  /-- An interruptible instruction (R199). -/
  | interruptible
  /-- An ordinary instruction that writes loop registers: its own loop end goes by what it writes. -/
  | loops
deriving DecidableEq, Repr

/-- Completion without a transfer (R226, R229); an invalid LS raises the code format fault (R227). -/
def finish (c : Cid) : Act (Option Exc) := do
  let s ← get
  match (s.cx c).finish with
  | .ok y =>
    set (s.setCx c y)
    pure none
  | .error t => raiseAt 4 t

/-- Completion by a transfer of control: a line is entered, be it the same one (R260). -/
def transfer (c : Cid) (target : Word) : Act (Option Exc) := do
  let s ← get
  let pc := (s.cx c).pc
  set ((s.modCx c (fun x => x.goto target true)).traceXfer 1 c pc 0)
  pure none

/-- Completion of an instruction that wrote DV: vector 10 afterwards when SR.DVT is 1 (R148). -/
def finishDv (c : Cid) (dv : Bool) : Act (Option Exc) := do
  let s ← get
  let x := s.cx c
  let _ ← finish c
  pure (if dv && srDVT x.sr then some { vec := 10, fault := x.pc, info := 0, synd := 0, hits := [] } else none)

/-- The invalid LS that an instruction's loop end would go to (R227): of one that neither transfers control nor sets the loops
up, so that whether the loop end goes there is known before it executes. -/
def Ctx.badLoop (x : Ctx) (k : IKind) : Option Word :=
  if k = .noRep || k = .loops then none
  else match x.finish with
    | .error t => some t
    | .ok _ => none

/-- An instruction's body behind the checks that every instruction meets: breakpoints (R696), SR.ES on one that is not
interruptible (R221), SR.RP (R232), an invalid LS at a loop end (R227). The faults of orders 3 and 4 of R124, vectors 1 and
3, come before the last three. DEDUCED, log 20. -/
def preChecks {α : Type} (c : Cid) (k : IKind) (body : Act α) : Act α := do
  checkBp c
  let s ← get
  let x := s.cx c
  let early (other : Act α) : Act α :=
    match body s with
    | .error (.exc e, _) => if e.vec == 1 || e.vec == 3 then stop (.exc e) else other
    | _ => other
  if (srES x.sr && k != .interruptible) || (srRP x.sr && (x.rc == 0 || k == .noRep)) then early (raise c 2)
  else match x.badLoop k with
    | some t => early (raiseAt 4 t)
    | none => body

/-- The marks that the checks of an instruction leave though it does not complete: reference bits (R325) and what its core's
TLB, walk cache and key cache hold (R318, R319). -/
def State.checked (s t : State) (c : Cid) : State :=
  let k := coreIdx c
  let s1 := if t.core = s.core then s
    else s.setCore k { s.core_ k with tlb := (t.core_ k).tlb, walk := (t.core_ k).walk, keys := (t.core_ k).keys }
  { s1 with fkey := t.fkey, free := t.free }

/-- Is a HALT of the context due (R302)? One that holds the fast bank halts once it leaves it. -/
def State.haltDue (s : State) (c : Cid) : Bool :=
  s.flag ⟨R.CORE.CTX_CTRL (s.corePage c), 8 + ctxNo c, 1⟩ && !srFB (s.cx c).sr

/-- A context that has just come to wait or to be ready halts at once where its HALT is due (R302). -/
def State.haltIfDue (s : State) (c : Cid) : State := if s.haltDue c then s.haltCtx c 5 0 0 0 else s

/-- What an instruction that does not complete leaves: the state before it, and the stop taken. A switch on a miss is counted (R701,
event 9). -/
def State.onStop (s : State) (c : Cid) (st : Stop) : State :=
  match st with
  | .stall => s
  | .exc e =>
    let s1 := e.hits.foldl State.bumpSat s
    (match e.frame with | some f => s1.frameBad f 2 | none => s1).takeException c (s.cx c).pc e
  | .out w => (((if w = .line then s.count 9 (some c) 1 else s).stopRun c .waiting (some w)).haltIfDue c).dispatch (coreIdx c)
  | .hold hits part => (hits.foldl State.bumpSat s).startEclipse c part
  | .lazyHalt e => s.haltCtx c 3 e.vec e.cause e.fault

/-- A completed instruction: counted, and its exception taken afterwards. -/
def State.completed (s : State) (c : Cid) (e : Option Exc) : State :=
  let s1 := (s.modCx c (fun x => { x with skip := false })).count 1 (some c) 1
  match e with
  | none => s1
  | some e => s1.takeException c (s1.cx c).pc e

/-- May the context issue its next instruction: running, with no interruptible instruction under way, no HALT due at this
boundary (R302), and no local read of an account whose check the bank still has to make (R357)? Only the issue waits for that
check: exception entry and switches do not (R390). DEDUCED, log 103. -/
def State.canIssue (s : State) (c : Cid) : Bool :=
  s.canRun c && (s.cx c).strOp.isNone && !s.haltDue c && !(s.cx c).pend.contains .check

/-- An exception that is due before anything else of the context is taken (R357, R390). -/
def State.takeLate (s : State) (c : Cid) (l : LateExc) : State :=
  (s.modCx c (fun x => { x with late := none })).takeException c l.pc
    { vec := l.vec, fault := l.fault, info := l.info, synd := l.synd, hits := [] }

/-- A running context takes an exception at its next boundary (R267). -/
def State.entryAt (s : State) (c : Cid) (e : Exc) : State :=
  if s.canRun c then
    match (s.cx c).late with
    | some l => s.takeLate c l
    | none =>
      let s1 := s.stopStr c
      s1.takeException c (s1.cx c).pc e
  else s

/-- Execute an instruction's body in a context: nothing where the context cannot issue; otherwise the
completed state, or the exception it raises. DESIGN CHOICE, log 4. -/
def issue (c : Cid) (k : IKind) (body : Act (Option Exc)) (s : State) : State :=
  if s.canIssue c then
    match (s.cx c).late with
    | some l => s.takeLate c l
    | none =>
      match preChecks c k body s with
      | .ok (e, s1) => s1.completed c e
      | .error (.stall, _) => s
      | .error (st, t) => (s.checked t c).onStop c st
  else s

/-- The outcome of an instruction command. -/
def runInstr (c : Cid) (k : IKind) (body : Act (Option Exc)) (s : State) : Host.Outcome State Fault Refusal :=
  .next (issue c k body s)

end Sys2Proof.Machine
end

