-- ==== Sys2Proof/Machine/Operands.lean ====
section
/-! DEFINITION. Operand forms: register classes and their homes (R84–R91, R111, R119), pending registers
(R247), decimal operands (R154), decimal64 pairs (R66), addressing modes (R131, R132). -/

namespace Sys2Proof.Machine

/-! ### A and D registers -/

/-- Does the fast bank stand for A0–A7 and D0–D7 (R91)? Warden cores have none (R95). -/
def State.fastBank (s : State) (c : Cid) : Bool := srFB (s.cx c).sr && !isWardenCid c

/-- Where a D register number lies (R88, R91, R119). -/
def State.dLoc (s : State) (c : Cid) (n : RegNo) : DLoc :=
  if h : n.val < 8 then (if s.fastBank c then .fast ⟨n.val, h⟩ else .own ⟨n.val, h⟩)
  else .win (BitVec.ofNat 2 (srCWP (s.cx c).sr)).toFin ⟨n.val - 8, by omega⟩

/-- The D register at a place. -/
def State.atLoc (s : State) (c : Cid) (l : DLoc) : DWord :=
  match l with
  | .own n => (s.cx c).d[n]
  | .win w n => ((s.cx c).win[w])[n]
  | .fast n => (s.core_ (coreIdx c)).fastD[n]

/-- Write the D register at a place. -/
def State.setLoc (s : State) (c : Cid) (l : DLoc) (v : DWord) : State :=
  match l with
  | .own n => s.modCx c (fun x => { x with d := x.d.set n v })
  | .win w n => s.modCx c (fun x => { x with win := x.win.set w (x.win[w].set n v) })
  | .fast n => let k := coreIdx c; s.setCore k { s.core_ k with fastD := (s.core_ k).fastD.set n v }

/-- The value of a D register. -/
def State.dv (s : State) (c : Cid) (n : RegNo) : Nat := (s.atLoc c (s.dLoc c n)).toNat

/-- Write a D register at the width of the mode. -/
def State.setD (s : State) (c : Cid) (n : RegNo) (v : Nat) : State :=
  s.setLoc c (s.dLoc c n) (BitVec.ofNat 80 (v % 2 ^ s.width c))

/-- The value of an A register (R86, R91). -/
def State.av (s : State) (c : Cid) (n : RegNo) : Word :=
  let x := s.cx c
  if h : n.val < 15 then
    if h8 : n.val < 8 then (if s.fastBank c then (s.core_ (coreIdx c)).fastA[n.val] else x.a[n.val])
    else x.a[n.val]
  else if srPL x.sr = 0#2 then x.spu else x.sps

/-- Write an A register. -/
def State.setA (s : State) (c : Cid) (n : RegNo) (v : Word) : State :=
  let x := s.cx c
  if h : n.val < 15 then
    if h8 : n.val < 8 then
      if s.fastBank c then
        let k := coreIdx c
        s.setCore k { s.core_ k with fastA := (s.core_ k).fastA.set n.val v }
      else s.setCx c { x with a := x.a.set n.val v }
    else s.setCx c { x with a := x.a.set n.val v }
  else if srPL x.sr = 0#2 then s.setCx c { x with spu := v } else s.setCx c { x with sps := v }

/-- The D registers an instruction names, before any other check: D8–D15 need an open window (R90), and a
register that a read of the tally engine still has to write holds the instruction (R247). -/
def regs (c : Cid) (ds : List RegNo) : Act Unit := do
  let s ← get
  let x := s.cx c
  if ds.any (fun n => decide (8 ≤ n.val)) && srWD x.sr == 0 then raise c 1
  if ds.any (fun n => x.pend.contains (.d (s.dLoc c n))) then stop .stall

/-- SR.C, V, Z and N are not awaited by a read of the tally engine (R247). -/
def flagsFree (c : Cid) : Act Unit := do
  let s ← get
  if (s.cx c).pend.contains .flags then stop .stall

/-- Write a D register. -/
def putD (c : Cid) (n : RegNo) (v : Nat) : Act Unit := modify (fun s => s.setD c n v)

/-- Write an A register. -/
def putA (c : Cid) (n : RegNo) (v : Word) : Act Unit := modify (fun s => s.setA c n v)

/-- Write SR. -/
def putSr (c : Cid) (sr : Word) : Act Unit := modify (fun s => s.modCx c (fun x => { x with sr := sr }))

/-- OR flags into FSR (R101, R190). -/
def orFsr (c : Cid) (f : BitVec 11) : Act Unit := modify (fun s => s.modCx c (fun x => { x with fsr := x.fsr ||| f }))

/-- Write SR after a decimal operation; DV also sets FSR.DVS (R148). -/
def putDec (c : Cid) (sr : Word) (dv : Bool) : Act Unit := do
  putSr c sr
  if dv then orFsr c 0x400#11

/-! ### Widths and decimal operands -/

/-- Decimal digits of a D register: 10, or 20 in Conjunction (R53, R55). -/
def State.digits (s : State) (c : Cid) : Nat := if s.wide c then 20 else 10

/-- Width of an X register (R84). -/
def State.xWidth (s : State) (c : Cid) : Nat := if s.wide c then 176 else 88

/-- Digits of an X register (R56). -/
def State.xDigits (s : State) (c : Cid) : Nat := if s.wide c then 44 else 22

/-- The decimal data exception on an operand of `n` digits with an invalid nibble (R154). -/
def decOk (c : Cid) (n v : Nat) : Act Unit := need c 9 (bcdOk n v)

/-! ### X registers and products -/

/-- An X field (R119), and no tally read pending on it (R247). -/
def xField (c : Cid) (n : RegNo) : Act (Fin 4) := do
  if h : n.val < 4 then
    let s ← get
    if (s.cx c).pend.contains (.x ⟨n.val, h⟩) then stop .stall
    pure ⟨n.val, h⟩
  else raise c 1

/-- The value of an X register. -/
def State.xv (s : State) (c : Cid) (n : Fin 4) : Nat := ((s.cx c).x[n]).toNat

/-- Write an X register at the width of the mode. -/
def putX (c : Cid) (n : Fin 4) (v : Nat) : Act Unit :=
  modify (fun s => s.modCx c (fun x => { x with x := x.x.set n (BitVec.ofNat 176 (v % 2 ^ s.xWidth c)) }))

/-- Every product in flight lands (R165–R167). -/
def landAll (c : Cid) : Act Unit := modify (fun s => s.modCx c Ctx.land)

/-- A free number. -/
def drawOne : Act Nat := do
  let s ← get
  set { s with free := s.free + 1 }
  pure (Config.freeNat s.free)

/-- The rounding mode that a selecting field names (R158). With the reserved SR.RMD 7 the spec gives no mode: it is one of the
seven, open each time. DESIGN CHOICE, log 109. -/
def roundMode (c : Cid) (rc : Nat) : Act Nat := do
  let s ← get
  match rmSel rc (srRMD (s.cx c).sr) with
  | some m => if m < 7 then pure m else return (← drawOne) % 7
  | none => raise c 1

/-- Write PH and PL at once. -/
def putP (c : Cid) (h l : Nat) : Act Unit :=
  modify (fun s => s.modCx c (fun x =>
    { x with ph := BitVec.ofNat 80 (h % 2 ^ s.width c), pl := BitVec.ofNat 80 (l % 2 ^ s.width c) }))

/-- Start a product that PH:PL shows when it lands (R165). -/
def startP (c : Cid) (h l : Nat) : Act Unit :=
  modify (fun s => s.modCx c (fun x => { x with prods := x.prods ++
    [(BitVec.ofNat 80 (h % 2 ^ s.width c), BitVec.ofNat 80 (l % 2 ^ s.width c))] }))

/-! ### decimal64 operands (R66, R178) -/

/-- The registers of a decimal64 operand: a pair, or one register in Conjunction. -/
def State.pairOf (s : State) (c : Cid) (n : RegNo) : List RegNo := if s.wide c then [n] else [n, n + 1]

/-- A decimal64 register number: even outside Conjunction. -/
def pairOk (c : Cid) (ns : List RegNo) : Act Unit := do
  let s ← get
  need c 1 (s.wide c || ns.all (fun n => n.val % 2 == 0))
  regs c (ns.flatMap (s.pairOf c))

/-- Read a decimal64. -/
def State.pv (s : State) (c : Cid) (n : RegNo) : Nat :=
  if s.wide c then s.dv c n % 2 ^ 64 else s.dv c n % 2 ^ 24 * 2 ^ 40 + s.dv c (n + 1) % 2 ^ 40

/-- Write a decimal64. -/
def putPair (c : Cid) (n : RegNo) (v : Nat) : Act Unit := do
  let s ← get
  if s.wide c then putD c n (v % 2 ^ 64)
  else
    putD c n (v / 2 ^ 40 % 2 ^ 24)
    putD c (n + 1) (v % 2 ^ 40)

/-! ### Addressing modes (R131, R132) -/

/-- The scale SC selects. -/
def scaleOf (sc : BitVec 2) : Nat :=
  match sc.toNat with
  | 0 => 1 | 1 => 5 | 2 => 8 | _ => 64

/-- The effective address, and the base's new value where the mode updates it. -/
def State.effAddr (s : State) (c : Cid) (ab : RegNo) (m : AMode) : Word × Option Word :=
  let b := s.av c ab
  match m with
  | .disp d => (b + d.signExtend 40, none)
  | .indexed ax sc d => (b + s.av c ax * BitVec.ofNat 40 (scaleOf sc) + d.signExtend 40, none)
  | .post d => (b, some (b + d.signExtend 40))
  | .pre d => let ea := b + d.signExtend 40; (ea, some ea)

/-- Does the mode update its base? -/
def modeUpdates : AMode → Bool
  | .post _ | .pre _ => true
  | _ => false

/-! ### A wait for a queue (R415) -/

/-- A context in WAITQ repeats its selection: with a deliverable queue it goes on. During a Conjunction transition it stays waiting
(R116). -/
def State.queueWake (s : State) (c : Cid) : State :=
  match (s.cx c).wait with
  | some (.queues rd) =>
    if s.queueRuns && !(s.cx c).moving then
      match s.select c with
      | (some n, s1) => ((s1.setD c rd n).finishWait c).dispatch (coreIdx c)
      | (none, s1) => s1
    else s
  | _ => s

/-- Make the base update of a completed access. -/
def baseUpdate (c : Cid) (ab : RegNo) (u : Option Word) : Act Unit :=
  match u with
  | some v => putA c ab v
  | none => pure ()

end Sys2Proof.Machine
end

