-- ==== Sys2Proof/Machine/Arith.lean ====
section
/-! DEFINITION. Binary integer, decimal, multiply, division-step and accumulator instructions: majors 0x40 to
0x8F (R144–R177), and the landing of a long operation (R247). -/

namespace Sys2Proof.Machine

/-- A binary operation of two D registers: `f` gives result and SR from W, SR and the operands. -/
def binOp2 (c : Cid) (wr : Option RegNo) (ra rb : RegNo) (f : Nat → Word → Nat → Nat → Nat × Word) : Act (Option Exc) := do
  regs c (wr.toList ++ [ra, rb])
  flagsFree c
  let s ← get
  let r := f (s.width c) (s.cx c).sr (s.dv c ra) (s.dv c rb)
  (match wr with
    | some rd => putD c rd r.1
    | none => pure ())
  putSr c r.2
  finish c

/-- A binary operation of one D register. -/
def binOp1 (c : Cid) (wr : Option RegNo) (ra : RegNo) (f : Nat → Word → Nat → Nat × Word) : Act (Option Exc) := do
  regs c (wr.toList ++ [ra])
  flagsFree c
  let s ← get
  let r := f (s.width c) (s.cx c).sr (s.dv c ra)
  (match wr with
    | some rd => putD c rd r.1
    | none => pure ())
  putSr c r.2
  finish c

/-- A binary add with carry-in (R150). -/
def addFn (cin : Bool) (w : Nat) (sr : Word) (a b : Nat) : Nat × Word :=
  let r := addBinary w a b (b2n cin)
  (r.1, flagsAdd w sr r)

/-- A binary subtract: a + NOT b + carry-in (R150). -/
def subFn (cin : Bool) (w : Nat) (sr : Word) (a b : Nat) : Nat × Word := addFn cin w sr a (notW w b)

/-- A logical operation (R150). -/
def logicFn (op : Nat → Nat → Nat) (w : Nat) (sr : Word) (a b : Nat) : Nat × Word :=
  let r := op a b % 2 ^ w
  (r, flagsLogic w sr r)

/-- ANDN's operation. -/
def andNot (a b : Nat) : Nat := a &&& notW 80 b

def execAdd (c : Cid) (rd ra rb : RegNo) (s : State) := runInstr c .plain (binOp2 c (some rd) ra rb (addFn false)) s
def execAddc (c : Cid) (rd ra rb : RegNo) (s : State) :=
  runInstr c .plain (binOp2 c (some rd) ra rb (fun w sr => addFn (srC sr) w sr)) s
def execSub (c : Cid) (rd ra rb : RegNo) (s : State) := runInstr c .plain (binOp2 c (some rd) ra rb (subFn true)) s
def execSubc (c : Cid) (rd ra rb : RegNo) (s : State) :=
  runInstr c .plain (binOp2 c (some rd) ra rb (fun w sr => subFn (srC sr) w sr)) s
def execCmp (c : Cid) (ra rb : RegNo) (s : State) := runInstr c .plain (binOp2 c none ra rb (subFn true)) s
def execNeg (c : Cid) (rd ra : RegNo) (s : State) :=
  runInstr c .plain (binOp1 c (some rd) ra (fun w sr a => subFn true w sr 0 a)) s
def execAnd (c : Cid) (rd ra rb : RegNo) (s : State) := runInstr c .plain (binOp2 c (some rd) ra rb (logicFn Nat.land)) s
def execOr (c : Cid) (rd ra rb : RegNo) (s : State) := runInstr c .plain (binOp2 c (some rd) ra rb (logicFn Nat.lor)) s
def execXor (c : Cid) (rd ra rb : RegNo) (s : State) := runInstr c .plain (binOp2 c (some rd) ra rb (logicFn Nat.xor)) s
def execAndn (c : Cid) (rd ra rb : RegNo) (s : State) := runInstr c .plain (binOp2 c (some rd) ra rb (logicFn andNot)) s
def execTst (c : Cid) (ra rb : RegNo) (s : State) := runInstr c .plain (binOp2 c none ra rb (logicFn Nat.land)) s

/-! ### Immediates (R151) -/

def execAddi (c : Cid) (rd ra : RegNo) (imm : BitVec 20) (s : State) :=
  runInstr c .plain (binOp1 c (some rd) ra (fun w sr a => addFn false w sr a (sext 20 w imm.toNat))) s
def execCmpi (c : Cid) (ra : RegNo) (imm : BitVec 20) (s : State) :=
  runInstr c .plain (binOp1 c none ra (fun w sr a => subFn true w sr a (sext 20 w imm.toNat))) s
def execAndi (c : Cid) (rd ra : RegNo) (imm : BitVec 20) (s : State) :=
  runInstr c .plain (binOp1 c (some rd) ra (fun w sr a => logicFn Nat.land w sr a imm.toNat)) s
def execOri (c : Cid) (rd ra : RegNo) (imm : BitVec 20) (s : State) :=
  runInstr c .plain (binOp1 c (some rd) ra (fun w sr a => logicFn Nat.lor w sr a imm.toNat)) s
def execXori (c : Cid) (rd ra : RegNo) (imm : BitVec 20) (s : State) :=
  runInstr c .plain (binOp1 c (some rd) ra (fun w sr a => logicFn Nat.xor w sr a imm.toNat)) s
def execTsti (c : Cid) (ra : RegNo) (imm : BitVec 20) (s : State) :=
  runInstr c .plain (binOp1 c none ra (fun w sr a => logicFn Nat.land w sr a imm.toNat)) s

/-! ### Shifts, rotates and bit operations (R152, R153) -/

/-- A shift or rotate: count, result, Z and N of the result, C where the count is not 0. -/
def shiftOp (c : Cid) (rd ra : RegNo) (n : ShiftCount) (op : ShiftOp) : Act (Option Exc) := do
  let rb := match n with | .imm _ => [] | .reg rb => [rb]
  let s ← get
  (match n with
    | .imm aux => need c 1 (decide (aux.toNat < s.width c))
    | .reg _ => pure ())
  regs c ([rd, ra] ++ rb)
  flagsFree c
  let k := match n with | .imm aux => aux.toNat | .reg rb => s.dv c rb % 256
  let w := s.width c
  let r := shiftW w op (s.dv c ra) k
  let sr := (s.cx c).sr
  putD c rd r.1
  putSr c (flagsLogic w (if k = 0 then sr else setBit sr 0 r.2) r.1)
  finish c

def execShl (c : Cid) (rd ra : RegNo) (n : ShiftCount) (s : State) := runInstr c .plain (shiftOp c rd ra n .shl) s
def execShr (c : Cid) (rd ra : RegNo) (n : ShiftCount) (s : State) := runInstr c .plain (shiftOp c rd ra n .shr) s
def execSar (c : Cid) (rd ra : RegNo) (n : ShiftCount) (s : State) := runInstr c .plain (shiftOp c rd ra n .sar) s
def execRol (c : Cid) (rd ra : RegNo) (n : ShiftCount) (s : State) := runInstr c .plain (shiftOp c rd ra n .rol) s
def execRor (c : Cid) (rd ra : RegNo) (n : ShiftCount) (s : State) := runInstr c .plain (shiftOp c rd ra n .ror) s

/-- A result with Z and N. -/
def znFn (f : Nat → Nat → Nat) (w : Nat) (sr : Word) (a : Nat) : Nat × Word :=
  let r := f w a % 2 ^ w
  (r, flagsLogic w sr r)

def execClz (c : Cid) (rd ra : RegNo) (s : State) := runInstr c .plain (binOp1 c (some rd) ra (znFn clz)) s
def execCtz (c : Cid) (rd ra : RegNo) (s : State) := runInstr c .plain (binOp1 c (some rd) ra (znFn ctz)) s
def execPopc (c : Cid) (rd ra : RegNo) (s : State) := runInstr c .plain (binOp1 c (some rd) ra (znFn popc)) s

/-- A bit index from 0 to W − 2 (R153). -/
def bitIndex (c : Cid) (aux : Byte) : Act Unit := do
  let s ← get
  need c 1 (decide (aux.toNat + 2 ≤ s.width c))

def execSext (c : Cid) (rd ra : RegNo) (aux : Byte) (s : State) :=
  runInstr c .plain (do
    bitIndex c aux
    binOp1 c (some rd) ra (znFn (fun w a => sext (aux.toNat + 1) w a))) s
def execZext (c : Cid) (rd ra : RegNo) (aux : Byte) (s : State) :=
  runInstr c .plain (do
    bitIndex c aux
    binOp1 c (some rd) ra (znFn (fun _ a => a % 2 ^ (aux.toNat + 1)))) s

/-! ### Decimal register instructions (R154–R160) -/

/-- A decimal operation of two D registers: `f` gives result, SR and DV from the digit count, SR and the
operands. -/
def decOp2 (c : Cid) (wr : Option RegNo) (ra rb : RegNo) (f : Nat → Word → Nat → Nat → Nat × Word × Bool) : Act (Option Exc) := do
  regs c (wr.toList ++ [ra, rb])
  flagsFree c
  let s ← get
  let n := s.digits c
  decOk c n (s.dv c ra)
  decOk c n (s.dv c rb)
  let r := f n (s.cx c).sr (s.dv c ra) (s.dv c rb)
  (match wr with
    | some rd => putD c rd r.1
    | none => pure ())
  putDec c r.2.1 r.2.2
  finishDv c r.2.2

/-- A decimal operation of one D register. -/
def decOp1 (c : Cid) (wr : Option RegNo) (ra : RegNo) (f : Nat → Word → Nat → Nat × Word × Bool) : Act (Option Exc) := do
  regs c (wr.toList ++ [ra])
  flagsFree c
  let s ← get
  let n := s.digits c
  decOk c n (s.dv c ra)
  let r := f n (s.cx c).sr (s.dv c ra)
  (match wr with
    | some rd => putD c rd r.1
    | none => pure ())
  putDec c r.2.1 r.2.2
  finishDv c r.2.2

/-- A decimal add (R155, R156). -/
def daddFn (u cin : Bool) (n : Nat) (sr : Word) (a b : Nat) : Nat × Word × Bool :=
  let r := addDecimal n a b (b2n cin) u
  (r.1, flagsDec n sr r.1 r.2.1 r.2.2, r.2.2)

/-- A decimal subtract: the add of the nine's complement. -/
def dsubFn (u cin : Bool) (n : Nat) (sr : Word) (a b : Nat) : Nat × Word × Bool := daddFn u cin n sr a (ninesComp n b)

/-- A decimal compare (R147). -/
def dcmpFn (n : Nat) (sr : Word) (a b : Nat) : Nat × Word × Bool := (0, flagsDcmp sr (decVal n a) (decVal n b), false)

/-- DABS (R155). -/
def dabsFn (n : Nat) (sr : Word) (a : Nat) : Nat × Word × Bool :=
  if decN n a then dsubFn false true n sr 0 a else (a, flagsDec n sr a false false, false)

def execDadd (c : Cid) (rd ra rb : RegNo) (u : Bool) (s : State) := runInstr c .plain (decOp2 c (some rd) ra rb (daddFn u false)) s
def execDadc (c : Cid) (rd ra rb : RegNo) (u : Bool) (s : State) :=
  runInstr c .plain (decOp2 c (some rd) ra rb (fun n sr => daddFn u (srDC sr) n sr)) s
def execDsub (c : Cid) (rd ra rb : RegNo) (u : Bool) (s : State) := runInstr c .plain (decOp2 c (some rd) ra rb (dsubFn u true)) s
def execDsbc (c : Cid) (rd ra rb : RegNo) (u : Bool) (s : State) :=
  runInstr c .plain (decOp2 c (some rd) ra rb (fun n sr => dsubFn u (srDC sr) n sr)) s
def execDcmp (c : Cid) (ra rb : RegNo) (s : State) := runInstr c .plain (decOp2 c none ra rb dcmpFn) s
def execDneg (c : Cid) (rd ra : RegNo) (s : State) :=
  runInstr c .plain (decOp1 c (some rd) ra (fun n sr a => dsubFn false true n sr 0 a)) s
def execDabs (c : Cid) (rd ra : RegNo) (s : State) := runInstr c .plain (decOp1 c (some rd) ra dabsFn) s

/-- The five BCD digits of an immediate extended to `n` digits (R157). -/
def decImm (n : Nat) (imm : BitVec 20) : Nat := decOf n (decVal 5 imm.toNat)

def execDaddi (c : Cid) (rd ra : RegNo) (imm : BitVec 20) (s : State) :=
  runInstr c .plain (do
    need c 1 (bcdOk 5 imm.toNat)
    decOp1 c (some rd) ra (fun n sr a => daddFn false false n sr a (decImm n imm))) s
def execDcmpi (c : Cid) (ra : RegNo) (imm : BitVec 20) (s : State) :=
  runInstr c .plain (do
    need c 1 (bcdOk 5 imm.toNat)
    decOp1 c none ra (fun n sr a => dcmpFn n sr a (decImm n imm))) s

/-- A digit count up to a bound (R159, R168, R169). -/
def countOk (c : Cid) (aux : Byte) (f : State → Nat) : Act Unit := do
  let s ← get
  need c 1 (decide (aux.toNat ≤ f s))

/-- The rounding mode that RC selects (R158). -/
def rmOf (c : Cid) (rm : RegNo) : Act Nat := roundMode c rm.val

/-- DSHL (R159): DC is not written. -/
def dshlFn (k n : Nat) (sr : Word) (a : Nat) : Nat × Word × Bool :=
  let v := decVal n a * (10 ^ k : Nat)
  let r := decOf n v
  let dv := !decFits n v
  (r, setBit (setZN sr (decZ n r) (decN n r)) 5 dv, dv)

/-- A rounded value in `n` digits, with its flags (R146, R158). -/
def roundFn (n : Nat) (sr : Word) (v : Int) (k mode : Nat) : Nat × Word × Bool :=
  let q := roundShift v k mode
  let r := decOf n q.1
  let dv := !decFits n q.1
  (r, flagsDec n sr r q.2 dv, dv)

def execDshl (c : Cid) (rd ra : RegNo) (aux : Byte) (s : State) :=
  runInstr c .plain (do
    countOk c aux (fun s => s.digits c)
    decOp1 c (some rd) ra (dshlFn aux.toNat)) s
def execDshr (c : Cid) (rd ra : RegNo) (rm : RegNo) (aux : Byte) (s : State) :=
  runInstr c .plain (do
    countOk c aux (fun s => s.digits c)
    let m ← rmOf c rm
    decOp1 c (some rd) ra (fun n sr a => roundFn n sr (decVal n a) aux.toNat m)) s

/-- DTB (R160). -/
def dtbFn (w n : Nat) (sr : Word) (a : Nat) : Nat × Word × Bool :=
  let r := umod w (decVal n a)
  (r, flagsLogic w sr r, false)

def execDtb (c : Cid) (rd ra : RegNo) (s : State) :=
  runInstr c .plain (decOp1 c (some rd) ra (dtbFn (s.width c))) s

/-- A signed value as a decimal result with DC 0 (BTD, LDPK). -/
def toDecFn (n : Nat) (sr : Word) (v : Int) : Nat × Word × Bool :=
  let r := decOf n v
  let dv := !decFits n v
  (r, flagsDec n sr r false dv, dv)

def execBtd (c : Cid) (rd ra : RegNo) (s : State) :=
  runInstr c .plain (do
    regs c [rd, ra]
    flagsFree c
    let s ← get
    let r := toDecFn (s.digits c) (s.cx c).sr (sint (s.width c) (s.dv c ra))
    putD c rd r.1
    putDec c r.2.1 r.2.2
    finishDv c r.2.2) s
def execDchk (c : Cid) (ra : RegNo) (s : State) :=
  runInstr c .plain (do
    regs c [ra]
    flagsFree c
    let s ← get
    putSr c (setBit (s.cx c).sr 2 (bcdOk (s.digits c) (s.dv c ra)))
    finish c) s

/-! ### Packed fields (R161–R163) -/

/-- The length of a packed field: 1 to 16. -/
def packLen (c : Cid) (aux : Byte) : Act Nat := do
  need c 1 (decide (1 ≤ aux.toNat ∧ aux.toNat ≤ 16))
  pure aux.toNat

def execLdpk (c : Cid) (rd ra : RegNo) (aux : Byte) (miss : Bool) (s : State) :=
  runInstr c .plain (do
    let l ← packLen c aux
    regs c [rd]
    flagsFree c
    let s ← get
    let bs ← load c (s.av c ra) l false miss
    match packedVal bs with
    | none => raise c 9
    | some v =>
      let s ← get
      let r := toDecFn (s.digits c) (s.cx c).sr v
      putD c rd r.1
      putDec c r.2.1 r.2.2
      finishDv c r.2.2) s
def execStpk (c : Cid) (ra rb : RegNo) (aux : Byte) (s : State) :=
  runInstr c .plain (do
    let l ← packLen c aux
    regs c [rb]
    flagsFree c
    let s ← get
    let n := s.digits c
    let b := s.dv c rb
    decOk c n b
    let v := decVal n b
    store c (s.av c ra) (packedOf l v) false
    let dv := decide (10 ^ (2 * l - 1) ≤ v.natAbs)
    putDec c (setBit (setZN (s.cx c).sr (v == 0) (decide (v < 0))) 5 dv) dv
    finishDv c dv) s

/-! ### Multiplies (R164–R166) -/

/-- A multiply into PH:PL: the double-width product of two operands. -/
def mulP (c : Cid) (ra rb : RegNo) (f : Nat → Nat → Nat → Int) : Act (Option Exc) := do
  regs c [ra, rb]
  fillLazy c
  landAll c
  let s ← get
  let w := s.width c
  let p := umod (2 * w) (f w (s.dv c ra) (s.dv c rb))
  startP c (p / 2 ^ w) (p % 2 ^ w)
  finish c

/-- A multiply into a register pair. -/
def mulW (c : Cid) (rd ra rb : RegNo) (f : Nat → Nat → Nat → Int) : Act (Option Exc) := do
  need c 1 (rd.val % 2 == 0)
  regs c [rd, rd + 1, ra, rb]
  fillLazy c
  landAll c
  let s ← get
  let w := s.width c
  let p := umod (2 * w) (f w (s.dv c ra) (s.dv c rb))
  putD c rd (p / 2 ^ w)
  putD c (rd + 1) (p % 2 ^ w)
  finish c

/-- The signed and the unsigned product. -/
def sMul (w a b : Nat) : Int := sint w a * sint w b
def uMul (w a b : Nat) : Int := (a % 2 ^ w * (b % 2 ^ w) : Nat)

def execMul (c : Cid) (ra rb : RegNo) (s : State) := runInstr c .plain (mulP c ra rb sMul) s
def execMulu (c : Cid) (ra rb : RegNo) (s : State) := runInstr c .plain (mulP c ra rb uMul) s
def execMulw (c : Cid) (rd ra rb : RegNo) (s : State) := runInstr c .plain (mulW c rd ra rb sMul) s
def execMulwu (c : Cid) (rd ra rb : RegNo) (s : State) := runInstr c .plain (mulW c rd ra rb uMul) s
def execDmul (c : Cid) (ra rb : RegNo) (s : State) :=
  runInstr c .plain (do
    regs c [ra, rb]
    fillLazy c
    landAll c
    let s ← get
    let n := s.digits c
    decOk c n (s.dv c ra)
    decOk c n (s.dv c rb)
    let p := decOf (2 * n) (decVal n (s.dv c ra) * decVal n (s.dv c rb))
    startP c (p / 2 ^ s.width c) (p % 2 ^ s.width c)
    finish c) s

/-- PH:PL as one number. -/
def State.phpl (s : State) (c : Cid) : Nat := (s.cx c).ph.toNat * 2 ^ s.width c + (s.cx c).pl.toNat

def execDprs (c : Cid) (rd : RegNo) (rm : RegNo) (aux : Byte) (s : State) :=
  runInstr c .plain (do
    countOk c aux (fun s => 2 * s.digits c)
    let m ← rmOf c rm
    regs c [rd]
    flagsFree c
    fillLazy c
    landAll c
    let s ← get
    let n := s.digits c
    decOk c (2 * n) (s.phpl c)
    let r := roundFn n (s.cx c).sr (decVal (2 * n) (s.phpl c)) aux.toNat m
    putD c rd r.1
    putDec c r.2.1 r.2.2
    finishDv c r.2.2) s
def execPsra (c : Cid) (rd : RegNo) (aux : Byte) (s : State) :=
  runInstr c .plain (do
    countOk c aux (fun s => 2 * s.width c - 1)
    regs c [rd]
    flagsFree c
    fillLazy c
    landAll c
    let s ← get
    let w := s.width c
    let n := aux.toNat
    let r := sint (2 * w) (s.phpl c) / (2 ^ n : Nat)
    let d := umod w r
    let cf := n != 0 && bitOf (s.phpl c) (n - 1)
    putD c rd d
    putSr c (setCVZN (s.cx c).sr cf (sint w d != r) (d == 0) (topBit w d))
    finish c) s

/-! ### Accumulators (R169, R170) -/

/-- MACB and MSBB: `neg` subtracts. -/
def macB (c : Cid) (xd ra rb : RegNo) (neg : Bool) : Act (Option Exc) := do
  let x ← xField c xd
  regs c [ra, rb]
  flagsFree c
  fillLazy c
  landAll c
  let s ← get
  let w := s.width c
  let xw := s.xWidth c
  let p := sMul w (s.dv c ra) (s.dv c rb)
  let t := sint xw (s.xv c x) + (if neg then -p else p)
  let r := umod xw t
  putX c x r
  putSr c (setBit (s.cx c).sr 1 (sint xw r != t))
  finish c

/-- MACD and MSBD. -/
def macD (c : Cid) (xd ra rb : RegNo) (neg : Bool) : Act (Option Exc) := do
  let x ← xField c xd
  regs c [ra, rb]
  fillLazy c
  landAll c
  let s ← get
  let n := s.digits c
  let xn := s.xDigits c
  decOk c xn (s.xv c x)
  decOk c n (s.dv c ra)
  decOk c n (s.dv c rb)
  let p := decVal n (s.dv c ra) * decVal n (s.dv c rb)
  let t := decVal xn (s.xv c x) + (if neg then -p else p)
  let dv := !decFits xn t
  putX c x (decOf xn t)
  putDec c (setBit (s.cx c).sr 5 dv) dv
  finishDv c dv

/-- An accumulator move that writes an X register from D[RA]. -/
def xWrite (c : Cid) (xd : RegNo) (ra : Option RegNo) (chk : Bool) (f : State → Nat → Nat → Nat) : Act (Option Exc) := do
  let x ← xField c xd
  regs c ra.toList
  fillLazy c
  let s ← get
  let a := match ra with | some r => s.dv c r | none => 0
  if chk then decOk c (s.digits c) a
  putX c x (f s (s.xv c x) a)
  finish c

def execMacb (c : Cid) (rd ra rb : RegNo) (s : State) := runInstr c .plain (macB c rd ra rb false) s
def execMsbb (c : Cid) (rd ra rb : RegNo) (s : State) := runInstr c .plain (macB c rd ra rb true) s
def execMacd (c : Cid) (rd ra rb : RegNo) (s : State) := runInstr c .plain (macD c rd ra rb false) s
def execMsbd (c : Cid) (rd ra rb : RegNo) (s : State) := runInstr c .plain (macD c rd ra rb true) s
def execXclr (c : Cid) (rd : RegNo) (s : State) := runInstr c .plain (xWrite c rd none false (fun _ _ _ => 0)) s
def execXldb (c : Cid) (rd ra : RegNo) (s : State) :=
  runInstr c .plain (xWrite c rd (some ra) false (fun s _ a => umod (s.xWidth c) (sint (s.width c) a))) s
def execXldd (c : Cid) (rd ra : RegNo) (s : State) :=
  runInstr c .plain (xWrite c rd (some ra) true (fun s _ a => decOf (s.xDigits c) (decVal (s.digits c) a))) s
def execXget (c : Cid) (rd ra : RegNo) (aux : Byte) (s : State) :=
  runInstr c .plain (do
    need c 1 (decide (aux.toNat ≤ 2))
    let x ← xField c ra
    regs c [rd]
    fillLazy c
    let s ← get
    putD c rd (bitsOf (s.xv c x) (s.width c * aux.toNat) (s.width c))
    finish c) s
def execXput (c : Cid) (rd ra : RegNo) (aux : Byte) (s : State) :=
  runInstr c .plain (do
    need c 1 (decide (aux.toNat ≤ 2))
    xWrite c rd (some ra) false (fun s v a =>
      let lo := s.width c * aux.toNat
      v - bitsOf v lo (s.width c) * 2 ^ lo + a % 2 ^ s.width c * 2 ^ lo)) s
def execXrd (c : Cid) (rd ra : RegNo) (rm : RegNo) (aux : Byte) (s : State) :=
  runInstr c .plain (do
    countOk c aux (fun s => s.xDigits c)
    let m ← rmOf c rm
    let x ← xField c ra
    regs c [rd]
    flagsFree c
    fillLazy c
    let s ← get
    let xn := s.xDigits c
    decOk c xn (s.xv c x)
    let r := roundFn (s.digits c) (s.cx c).sr (decVal xn (s.xv c x)) aux.toNat m
    putD c rd r.1
    putDec c r.2.1 r.2.2
    finishDv c r.2.2) s

/-! ### Division steps (R171–R173) -/

def execDstep (c : Cid) (ra : RegNo) (s : State) :=
  runInstr c .plain (do
    regs c [ra]
    flagsFree c
    fillLazy c
    landAll c
    let s ← get
    let w := s.width c
    let x := s.cx c
    let (h, l, cf, v) := stepBinary w x.ph.toNat x.pl.toNat (s.dv c ra)
    startP c h l
    putSr c (setBit (setBit x.sr 0 cf) 1 v)
    finish c) s
def execDdstep (c : Cid) (ra : RegNo) (s : State) :=
  runInstr c .plain (do
    regs c [ra]
    fillLazy c
    landAll c
    let s ← get
    let n := s.digits c
    let x := s.cx c
    decOk c n x.ph.toNat
    decOk c n x.pl.toNat
    decOk c n (s.dv c ra)
    let (h, l, dv) := stepDecimal n (bcdVal n x.ph.toNat) (bcdVal n x.pl.toNat) (bcdVal n (s.dv c ra))
    putP c (toBcd n h) (toBcd n l)
    putDec c (setBit x.sr 5 dv) dv
    finishDv c dv) s

/-- The oldest product in flight of a context lands in PH:PL (R165, R247). -/
def execLongOpLands (c : Cid) (s : State) : Host.Outcome State Fault Refusal :=
  .next (s.modCx c (fun x =>
    match x.prods with
    | [] => x
    | (h, l) :: r => { x with ph := h, pl := l, prods := r }))

end Sys2Proof.Machine
end

