-- ==== Sys2Proof/Machine/Control.lean ====
section
/-! DEFINITION. Branches, calls, returns and NOP: majors 0x10 to 0x16 and 0x1F (R123, R126, R127,
R139–R143, R89). -/

namespace Sys2Proof.Machine

/-- The BC conditions (R139). -/
def condHolds (sr : Word) (n : RegNo) : Bool :=
  match n.val with
  | 0 => true
  | 1 => srZ sr
  | 2 => !srZ sr
  | 3 => srN sr
  | 4 => !srN sr
  | 5 => srC sr
  | 6 => !srC sr
  | 7 => srV sr
  | 8 => !srV sr
  | 9 => srC sr && !srZ sr
  | 10 => !srC sr || srZ sr
  | 11 => srN sr == srV sr
  | 12 => srN sr != srV sr
  | 13 => !srZ sr && srN sr == srV sr
  | 14 => srZ sr || srN sr != srV sr
  | _ => srDV sr

/-- A branch by displacement, taken or not. -/
def branch (c : Cid) (taken : Bool) (disp : BitVec 24) : Act (Option Exc) := do
  let s ← get
  if taken then transfer c (codeTarget (s.cx c).pc disp.toInt) else finish c

def execBc (c : Cid) (cond : RegNo) (disp : BitVec 24) (s : State) :=
  runInstr c .noRep (do
    flagsFree c
    let s ← get
    branch c (condHolds (s.cx c).sr cond) disp) s

/-- The BD tests (R140): the outcome, and whether the test reads the register as decimal. -/
def bdTest (w n v : Nat) (cond : RegNo) : Option (Bool × Bool) :=
  match cond.val with
  | 0 => some (v == 0, false)
  | 1 => some (v != 0, false)
  | 2 => some (topBit w v, false)
  | 3 => some (!topBit w v, false)
  | 4 => some (decN n v, true)
  | 5 => some (!decN n v, true)
  | _ => none

def execBd (c : Cid) (cond ra : RegNo) (disp : BitVec 24) (s : State) :=
  runInstr c .noRep (do
    let s ← get
    match bdTest (s.width c) (s.digits c) (s.dv c ra) cond with
    | none => raise c 1
    | some (t, dec) =>
      regs c [ra]
      if dec then decOk c (s.digits c) (s.dv c ra)
      branch c t disp) s
def execBaz (c : Cid) (ra : RegNo) (disp : BitVec 24) (s : State) :=
  runInstr c .noRep (branch c (s.av c ra == 0) disp) s
def execBanz (c : Cid) (ra : RegNo) (disp : BitVec 24) (s : State) :=
  runInstr c .noRep (branch c (s.av c ra != 0) disp) s
def execDbnz (c : Cid) (ra : RegNo) (disp : BitVec 24) (s : State) :=
  runInstr c .noRep (do
    let v := s.av c ra - 1
    putA c ra v
    branch c (v != 0) disp) s

/-- A14, the link register (R86). -/
def linkReg : RegNo := 14

/-- A target from a register must be a valid code address (R70, R142). -/
def targetOk (t : Word) : Act Unit := if codeOk t then pure () else raiseAt 4 t

/-- The window step of a call (R89). -/
def windowIn (c : Cid) : Act Unit := do
  let s ← get
  let sr := (s.cx c).sr
  need c 12 (srWD sr != 4)
  putSr c (putF (putF sr 22 3 (srWD sr + 1)) 20 2 (srCWP sr + 1))

/-- The window step of a return (R89). -/
def windowOut (c : Cid) : Act Unit := do
  let s ← get
  let sr := (s.cx c).sr
  need c 12 (srWD sr != 0)
  putSr c (putF (putF sr 22 3 (srWD sr - 1)) 20 2 (srCWP sr + 3))

/-- Write the return address (R127) and transfer. -/
def linkTo (c : Cid) (t : Word) : Act (Option Exc) := do
  let s ← get
  putA c linkReg (codeNext (s.cx c).pc)
  transfer c t

/-- The target of a displacement from the instruction. -/
def State.dispTarget (s : State) (c : Cid) (disp : BitVec 24) : Word := codeTarget (s.cx c).pc disp.toInt

def execCall (c : Cid) (disp : BitVec 24) (s : State) := runInstr c .noRep (linkTo c (s.dispTarget c disp)) s
def execCallw (c : Cid) (disp : BitVec 24) (s : State) :=
  runInstr c .noRep (do
    windowIn c
    linkTo c (s.dispTarget c disp)) s
def execLac (c : Cid) (ra : RegNo) (disp : BitVec 24) (s : State) :=
  runInstr c .noRep (do
    putA c ra (s.dispTarget c disp)
    finish c) s
def execJmp (c : Cid) (ra : RegNo) (s : State) :=
  runInstr c .noRep (do
    targetOk (s.av c ra)
    transfer c (s.av c ra)) s
def execCallr (c : Cid) (ra : RegNo) (s : State) :=
  runInstr c .noRep (do
    targetOk (s.av c ra)
    linkTo c (s.av c ra)) s
def execCallwr (c : Cid) (ra : RegNo) (s : State) :=
  runInstr c .noRep (do
    targetOk (s.av c ra)
    windowIn c
    linkTo c (s.av c ra)) s
def execRet (c : Cid) (s : State) :=
  runInstr c .noRep (do
    targetOk (s.av c linkReg)
    transfer c (s.av c linkReg)) s
def execRetw (c : Cid) (s : State) :=
  runInstr c .noRep (do
    targetOk (s.av c linkReg)
    windowOut c
    transfer c (s.av c linkReg)) s
def execNop (c : Cid) (s : State) := runInstr c .plain (finish c) s

end Sys2Proof.Machine
end

