-- ==== Sys2Proof/Machine/Encoding.lean ====
section
/-! DEFINITION. The encoding of the instructions: the instruction that a word encodes, with its major and minor codes and the
bits that must be zero, and the word of each instruction (R118–R123, and the rule of each group). -/

namespace Sys2Proof.Machine

/-! ### The instruction of a word -/

/-- A field of a word, and a 4-bit register field (R119). -/
def part (w : Word) (lo len : Nat) : BitVec len := BitVec.ofNat len (w.toNat / 2 ^ lo)
def rg (w : Word) (lo : Nat) : RegNo := ⟨w.toNat / 2 ^ lo % 16, Nat.mod_lt _ (by decide)⟩

/-- An instruction whose listed fields, by lowest bit and width, must be zero (R120). -/
def zeros (w : Word) (fields : List (Nat × Nat)) (i : Instr) : Option Instr :=
  if fields.all (fun f => w.toNat / 2 ^ f.1 % 2 ^ f.2 == 0) then some i else none

/-- The major code, and the minor code in its 8-bit or 4-bit place (R118). -/
def majOf (w : Word) : Nat := w.toNat / 2 ^ 32
def min8 (w : Word) : Nat := w.toNat / 2 ^ 24 % 256
def min4 (w : Word) : Nat := w.toNat / 2 ^ 28 % 16

/-- The addressing mode of an M-format word (R131). -/
def modeOf (w : Word) : AMode :=
  match w.toNat / 2 ^ 22 % 4 with
  | 0 => .disp (part w 0 22)
  | 1 => .indexed (rg w 18) (part w 16 2) (part w 0 16)
  | 2 => .post (part w 0 22)
  | _ => .pre (part w 0 22)

/-- Loads and stores (R134). -/
def encMemory (c : Cid) (w : Word) : Option Instr :=
  let rt := rg w 28
  let ab := rg w 24
  let m := modeOf w
  match majOf w with
  | 0x20 => some (.ldb c rt ab m false)
  | 0x21 => some (.ldbs c rt ab m false)
  | 0x22 => some (.ldh c rt ab m false)
  | 0x23 => some (.ldhs c rt ab m false)
  | 0x24 => some (.ldt c rt ab m false)
  | 0x25 => some (.ldts c rt ab m false)
  | 0x26 => some (.ldw c rt ab m false)
  | 0x27 => some (.ldp c rt ab m false)
  | 0x28 => some (.ldwa c rt ab m false)
  | 0x29 => some (.lea c rt ab m)
  | 0x30 => some (.stb c rt ab m)
  | 0x31 => some (.sth c rt ab m)
  | 0x32 => some (.stt c rt ab m)
  | 0x33 => some (.stw c rt ab m)
  | 0x34 => some (.stp c rt ab m)
  | 0x35 => some (.stwa c rt ab m)
  | 0x36 => some (.casw c rt ab m)
  | 0x37 => some (.swpw c rt ab m)
  | _ => none

/-- Branches and calls by displacement, and NOP (R123, R139–R142). -/
def encBranch (c : Cid) (w : Word) : Option Instr :=
  let d := part w 0 24
  let ra := rg w 24
  match majOf w with
  | 0x10 => zeros w [(24, 4)] (.bc c (rg w 28) d)
  | 0x11 => if min4 w < 6 then some (.bd c (rg w 28) ra d) else none
  | 0x12 => match min4 w with
    | 0 => some (.baz c ra d)
    | 1 => some (.banz c ra d)
    | 2 => some (.dbnz c ra d)
    | _ => none
  | 0x13 => zeros w [(24, 8)] (.call c d)
  | 0x14 => zeros w [(24, 8)] (.callw c d)
  | 0x15 => zeros w [(28, 4)] (.lac c ra d)
  | 0x1F => zeros w [(0, 32)] (.nop c)
  | _ => none

/-- System, moves and address arithmetic (R136–R138, R142, R296, R340). -/
def encSystem (c : Cid) (w : Word) : Option Instr :=
  match majOf w with
  | 0x00 => match min8 w with
    | 0 => zeros w [(8, 16)] (.trap c (part w 0 8))
    | 1 => zeros w [(0, 24)] (.rte c)
    | 2 => zeros w [(8, 12)] (.mfs c (rg w 20) (part w 0 8))
    | 3 => zeros w [(8, 8), (20, 4)] (.mts c (rg w 16) (part w 0 8))
    | 4 => zeros w [(0, 24)] (.yield c)
    | _ => none
  | 0x01 => match min8 w with
    | 0 => zeros w [(0, 24)] (.sync c)
    | 1 => zeros w [(0, 24)] (.syncD c)
    | 2 => zeros w [(0, 24)] (.syncT c)
    | 3 => zeros w [(0, 24)] (.syncP c)
    | 4 => zeros w [(0, 24)] (.isync c)
    | _ => none
  | 0x16 => match min8 w with
    | 0 => zeros w [(0, 16), (20, 4)] (.jmp c (rg w 16))
    | 1 => zeros w [(0, 16), (20, 4)] (.callr c (rg w 16))
    | 2 => zeros w [(0, 16), (20, 4)] (.callwr c (rg w 16))
    | 3 => zeros w [(0, 24)] (.ret c)
    | 4 => zeros w [(0, 24)] (.retw c)
    | _ => none
  | 0x38 => match min8 w with
    | 0 => zeros w [(0, 16)] (.movd c (rg w 20) (rg w 16))
    | 1 => zeros w [(0, 16)] (.mova c (rg w 20) (rg w 16))
    | 2 => zeros w [(0, 16)] (.movda c (rg w 20) (rg w 16))
    | 3 => zeros w [(0, 16)] (.movad c (rg w 20) (rg w 16))
    | _ => none
  | 0x39 => match min4 w with
    | 0 => zeros w [(20, 4)] (.movi c (rg w 24) (part w 0 20))
    | 1 => zeros w [(20, 4)] (.movhi c (rg w 24) (part w 0 20))
    | 2 => zeros w [(20, 4)] (.movia c (rg w 24) (part w 0 20))
    | 3 => zeros w [(20, 4)] (.movhia c (rg w 24) (part w 0 20))
    | 4 => zeros w [(20, 4)] (.movh2 c (rg w 24) (part w 0 20))
    | 5 => zeros w [(20, 4)] (.movh3 c (rg w 24) (part w 0 20))
    | _ => none
  | 0x3A => match min8 w with
    | 0 => zeros w [(0, 12)] (.aadd c (rg w 20) (rg w 16) (rg w 12))
    | 1 => zeros w [(0, 12)] (.asub c (rg w 20) (rg w 16) (rg w 12))
    | 2 => zeros w [(8, 4)] (.asca c (rg w 20) (rg w 16) (rg w 12) (part w 0 8))
    | 3 => zeros w [(0, 12), (20, 4)] (.acmp c (rg w 16) (rg w 12))
    | 4 => zeros w [(8, 8)] (.ashl c (rg w 20) (rg w 16) (part w 0 8))
    | 5 => zeros w [(8, 8)] (.ashr c (rg w 20) (rg w 16) (part w 0 8))
    | _ => none
  | 0x3B => match min4 w with
    | 0 => zeros w [] (.aaddi c (rg w 24) (rg w 20) (part w 0 20))
    | 1 => zeros w [(24, 4)] (.acmpi c (rg w 20) (part w 0 20))
    | _ => none
  | _ => none

/-- Binary integer (R150–R153). -/
def encInteger (c : Cid) (w : Word) : Option Instr :=
  match majOf w with
  | 0x40 => match min8 w with
    | 0 => zeros w [(0, 12)] (.add c (rg w 20) (rg w 16) (rg w 12))
    | 1 => zeros w [(0, 12)] (.addc c (rg w 20) (rg w 16) (rg w 12))
    | 2 => zeros w [(0, 12)] (.sub c (rg w 20) (rg w 16) (rg w 12))
    | 3 => zeros w [(0, 12)] (.subc c (rg w 20) (rg w 16) (rg w 12))
    | 4 => zeros w [(0, 12), (20, 4)] (.cmp c (rg w 16) (rg w 12))
    | 5 => zeros w [(0, 16)] (.neg c (rg w 20) (rg w 16))
    | 6 => zeros w [(0, 12)] (.and c (rg w 20) (rg w 16) (rg w 12))
    | 7 => zeros w [(0, 12)] (.or c (rg w 20) (rg w 16) (rg w 12))
    | 8 => zeros w [(0, 12)] (.xor c (rg w 20) (rg w 16) (rg w 12))
    | 9 => zeros w [(0, 12)] (.andn c (rg w 20) (rg w 16) (rg w 12))
    | 10 => zeros w [(0, 12), (20, 4)] (.tst c (rg w 16) (rg w 12))
    | _ => none
  | 0x41 => match min4 w with
    | 0 => zeros w [] (.addi c (rg w 24) (rg w 20) (part w 0 20))
    | 1 => zeros w [(24, 4)] (.cmpi c (rg w 20) (part w 0 20))
    | 2 => zeros w [] (.andi c (rg w 24) (rg w 20) (part w 0 20))
    | 3 => zeros w [] (.ori c (rg w 24) (rg w 20) (part w 0 20))
    | 4 => zeros w [] (.xori c (rg w 24) (rg w 20) (part w 0 20))
    | 5 => zeros w [(24, 4)] (.tsti c (rg w 20) (part w 0 20))
    | _ => none
  | 0x42 => match min8 w with
    | 0 => zeros w [(8, 8)] (.shl c (rg w 20) (rg w 16) (.imm (part w 0 8)))
    | 1 => zeros w [(8, 8)] (.shr c (rg w 20) (rg w 16) (.imm (part w 0 8)))
    | 2 => zeros w [(8, 8)] (.sar c (rg w 20) (rg w 16) (.imm (part w 0 8)))
    | 3 => zeros w [(8, 8)] (.rol c (rg w 20) (rg w 16) (.imm (part w 0 8)))
    | 4 => zeros w [(8, 8)] (.ror c (rg w 20) (rg w 16) (.imm (part w 0 8)))
    | 8 => zeros w [(0, 12)] (.shl c (rg w 20) (rg w 16) (.reg (rg w 12)))
    | 9 => zeros w [(0, 12)] (.shr c (rg w 20) (rg w 16) (.reg (rg w 12)))
    | 10 => zeros w [(0, 12)] (.sar c (rg w 20) (rg w 16) (.reg (rg w 12)))
    | 11 => zeros w [(0, 12)] (.rol c (rg w 20) (rg w 16) (.reg (rg w 12)))
    | 12 => zeros w [(0, 12)] (.ror c (rg w 20) (rg w 16) (.reg (rg w 12)))
    | _ => none
  | 0x43 => match min8 w with
    | 0 => zeros w [(0, 16)] (.clz c (rg w 20) (rg w 16))
    | 1 => zeros w [(0, 16)] (.ctz c (rg w 20) (rg w 16))
    | 2 => zeros w [(0, 16)] (.popc c (rg w 20) (rg w 16))
    | 3 => zeros w [(8, 8)] (.sext c (rg w 20) (rg w 16) (part w 0 8))
    | 4 => zeros w [(8, 8)] (.zext c (rg w 20) (rg w 16) (part w 0 8))
    | _ => none
  | _ => none

/-- Decimal (R155–R161). -/
def encDecimal (c : Cid) (w : Word) : Option Instr :=
  match majOf w with
  | 0x60 => match min8 w with
    | 0 => zeros w [(1, 11)] (.dadd c (rg w 20) (rg w 16) (rg w 12) (w.getLsbD 0))
    | 1 => zeros w [(1, 11)] (.dadc c (rg w 20) (rg w 16) (rg w 12) (w.getLsbD 0))
    | 2 => zeros w [(1, 11)] (.dsub c (rg w 20) (rg w 16) (rg w 12) (w.getLsbD 0))
    | 3 => zeros w [(1, 11)] (.dsbc c (rg w 20) (rg w 16) (rg w 12) (w.getLsbD 0))
    | 4 => zeros w [(0, 12), (20, 4)] (.dcmp c (rg w 16) (rg w 12))
    | 5 => zeros w [(0, 16)] (.dneg c (rg w 20) (rg w 16))
    | 6 => zeros w [(0, 16)] (.dabs c (rg w 20) (rg w 16))
    | _ => none
  | 0x61 => match min4 w with
    | 0 => zeros w [] (.daddi c (rg w 24) (rg w 20) (part w 0 20))
    | 1 => zeros w [(24, 4)] (.dcmpi c (rg w 20) (part w 0 20))
    | _ => none
  | 0x62 => match min8 w with
    | 0 => zeros w [(8, 8)] (.dshl c (rg w 20) (rg w 16) (part w 0 8))
    | 1 => zeros w [(12, 4)] (.dshr c (rg w 20) (rg w 16) (rg w 8) (part w 0 8))
    | _ => none
  | 0x63 => match min8 w with
    | 0 => zeros w [(0, 16)] (.dtb c (rg w 20) (rg w 16))
    | 1 => zeros w [(0, 16)] (.btd c (rg w 20) (rg w 16))
    | 2 => zeros w [(0, 16), (20, 4)] (.dchk c (rg w 16))
    | _ => none
  | 0x64 => match min8 w with
    | 0 => zeros w [(8, 8)] (.ldpk c (rg w 20) (rg w 16) (part w 0 8) false)
    | 1 => zeros w [(8, 4), (20, 4)] (.stpk c (rg w 16) (rg w 12) (part w 0 8))
    | _ => none
  | _ => none

/-- Multiply, accumulators and step division (R164–R172). -/
def encMultiply (c : Cid) (w : Word) : Option Instr :=
  match majOf w with
  | 0x80 => match min8 w with
    | 0 => zeros w [(0, 12), (20, 4)] (.mul c (rg w 16) (rg w 12))
    | 1 => zeros w [(0, 12), (20, 4)] (.mulu c (rg w 16) (rg w 12))
    | 2 => zeros w [(0, 12)] (.mulw c (rg w 20) (rg w 16) (rg w 12))
    | 3 => zeros w [(0, 12)] (.mulwu c (rg w 20) (rg w 16) (rg w 12))
    | 4 => zeros w [(0, 12), (20, 4)] (.dmul c (rg w 16) (rg w 12))
    | _ => none
  | 0x81 => match min8 w with
    | 0 => zeros w [(12, 8)] (.dprs c (rg w 20) (rg w 8) (part w 0 8))
    | 1 => zeros w [(8, 12)] (.psra c (rg w 20) (part w 0 8))
    | _ => none
  | 0x82 => match min8 w with
    | 0 => zeros w [(0, 12)] (.macb c (rg w 20) (rg w 16) (rg w 12))
    | 1 => zeros w [(0, 12)] (.msbb c (rg w 20) (rg w 16) (rg w 12))
    | 2 => zeros w [(0, 12)] (.macd c (rg w 20) (rg w 16) (rg w 12))
    | 3 => zeros w [(0, 12)] (.msbd c (rg w 20) (rg w 16) (rg w 12))
    | 4 => zeros w [(0, 20)] (.xclr c (rg w 20))
    | 5 => zeros w [(0, 16)] (.xldb c (rg w 20) (rg w 16))
    | 6 => zeros w [(0, 16)] (.xldd c (rg w 20) (rg w 16))
    | 7 => zeros w [(8, 8)] (.xget c (rg w 20) (rg w 16) (part w 0 8))
    | 8 => zeros w [(8, 8)] (.xput c (rg w 20) (rg w 16) (part w 0 8))
    | 9 => zeros w [(12, 4)] (.xrd c (rg w 20) (rg w 16) (rg w 8) (part w 0 8))
    | _ => none
  | 0x83 => match min8 w with
    | 0 => zeros w [(0, 16), (20, 4)] (.dstep c (rg w 16))
    | 1 => zeros w [(0, 16), (20, 4)] (.ddstep c (rg w 16))
    | _ => none
  | _ => none

/-- Floating point (R178–R181). -/
def encFloat (c : Cid) (w : Word) : Option Instr :=
  match majOf w with
  | 0x90 => match min8 w with
    | 0 => zeros w [(0, 8)] (.fadd c (rg w 20) (rg w 16) (rg w 12) (rg w 8))
    | 1 => zeros w [(0, 8)] (.fsub c (rg w 20) (rg w 16) (rg w 12) (rg w 8))
    | 2 => zeros w [(0, 8)] (.fmul c (rg w 20) (rg w 16) (rg w 12) (rg w 8))
    | 3 => zeros w [(0, 8)] (.fdiv c (rg w 20) (rg w 16) (rg w 12) (rg w 8))
    | 4 => zeros w [(0, 8), (12, 4)] (.fsqrt c (rg w 20) (rg w 16) (rg w 8))
    | 5 => zeros w [(0, 16)] (.fneg c (rg w 20) (rg w 16))
    | 6 => zeros w [(0, 16)] (.fabs c (rg w 20) (rg w 16))
    | 7 => zeros w [(0, 12), (20, 4)] (.fcmp c (rg w 16) (rg w 12))
    | 8 => zeros w [(0, 12), (20, 4)] (.fcmps c (rg w 16) (rg w 12))
    | _ => none
  | 0x91 => match min8 w with
    | 0 => zeros w [(0, 8), (12, 4)] (.ftoi c (rg w 20) (rg w 16) (rg w 8))
    | 1 => zeros w [(0, 8), (12, 4)] (.itof c (rg w 20) (rg w 16) (rg w 8))
    | _ => none
  | 0x92 => match min8 w with
    | 0 => zeros w [(0, 8)] (.dfadd c (rg w 20) (rg w 16) (rg w 12) (rg w 8))
    | 1 => zeros w [(0, 8)] (.dfsub c (rg w 20) (rg w 16) (rg w 12) (rg w 8))
    | 2 => zeros w [(0, 8)] (.dfmul c (rg w 20) (rg w 16) (rg w 12) (rg w 8))
    | 3 => zeros w [(0, 8)] (.dfdiv c (rg w 20) (rg w 16) (rg w 12) (rg w 8))
    | 4 => zeros w [(0, 8), (12, 4)] (.dfsqrt c (rg w 20) (rg w 16) (rg w 8))
    | 5 => zeros w [(0, 16)] (.dfneg c (rg w 20) (rg w 16))
    | 6 => zeros w [(0, 16)] (.dfabs c (rg w 20) (rg w 16))
    | 7 => zeros w [(0, 12), (20, 4)] (.dfcmp c (rg w 16) (rg w 12))
    | 8 => zeros w [(0, 12), (20, 4)] (.dfcmps c (rg w 16) (rg w 12))
    | 9 => zeros w [(0, 8)] (.dfqua c (rg w 20) (rg w 16) (rg w 12) (rg w 8))
    | _ => none
  | 0x93 => match min8 w with
    | 0 => zeros w [(12, 4)] (.dftod c (rg w 20) (rg w 16) (rg w 8) (part w 0 8))
    | 1 => zeros w [(8, 8)] (.ddtf c (rg w 20) (rg w 16) (part w 0 8))
    | _ => none
  | _ => none

/-- Strings and editing (R198). -/
def encString (c : Cid) (w : Word) : Option Instr :=
  match majOf w with
  | 0xA0 => match min8 w with
    | 0 => zeros w [(0, 12)] (.mvs c (rg w 20) (rg w 16) (rg w 12))
    | 1 => zeros w [(0, 4)] (.mvsp c (rg w 20) (rg w 16) (rg w 12) (rg w 8) (rg w 4))
    | 2 => zeros w [(0, 12)] (.cms c (rg w 20) (rg w 16) (rg w 12))
    | 3 => zeros w [(0, 8)] (.trs c (rg w 20) (rg w 16) (rg w 12) (rg w 8))
    | 4 => zeros w [(0, 8)] (.scn c (rg w 20) (rg w 16) (rg w 12) (rg w 8))
    | _ => none
  | 0xA1 => match min8 w with
    | 0 => zeros w [(0, 8)] (.edt c (rg w 20) (rg w 16) (rg w 12) (rg w 8))
    | 1 => zeros w [] (.edm c (rg w 20) (rg w 16) (rg w 12) (rg w 8) (rg w 4) (rg w 0))
    | _ => none
  | 0xA2 => match min8 w with
    | 0 => zeros w [(0, 12)] (.pkz c (rg w 20) (rg w 16) (rg w 12) false)
    | 1 => zeros w [(0, 12)] (.upk c (rg w 20) (rg w 16) (rg w 12) false)
    | 2 => zeros w [(0, 12)] (.cvbd c (rg w 20) (rg w 16) (rg w 12))
    | 3 => zeros w [(0, 12)] (.cvdb c (rg w 20) (rg w 16) (rg w 12) false)
    | _ => none
  | 0xA3 => match min8 w with
    | 0 => zeros w [(0, 8)] (.dads c (rg w 20) (rg w 16) (rg w 12) (rg w 8) false)
    | 1 => zeros w [(0, 8)] (.dsbs c (rg w 20) (rg w 16) (rg w 12) (rg w 8) false)
    | 2 => zeros w [(0, 8)] (.dcps c (rg w 20) (rg w 16) (rg w 12) (rg w 8) false)
    | 3 => zeros w [(0, 8)] (.dzms c (rg w 20) (rg w 16) (rg w 12) (rg w 8) false)
    | 4 => zeros w [(0, 12)] (.dshs c (rg w 20) (rg w 16) (rg w 12) false)
    | 5 => zeros w [] (.dmls c (rg w 20) (rg w 16) (rg w 12) (rg w 8) (rg w 4) (rg w 0))
    | _ => none
  | _ => none

/-- Loops and repeats (R224). -/
def encLoop (c : Cid) (w : Word) : Option Instr :=
  let imm := w.getLsbD 23
  let cnt : CountSrc := if imm then .imm (part w 0 12) else .reg (rg w 24)
  let rest := if imm then (24, 4) else (0, 12)
  if majOf w != 0xC0 then none
  else match min4 w with
    | 0 => zeros w [rest] (.loop c cnt (part w 12 11))
    | 1 => zeros w [rest, (12, 11)] (.rep c cnt)
    | 2 => zeros w [(0, 28)] (.lpop c)
    | _ => none

/-- Tally and queue (R354, R410). -/
def encEngine (c : Cid) (w : Word) : Option Instr :=
  match majOf w with
  | 0xD0 => match min8 w with
    | 0 => zeros w [(1, 7), (20, 4)] (.post c (rg w 16) (rg w 12) (rg w 8) (w.getLsbD 0))
    | 1 => zeros w [(1, 7)] (.postT c (rg w 20) (rg w 16) (rg w 12) (rg w 8) (w.getLsbD 0))
    | 2 => zeros w [(1, 7), (20, 4)] (.postW c (rg w 16) (rg w 12) (rg w 8) (w.getLsbD 0))
    | 3 => zeros w [(1, 7)] (.postWt c (rg w 20) (rg w 16) (rg w 12) (rg w 8) (w.getLsbD 0))
    | 4 => zeros w [(5, 3)] (.postl c (rg w 20) (rg w 16) (rg w 12) (rg w 8) (rg w 0) (w.getLsbD 4))
    | _ => none
  | 0xD1 => match min8 w with
    | 0 => zeros w [(1, 11)] (.pread c (rg w 12) (rg w 20) (rg w 16) (w.getLsbD 0))
    | 1 => zeros w [(0, 12)] (.preadc c (rg w 12) (rg w 20) (rg w 16))
    | 2 => zeros w [(0, 16), (20, 4)] (.waitt c (rg w 16))
    | 3 => zeros w [(0, 24)] (.waitta c)
    | 4 => zeros w [(0, 16)] (.tkrd c (rg w 20) (rg w 16))
    | _ => none
  | 0xD2 => match min8 w with
    | 0 => zeros w [(1, 7)] (.pset c (rg w 20) (rg w 16) (rg w 12) (rg w 8) (w.getLsbD 0))
    | 1 => zeros w [(0, 20)] (.pcut c (rg w 20))
    | 2 => zeros w [(0, 20)] (.prel c (rg w 20))
    | _ => none
  | 0xD3 => match min8 w with
    | 0 => zeros w [(0, 12)] (.enq c (rg w 20) (rg w 16) (rg w 12))
    | 1 => zeros w [(0, 12)] (.deq c (rg w 20) (rg w 16) (rg w 12))
    | 2 => zeros w [(0, 20)] (.waitq c (rg w 20))
    | 3 => zeros w [(0, 16)] (.qcnt c (rg w 20) (rg w 16))
    | _ => none
  | _ => none

/-- Context, translation and key (R296, R311, R326, R333). -/
def encContext (c : Cid) (w : Word) : Option Instr :=
  match majOf w with
  | 0xE0 => match min8 w with
    | 0 => zeros w [(0, 16), (20, 4)] (.svctxL c (rg w 16))
    | 1 => zeros w [(0, 16), (20, 4)] (.svctxU c (rg w 16))
    | 2 => zeros w [(0, 16), (20, 4)] (.rsctxL c (rg w 16))
    | 3 => zeros w [(0, 16), (20, 4)] (.rsctxU c (rg w 16))
    | 4 => zeros w [(0, 24)] (.setrole c)
    | _ => none
  | 0xE1 => match min8 w with
    | 0 => zeros w [(0, 12), (20, 4)] (.tlbiVa c (rg w 16) (rg w 12))
    | 1 => zeros w [(0, 12), (16, 8)] (.tlbiS c (rg w 12))
    | 2 => zeros w [(0, 24)] (.tlbiAll c)
    | 3 => zeros w [(0, 12), (20, 4)] (.walkiVa c (rg w 16) (rg w 12))
    | 4 => zeros w [(0, 12), (16, 8)] (.walkiS c (rg w 12))
    | 5 => zeros w [(0, 24)] (.walkiAll c)
    | _ => none
  | 0xE2 => match min8 w with
    | 0 => zeros w [(8, 8), (20, 4)] (.mtbtr c (rg w 16) (part w 0 8))
    | 1 => zeros w [(8, 12)] (.mfbtr c (rg w 20) (part w 0 8))
    | _ => none
  | 0xE3 => match min8 w with
    | 0 => zeros w [(0, 16), (20, 4)] (.setkr c (rg w 16))
    | 1 => zeros w [(8, 4), (20, 4)] (.setfk c (rg w 16) (rg w 12) (part w 0 8))
    | 2 => zeros w [(0, 16)] (.getfk c (rg w 20) (rg w 16))
    | 3 => zeros w [(8, 8)] (.clrfr c (rg w 20) (rg w 16) (part w 0 8))
    | _ => none
  | _ => none

/-- The instruction that a word encodes for a context; none where a major or minor code is not assigned, or a bit that must
be zero is set (R120–R123). A word says nothing of cache misses. -/
def decodeWord (c : Cid) (w : Word) : Option Instr :=
  let m := majOf w
  if m = 0x1F ∨ (0x10 ≤ m ∧ m < 0x16) then encBranch c w
  else if m < 0x20 ∨ (0x38 ≤ m ∧ m < 0x40) then encSystem c w
  else if m < 0x38 then encMemory c w
  else if m < 0x60 then encInteger c w
  else if m < 0x80 then encDecimal c w
  else if m < 0x90 then encMultiply c w
  else if m < 0xA0 then encFloat c w
  else if m < 0xC0 then encString c w
  else if m < 0xD0 then encLoop c w
  else if m < 0xE0 then encEngine c w
  else encContext c w

/-! ### The word of an instruction -/

/-- A field in its place. -/
def at_ (v lo : Nat) : Nat := v * 2 ^ lo

/-- A word from its fixed bits and its fields in place. -/
def ofParts (fixed : Nat) (parts : List Nat) : Option Word := some (BitVec.ofNat 40 (fixed + parts.sum))

/-- The fields of an addressing mode (R131). -/
def modePart : AMode → Nat
  | .disp d => d.toNat
  | .indexed ax sc d => 2 ^ 22 + at_ ax.val 18 + at_ sc.toNat 16 + d.toNat
  | .post d => 2 * 2 ^ 22 + d.toNat
  | .pre d => 3 * 2 ^ 22 + d.toNat

/-- An M-format word. -/
def ofMem (maj : Nat) (rt ab : RegNo) (m : AMode) : Option Word :=
  ofParts (maj * 2 ^ 32) [at_ rt.val 28, at_ ab.val 24, modePart m]

/-- The count fields of LOOP and REP (R224). -/
def countPart : CountSrc → Nat
  | .imm n => 2 ^ 23 + n.toNat
  | .reg rs => at_ rs.val 24

/-- The word of an instruction; none for a command that is no instruction. -/
def wordOf : Instr → Option Word
  | .trap _ aux => ofParts 0x0000000000 [aux.toNat]
  | .rte _ => ofParts 0x0001000000 []
  | .mfs _ rd aux => ofParts 0x0002000000 [at_ rd.val 20, aux.toNat]
  | .mts _ ra aux => ofParts 0x0003000000 [at_ ra.val 16, aux.toNat]
  | .yield _ => ofParts 0x0004000000 []
  | .sync _ => ofParts 0x0100000000 []
  | .syncD _ => ofParts 0x0101000000 []
  | .syncT _ => ofParts 0x0102000000 []
  | .syncP _ => ofParts 0x0103000000 []
  | .isync _ => ofParts 0x0104000000 []
  | .jmp _ ra => ofParts 0x1600000000 [at_ ra.val 16]
  | .callr _ ra => ofParts 0x1601000000 [at_ ra.val 16]
  | .callwr _ ra => ofParts 0x1602000000 [at_ ra.val 16]
  | .ret _ => ofParts 0x1603000000 []
  | .retw _ => ofParts 0x1604000000 []
  | .movd _ rd ra => ofParts 0x3800000000 [at_ rd.val 20, at_ ra.val 16]
  | .mova _ rd ra => ofParts 0x3801000000 [at_ rd.val 20, at_ ra.val 16]
  | .movda _ rd ra => ofParts 0x3802000000 [at_ rd.val 20, at_ ra.val 16]
  | .movad _ rd ra => ofParts 0x3803000000 [at_ rd.val 20, at_ ra.val 16]
  | .movi _ rd imm => ofParts 0x3900000000 [at_ rd.val 24, imm.toNat]
  | .movhi _ rd imm => ofParts 0x3910000000 [at_ rd.val 24, imm.toNat]
  | .movia _ rd imm => ofParts 0x3920000000 [at_ rd.val 24, imm.toNat]
  | .movhia _ rd imm => ofParts 0x3930000000 [at_ rd.val 24, imm.toNat]
  | .movh2 _ rd imm => ofParts 0x3940000000 [at_ rd.val 24, imm.toNat]
  | .movh3 _ rd imm => ofParts 0x3950000000 [at_ rd.val 24, imm.toNat]
  | .aadd _ rd ra rb => ofParts 0x3A00000000 [at_ rd.val 20, at_ ra.val 16, at_ rb.val 12]
  | .asub _ rd ra rb => ofParts 0x3A01000000 [at_ rd.val 20, at_ ra.val 16, at_ rb.val 12]
  | .asca _ rd ra rb aux => ofParts 0x3A02000000 [at_ rd.val 20, at_ ra.val 16, at_ rb.val 12, aux.toNat]
  | .acmp _ ra rb => ofParts 0x3A03000000 [at_ ra.val 16, at_ rb.val 12]
  | .ashl _ rd ra aux => ofParts 0x3A04000000 [at_ rd.val 20, at_ ra.val 16, aux.toNat]
  | .ashr _ rd ra aux => ofParts 0x3A05000000 [at_ rd.val 20, at_ ra.val 16, aux.toNat]
  | .aaddi _ rd ra imm => ofParts 0x3B00000000 [at_ rd.val 24, at_ ra.val 20, imm.toNat]
  | .acmpi _ ra imm => ofParts 0x3B10000000 [at_ ra.val 20, imm.toNat]
  | .add _ rd ra rb => ofParts 0x4000000000 [at_ rd.val 20, at_ ra.val 16, at_ rb.val 12]
  | .addc _ rd ra rb => ofParts 0x4001000000 [at_ rd.val 20, at_ ra.val 16, at_ rb.val 12]
  | .sub _ rd ra rb => ofParts 0x4002000000 [at_ rd.val 20, at_ ra.val 16, at_ rb.val 12]
  | .subc _ rd ra rb => ofParts 0x4003000000 [at_ rd.val 20, at_ ra.val 16, at_ rb.val 12]
  | .cmp _ ra rb => ofParts 0x4004000000 [at_ ra.val 16, at_ rb.val 12]
  | .neg _ rd ra => ofParts 0x4005000000 [at_ rd.val 20, at_ ra.val 16]
  | .and _ rd ra rb => ofParts 0x4006000000 [at_ rd.val 20, at_ ra.val 16, at_ rb.val 12]
  | .or _ rd ra rb => ofParts 0x4007000000 [at_ rd.val 20, at_ ra.val 16, at_ rb.val 12]
  | .xor _ rd ra rb => ofParts 0x4008000000 [at_ rd.val 20, at_ ra.val 16, at_ rb.val 12]
  | .andn _ rd ra rb => ofParts 0x4009000000 [at_ rd.val 20, at_ ra.val 16, at_ rb.val 12]
  | .tst _ ra rb => ofParts 0x400A000000 [at_ ra.val 16, at_ rb.val 12]
  | .addi _ rd ra imm => ofParts 0x4100000000 [at_ rd.val 24, at_ ra.val 20, imm.toNat]
  | .cmpi _ ra imm => ofParts 0x4110000000 [at_ ra.val 20, imm.toNat]
  | .andi _ rd ra imm => ofParts 0x4120000000 [at_ rd.val 24, at_ ra.val 20, imm.toNat]
  | .ori _ rd ra imm => ofParts 0x4130000000 [at_ rd.val 24, at_ ra.val 20, imm.toNat]
  | .xori _ rd ra imm => ofParts 0x4140000000 [at_ rd.val 24, at_ ra.val 20, imm.toNat]
  | .tsti _ ra imm => ofParts 0x4150000000 [at_ ra.val 20, imm.toNat]
  | .shl _ rd ra (.imm n) => ofParts 0x4200000000 [at_ rd.val 20, at_ ra.val 16, n.toNat]
  | .shr _ rd ra (.imm n) => ofParts 0x4201000000 [at_ rd.val 20, at_ ra.val 16, n.toNat]
  | .sar _ rd ra (.imm n) => ofParts 0x4202000000 [at_ rd.val 20, at_ ra.val 16, n.toNat]
  | .rol _ rd ra (.imm n) => ofParts 0x4203000000 [at_ rd.val 20, at_ ra.val 16, n.toNat]
  | .ror _ rd ra (.imm n) => ofParts 0x4204000000 [at_ rd.val 20, at_ ra.val 16, n.toNat]
  | .shl _ rd ra (.reg n) => ofParts 0x4208000000 [at_ rd.val 20, at_ ra.val 16, at_ n.val 12]
  | .shr _ rd ra (.reg n) => ofParts 0x4209000000 [at_ rd.val 20, at_ ra.val 16, at_ n.val 12]
  | .sar _ rd ra (.reg n) => ofParts 0x420A000000 [at_ rd.val 20, at_ ra.val 16, at_ n.val 12]
  | .rol _ rd ra (.reg n) => ofParts 0x420B000000 [at_ rd.val 20, at_ ra.val 16, at_ n.val 12]
  | .ror _ rd ra (.reg n) => ofParts 0x420C000000 [at_ rd.val 20, at_ ra.val 16, at_ n.val 12]
  | .clz _ rd ra => ofParts 0x4300000000 [at_ rd.val 20, at_ ra.val 16]
  | .ctz _ rd ra => ofParts 0x4301000000 [at_ rd.val 20, at_ ra.val 16]
  | .popc _ rd ra => ofParts 0x4302000000 [at_ rd.val 20, at_ ra.val 16]
  | .sext _ rd ra aux => ofParts 0x4303000000 [at_ rd.val 20, at_ ra.val 16, aux.toNat]
  | .zext _ rd ra aux => ofParts 0x4304000000 [at_ rd.val 20, at_ ra.val 16, aux.toNat]
  | .dadd _ rd ra rb b => ofParts 0x6000000000 [at_ rd.val 20, at_ ra.val 16, at_ rb.val 12, b2n b]
  | .dadc _ rd ra rb b => ofParts 0x6001000000 [at_ rd.val 20, at_ ra.val 16, at_ rb.val 12, b2n b]
  | .dsub _ rd ra rb b => ofParts 0x6002000000 [at_ rd.val 20, at_ ra.val 16, at_ rb.val 12, b2n b]
  | .dsbc _ rd ra rb b => ofParts 0x6003000000 [at_ rd.val 20, at_ ra.val 16, at_ rb.val 12, b2n b]
  | .dcmp _ ra rb => ofParts 0x6004000000 [at_ ra.val 16, at_ rb.val 12]
  | .dneg _ rd ra => ofParts 0x6005000000 [at_ rd.val 20, at_ ra.val 16]
  | .dabs _ rd ra => ofParts 0x6006000000 [at_ rd.val 20, at_ ra.val 16]
  | .daddi _ rd ra imm => ofParts 0x6100000000 [at_ rd.val 24, at_ ra.val 20, imm.toNat]
  | .dcmpi _ ra imm => ofParts 0x6110000000 [at_ ra.val 20, imm.toNat]
  | .dshl _ rd ra aux => ofParts 0x6200000000 [at_ rd.val 20, at_ ra.val 16, aux.toNat]
  | .dshr _ rd ra rm aux => ofParts 0x6201000000 [at_ rd.val 20, at_ ra.val 16, at_ rm.val 8, aux.toNat]
  | .dtb _ rd ra => ofParts 0x6300000000 [at_ rd.val 20, at_ ra.val 16]
  | .btd _ rd ra => ofParts 0x6301000000 [at_ rd.val 20, at_ ra.val 16]
  | .dchk _ ra => ofParts 0x6302000000 [at_ ra.val 16]
  | .ldpk _ rd ra aux _ => ofParts 0x6400000000 [at_ rd.val 20, at_ ra.val 16, aux.toNat]
  | .stpk _ ra rb aux => ofParts 0x6401000000 [at_ ra.val 16, at_ rb.val 12, aux.toNat]
  | .mul _ ra rb => ofParts 0x8000000000 [at_ ra.val 16, at_ rb.val 12]
  | .mulu _ ra rb => ofParts 0x8001000000 [at_ ra.val 16, at_ rb.val 12]
  | .mulw _ rd ra rb => ofParts 0x8002000000 [at_ rd.val 20, at_ ra.val 16, at_ rb.val 12]
  | .mulwu _ rd ra rb => ofParts 0x8003000000 [at_ rd.val 20, at_ ra.val 16, at_ rb.val 12]
  | .dmul _ ra rb => ofParts 0x8004000000 [at_ ra.val 16, at_ rb.val 12]
  | .dprs _ rd rm aux => ofParts 0x8100000000 [at_ rd.val 20, at_ rm.val 8, aux.toNat]
  | .psra _ rd aux => ofParts 0x8101000000 [at_ rd.val 20, aux.toNat]
  | .macb _ rd ra rb => ofParts 0x8200000000 [at_ rd.val 20, at_ ra.val 16, at_ rb.val 12]
  | .msbb _ rd ra rb => ofParts 0x8201000000 [at_ rd.val 20, at_ ra.val 16, at_ rb.val 12]
  | .macd _ rd ra rb => ofParts 0x8202000000 [at_ rd.val 20, at_ ra.val 16, at_ rb.val 12]
  | .msbd _ rd ra rb => ofParts 0x8203000000 [at_ rd.val 20, at_ ra.val 16, at_ rb.val 12]
  | .xclr _ rd => ofParts 0x8204000000 [at_ rd.val 20]
  | .xldb _ rd ra => ofParts 0x8205000000 [at_ rd.val 20, at_ ra.val 16]
  | .xldd _ rd ra => ofParts 0x8206000000 [at_ rd.val 20, at_ ra.val 16]
  | .xget _ rd ra aux => ofParts 0x8207000000 [at_ rd.val 20, at_ ra.val 16, aux.toNat]
  | .xput _ rd ra aux => ofParts 0x8208000000 [at_ rd.val 20, at_ ra.val 16, aux.toNat]
  | .xrd _ rd ra rm aux => ofParts 0x8209000000 [at_ rd.val 20, at_ ra.val 16, at_ rm.val 8, aux.toNat]
  | .dstep _ ra => ofParts 0x8300000000 [at_ ra.val 16]
  | .ddstep _ ra => ofParts 0x8301000000 [at_ ra.val 16]
  | .fadd _ rd ra rb rm => ofParts 0x9000000000 [at_ rd.val 20, at_ ra.val 16, at_ rb.val 12, at_ rm.val 8]
  | .fsub _ rd ra rb rm => ofParts 0x9001000000 [at_ rd.val 20, at_ ra.val 16, at_ rb.val 12, at_ rm.val 8]
  | .fmul _ rd ra rb rm => ofParts 0x9002000000 [at_ rd.val 20, at_ ra.val 16, at_ rb.val 12, at_ rm.val 8]
  | .fdiv _ rd ra rb rm => ofParts 0x9003000000 [at_ rd.val 20, at_ ra.val 16, at_ rb.val 12, at_ rm.val 8]
  | .fsqrt _ rd ra rm => ofParts 0x9004000000 [at_ rd.val 20, at_ ra.val 16, at_ rm.val 8]
  | .fneg _ rd ra => ofParts 0x9005000000 [at_ rd.val 20, at_ ra.val 16]
  | .fabs _ rd ra => ofParts 0x9006000000 [at_ rd.val 20, at_ ra.val 16]
  | .fcmp _ ra rb => ofParts 0x9007000000 [at_ ra.val 16, at_ rb.val 12]
  | .fcmps _ ra rb => ofParts 0x9008000000 [at_ ra.val 16, at_ rb.val 12]
  | .ftoi _ rd ra rm => ofParts 0x9100000000 [at_ rd.val 20, at_ ra.val 16, at_ rm.val 8]
  | .itof _ rd ra rm => ofParts 0x9101000000 [at_ rd.val 20, at_ ra.val 16, at_ rm.val 8]
  | .dfadd _ rd ra rb rm => ofParts 0x9200000000 [at_ rd.val 20, at_ ra.val 16, at_ rb.val 12, at_ rm.val 8]
  | .dfsub _ rd ra rb rm => ofParts 0x9201000000 [at_ rd.val 20, at_ ra.val 16, at_ rb.val 12, at_ rm.val 8]
  | .dfmul _ rd ra rb rm => ofParts 0x9202000000 [at_ rd.val 20, at_ ra.val 16, at_ rb.val 12, at_ rm.val 8]
  | .dfdiv _ rd ra rb rm => ofParts 0x9203000000 [at_ rd.val 20, at_ ra.val 16, at_ rb.val 12, at_ rm.val 8]
  | .dfsqrt _ rd ra rm => ofParts 0x9204000000 [at_ rd.val 20, at_ ra.val 16, at_ rm.val 8]
  | .dfneg _ rd ra => ofParts 0x9205000000 [at_ rd.val 20, at_ ra.val 16]
  | .dfabs _ rd ra => ofParts 0x9206000000 [at_ rd.val 20, at_ ra.val 16]
  | .dfcmp _ ra rb => ofParts 0x9207000000 [at_ ra.val 16, at_ rb.val 12]
  | .dfcmps _ ra rb => ofParts 0x9208000000 [at_ ra.val 16, at_ rb.val 12]
  | .dfqua _ rd ra rb rm => ofParts 0x9209000000 [at_ rd.val 20, at_ ra.val 16, at_ rb.val 12, at_ rm.val 8]
  | .dftod _ rd ra rm aux => ofParts 0x9300000000 [at_ rd.val 20, at_ ra.val 16, at_ rm.val 8, aux.toNat]
  | .ddtf _ rd ra aux => ofParts 0x9301000000 [at_ rd.val 20, at_ ra.val 16, aux.toNat]
  | .mvs _ r1 r2 r3 => ofParts 0xA000000000 [at_ r1.val 20, at_ r2.val 16, at_ r3.val 12]
  | .mvsp _ r1 r2 r3 r4 r5 => ofParts 0xA001000000 [at_ r1.val 20, at_ r2.val 16, at_ r3.val 12, at_ r4.val 8, at_ r5.val 4]
  | .cms _ r1 r2 r3 => ofParts 0xA002000000 [at_ r1.val 20, at_ r2.val 16, at_ r3.val 12]
  | .trs _ r1 r2 r3 r4 => ofParts 0xA003000000 [at_ r1.val 20, at_ r2.val 16, at_ r3.val 12, at_ r4.val 8]
  | .scn _ r1 r2 r3 r4 => ofParts 0xA004000000 [at_ r1.val 20, at_ r2.val 16, at_ r3.val 12, at_ r4.val 8]
  | .edt _ r1 r2 r3 r4 => ofParts 0xA100000000 [at_ r1.val 20, at_ r2.val 16, at_ r3.val 12, at_ r4.val 8]
  | .edm _ r1 r2 r3 r4 r5 r6 => ofParts 0xA101000000 [at_ r1.val 20, at_ r2.val 16, at_ r3.val 12, at_ r4.val 8, at_ r5.val 4, r6.val]
  | .pkz _ r1 r2 r3 _ => ofParts 0xA200000000 [at_ r1.val 20, at_ r2.val 16, at_ r3.val 12]
  | .upk _ r1 r2 r3 _ => ofParts 0xA201000000 [at_ r1.val 20, at_ r2.val 16, at_ r3.val 12]
  | .cvbd _ r1 r2 r3 => ofParts 0xA202000000 [at_ r1.val 20, at_ r2.val 16, at_ r3.val 12]
  | .cvdb _ r1 r2 r3 _ => ofParts 0xA203000000 [at_ r1.val 20, at_ r2.val 16, at_ r3.val 12]
  | .dads _ r1 r2 r3 r4 _ => ofParts 0xA300000000 [at_ r1.val 20, at_ r2.val 16, at_ r3.val 12, at_ r4.val 8]
  | .dsbs _ r1 r2 r3 r4 _ => ofParts 0xA301000000 [at_ r1.val 20, at_ r2.val 16, at_ r3.val 12, at_ r4.val 8]
  | .dcps _ r1 r2 r3 r4 _ => ofParts 0xA302000000 [at_ r1.val 20, at_ r2.val 16, at_ r3.val 12, at_ r4.val 8]
  | .dzms _ r1 r2 r3 r4 _ => ofParts 0xA303000000 [at_ r1.val 20, at_ r2.val 16, at_ r3.val 12, at_ r4.val 8]
  | .dshs _ r1 r2 r3 _ => ofParts 0xA304000000 [at_ r1.val 20, at_ r2.val 16, at_ r3.val 12]
  | .dmls _ r1 r2 r3 r4 r5 r6 => ofParts 0xA305000000 [at_ r1.val 20, at_ r2.val 16, at_ r3.val 12, at_ r4.val 8, at_ r5.val 4, r6.val]
  | .post _ ra rb rc b => ofParts 0xD000000000 [at_ ra.val 16, at_ rb.val 12, at_ rc.val 8, b2n b]
  | .postT _ rd ra rb rc b => ofParts 0xD001000000 [at_ rd.val 20, at_ ra.val 16, at_ rb.val 12, at_ rc.val 8, b2n b]
  | .postW _ ra rb rc b => ofParts 0xD002000000 [at_ ra.val 16, at_ rb.val 12, at_ rc.val 8, b2n b]
  | .postWt _ rd ra rb rc b => ofParts 0xD003000000 [at_ rd.val 20, at_ ra.val 16, at_ rb.val 12, at_ rc.val 8, b2n b]
  | .postl _ rd ra rb rc rf b => ofParts 0xD004000000 [at_ rd.val 20, at_ ra.val 16, at_ rb.val 12, at_ rc.val 8, rf.val, at_ (b2n b) 4]
  | .pread _ rb rd ra b => ofParts 0xD100000000 [at_ rb.val 12, at_ rd.val 20, at_ ra.val 16, b2n b]
  | .preadc _ rb rd ra => ofParts 0xD101000000 [at_ rb.val 12, at_ rd.val 20, at_ ra.val 16]
  | .waitt _ ra => ofParts 0xD102000000 [at_ ra.val 16]
  | .waitta _ => ofParts 0xD103000000 []
  | .tkrd _ rd ra => ofParts 0xD104000000 [at_ rd.val 20, at_ ra.val 16]
  | .pset _ rd ra rb rc b => ofParts 0xD200000000 [at_ rd.val 20, at_ ra.val 16, at_ rb.val 12, at_ rc.val 8, b2n b]
  | .pcut _ rd => ofParts 0xD201000000 [at_ rd.val 20]
  | .prel _ rd => ofParts 0xD202000000 [at_ rd.val 20]
  | .enq _ rd ra rb => ofParts 0xD300000000 [at_ rd.val 20, at_ ra.val 16, at_ rb.val 12]
  | .deq _ rd ra rb => ofParts 0xD301000000 [at_ rd.val 20, at_ ra.val 16, at_ rb.val 12]
  | .waitq _ rd => ofParts 0xD302000000 [at_ rd.val 20]
  | .qcnt _ rd ra => ofParts 0xD303000000 [at_ rd.val 20, at_ ra.val 16]
  | .svctxL _ ra => ofParts 0xE000000000 [at_ ra.val 16]
  | .svctxU _ ra => ofParts 0xE001000000 [at_ ra.val 16]
  | .rsctxL _ ra => ofParts 0xE002000000 [at_ ra.val 16]
  | .rsctxU _ ra => ofParts 0xE003000000 [at_ ra.val 16]
  | .setrole _ => ofParts 0xE004000000 []
  | .tlbiVa _ ra rb => ofParts 0xE100000000 [at_ ra.val 16, at_ rb.val 12]
  | .tlbiS _ rb => ofParts 0xE101000000 [at_ rb.val 12]
  | .tlbiAll _ => ofParts 0xE102000000 []
  | .walkiVa _ ra rb => ofParts 0xE103000000 [at_ ra.val 16, at_ rb.val 12]
  | .walkiS _ rb => ofParts 0xE104000000 [at_ rb.val 12]
  | .walkiAll _ => ofParts 0xE105000000 []
  | .mtbtr _ ra aux => ofParts 0xE200000000 [at_ ra.val 16, aux.toNat]
  | .mfbtr _ rd aux => ofParts 0xE201000000 [at_ rd.val 20, aux.toNat]
  | .setkr _ ra => ofParts 0xE300000000 [at_ ra.val 16]
  | .setfk _ ra rb aux => ofParts 0xE301000000 [at_ ra.val 16, at_ rb.val 12, aux.toNat]
  | .getfk _ rd ra => ofParts 0xE302000000 [at_ rd.val 20, at_ ra.val 16]
  | .clrfr _ rd ra aux => ofParts 0xE303000000 [at_ rd.val 20, at_ ra.val 16, aux.toNat]
  | .ldb _ rt ab m _ => ofMem 0x20 rt ab m
  | .ldbs _ rt ab m _ => ofMem 0x21 rt ab m
  | .ldh _ rt ab m _ => ofMem 0x22 rt ab m
  | .ldhs _ rt ab m _ => ofMem 0x23 rt ab m
  | .ldt _ rt ab m _ => ofMem 0x24 rt ab m
  | .ldts _ rt ab m _ => ofMem 0x25 rt ab m
  | .ldw _ rt ab m _ => ofMem 0x26 rt ab m
  | .ldp _ rt ab m _ => ofMem 0x27 rt ab m
  | .ldwa _ rt ab m _ => ofMem 0x28 rt ab m
  | .lea _ rt ab m => ofMem 0x29 rt ab m
  | .stb _ rt ab m => ofMem 0x30 rt ab m
  | .sth _ rt ab m => ofMem 0x31 rt ab m
  | .stt _ rt ab m => ofMem 0x32 rt ab m
  | .stw _ rt ab m => ofMem 0x33 rt ab m
  | .stp _ rt ab m => ofMem 0x34 rt ab m
  | .stwa _ rt ab m => ofMem 0x35 rt ab m
  | .casw _ rt ab m => ofMem 0x36 rt ab m
  | .swpw _ rt ab m => ofMem 0x37 rt ab m
  | .bc _ cond d => ofParts 0x1000000000 [at_ cond.val 28, d.toNat]
  | .bd _ cond ra d => ofParts 0x1100000000 [at_ cond.val 28, at_ ra.val 24, d.toNat]
  | .baz _ ra d => ofParts 0x1200000000 [at_ ra.val 24, d.toNat]
  | .banz _ ra d => ofParts 0x1210000000 [at_ ra.val 24, d.toNat]
  | .dbnz _ ra d => ofParts 0x1220000000 [at_ ra.val 24, d.toNat]
  | .call _ d => ofParts 0x1300000000 [d.toNat]
  | .callw _ d => ofParts 0x1400000000 [d.toNat]
  | .lac _ ra d => ofParts 0x1500000000 [at_ ra.val 24, d.toNat]
  | .nop _ => ofParts 0x1F00000000 []
  | .loop _ n span => ofParts 0xC000000000 [countPart n, at_ span.toNat 12]
  | .rep _ n => ofParts 0xC010000000 [countPart n]
  | .lpop _ => ofParts 0xC020000000 []
  | .registerWrite .. => none
  | .hostAccess .. => none
  | .pgIntStatusClear .. => none
  | .expertSet .. => none
  | .pgLockWrite .. => none
  | .expertGrantWrite .. => none
  | .grantExpiry .. => none
  | .blockReset .. => none
  | .blockRestartDone .. => none
  | .longOpLands .. => none
  | .stringUnit .. => none
  | .fetchLineArrival .. => none
  | .contextSwitch .. => none
  | .dataLineArrival .. => none
  | .storeBufferDrain .. => none
  | .hwPrefetch .. => none
  | .exceptionEntry .. => none
  | .haltMessageEnqueue .. => none
  | .sourceAssert .. => none
  | .interruptEntry .. => none
  | .ctxStart .. => none
  | .ctxHalt .. => none
  | .haltTakesEffect .. => none
  | .roleInc .. => none
  | .irtWrite .. => none
  | .swi .. => none
  | .conjEntry .. => none
  | .conjJoin .. => none
  | .conjExit .. => none
  | .conjSeparate .. => none
  | .invalidationApplied .. => none
  | .ticketWaitReady .. => none
  | .grantCycle .. => none
  | .bankApply .. => none
  | .cutReady .. => none
  | .prelSweepEnd .. => none
  | .tallyEnable .. => none
  | .stampingDone .. => none
  | .coldClearDone .. => none
  | .psnNextSeed .. => none
  | .replayStart .. => none
  | .replayRecord .. => none
  | .replayFinish .. => none
  | .tktFlush .. => none
  | .tallyScrub .. => none
  | .eccInject .. => none
  | .remoteReadTimeout .. => none
  | .waitqWake .. => none
  | .orphanNoticeSend .. => none
  | .qcfgWrite .. => none
  | .qbaseWrite .. => none
  | .qbindWrite .. => none
  | .discard .. => none
  | .tailDoorbell .. => none
  | .headDoorbell .. => none
  | .qmgGrantCycle .. => none
  | .ageStep .. => none
  | .journalTake .. => none
  | .closeTimer .. => none
  | .close .. => none
  | .pageProgramDone .. => none
  | .journalSignatureDone .. => none
  | .recoveryScan .. => none
  | .scanComplete .. => none
  | .accept .. => none
  | .roll .. => none
  | .rolloverEnd .. => none
  | .stripeErase .. => none
  | .eraseDone .. => none
  | .readStart .. => none
  | .readBatch .. => none
  | .archivedWrite .. => none
  | .presenceDebounced .. => none
  | .cartridgeIdentify .. => none
  | .identify .. => none
  | .powerOff .. => none
  | .wipeOk .. => none
  | .collectorPeriod .. => none
  | .zero .. => none
  | .tare .. => none
  | .tareClr .. => none
  | .tarePreset .. => none
  | .snap .. => none
  | .cmdWaitExpiry .. => none
  | .arm .. => none
  | .cancel .. => none
  | .checkTimeout .. => none
  | .chEnable .. => none
  | .clkCfgWrite .. => none
  | .sealOpen .. => none
  | .sealClose .. => none
  | .sealWindowExpiry .. => none
  | .sealLineDeassert .. => none
  | .commit .. => none
  | .sealDiscard .. => none
  | .calZero .. => none
  | .calSpan .. => none
  | .sealedRegisterWrite .. => none
  | .filterAdjust .. => none
  | .iirKWrite .. => none
  | .claim .. => none
  | .release .. => none
  | .bindEnable .. => none
  | .rxMessage .. => none
  | .itoExpiry .. => none
  | .messageDeliver .. => none
  | .txElement .. => none
  | .txqEnable .. => none
  | .profileValid .. => none
  | .areaValid .. => none
  | .portReset .. => none
  | .portResetDone .. => none
  | .pipeEnable .. => none
  | .usbPoll .. => none
  | .controlRequest .. => none
  | .usbDisconnect .. => none
  | .usbConnect .. => none
  | .uartBreak .. => none
  | .canRxFrame .. => none
  | .canTxFrame .. => none
  | .busOffRecovery .. => none
  | .gpCondition .. => none
  | .gpWrite .. => none
  | .bankSupplyFault .. => none
  | .go .. => none
  | .timerWrap .. => none
  | .timerCapture .. => none
  | .ethRxFrame .. => none
  | .pauseRx .. => none
  | .ethTx .. => none
  | .txreport .. => none
  | .ethLinkChange .. => none
  | .tbSnap .. => none
  | .step .. => none
  | .set .. => none
  | .pcieLinkChange .. => none
  | .hostBar2Access .. => none
  | .inboundMsi .. => none
  | .outboundAccess .. => none
  | .outboundFail .. => none
  | .xctrlEnable .. => none
  | .retrain .. => none
  | .ixlTrainStep .. => none
  | .ixlRecovery .. => none
  | .ixlDownWait .. => none
  | .ixlPacketRx .. => none
  | .ack .. => none
  | .nak .. => none
  | .credit .. => none
  | .postFwd .. => none
  | .postDone .. => none
  | .qmsg .. => none
  | .qmsgSend .. => none
  | .cutAt .. => none
  | .cutInstant .. => none
  | .cutReport .. => none
  | .cutRelease .. => none
  | .gcutStart .. => none
  | .gcutRelease .. => none
  | .gcutDeadline .. => none
  | .jsnReq .. => none
  | .jsnGrant .. => none
  | .jsnGrantTimeout .. => none
  | .heartbeat .. => none
  | .heartbeatPeriod .. => none
  | .deviceNotLive .. => none
  | .routeTable .. => none
  | .send .. => none
  | .memRd .. => none
  | .memRsp .. => none
  | .memWr .. => none
  | .memRdTimeout .. => none
  | .timeSync .. => none
  | .handover .. => none
  | .handoverGo .. => none
  | .wdogKick .. => none
  | .wdogExpiry .. => none
  | .revoke .. => none
  | .jobGo .. => none
  | .sha256 .. => none
  | .hmac .. => none
  | .gcmEnc .. => none
  | .gcmDec .. => none
  | .ctr .. => none
  | .cbcEnc .. => none
  | .cbcDec .. => none
  | .sign .. => none
  | .verify .. => none
  | .ecdh .. => none
  | .generate .. => none
  | .publicKey .. => none
  | .unwrap .. => none
  | .random .. => none
  | .erase .. => none
  | .loadpub .. => none
  | .jobEnd .. => none
  | .rngTestFail .. => none
  | .restart .. => none
  | .rngReady .. => none
  | .recorderEvent .. => none
  | .recorderWrite .. => none
  | .swEvent .. => none
  | .rdSlotWrite .. => none
  | .clearGo .. => none
  | .clearVerified .. => none
  | .clearEraseEnd .. => none
  | .modeWrite .. => none
  | .apply .. => none
  | .powerSample .. => none
  | .voltageConfirmed .. => none
  | .pmbAlert .. => none
  | .correctedError .. => none
  | .coreUncorrectable .. => none
  | .substitution .. => none
  | .substitutionRetry .. => none
  | .cometStep .. => none
  | .run .. => none
  | .retest .. => none
  | .selfTestDone .. => none
  | .patrolScrub .. => none
  | .confirm .. => none
  | .decline .. => none
  | .retire .. => none
  | .retireGraceExpiry .. => none
  | .listClear .. => none
  | .wearProjection .. => none
  | .updStart .. => none
  | .abort .. => none
  | .updTimeoutExpiry .. => none
  | .porst .. => none
  | .pllLock .. => none
  | .bootVerify .. => none
  | .configTableApply .. => none
  | .ddrTrainDone .. => none
  | .bootFlashRecheck .. => none
  | .pcieBootTimeout .. => none
  | .wrst .. => none
  | .warm .. => none
  | .warmResetResume .. => none
  | .refclkLoss .. => none
  | .lockRegain .. => none
  | .holdoverExpiry .. => none
  | .pdSwitch .. => none
  | .pdOnDone .. => none
  | .codeStoreWrite .. => none
  | .codeStoreWriteDone .. => none
  | .codeStoreCommit .. => none
  | .codeStoreCommitDone .. => none
  | .pfailEdge .. => none
  | .lastGaspEnd .. => none
  | .eclipseN .. => none
  | .freeze .. => none
  | .partialFreeze .. => none
  | .thaw .. => none
  | .partialFreezeDone .. => none
  | .skip .. => none
  | .tapReset .. => none
  | .extest .. => none
  | .idcode .. => none
  | .samplePreload .. => none
  | .dumpPtr .. => none
  | .dump .. => none
  | .tapFreeze .. => none
  | .tapThaw .. => none
  | .dbgreg .. => none
  | .bypass .. => none
  | .pdumpDataRead .. => none
  | .traceRecord .. => none
  | .traceEnable .. => none
  | .pfailNHigh .. => none
  | .serialReferenceChange .. => none
  | .pauseQuantaExpiry .. => none
  | .ctsChange .. => none
  | .inboundMemoryRequest .. => none
  | .pmbAlertNRelease .. => none

/-- The instruction that an encoded word spells, with no data line missed: whether it misses is no bit of its
word. -/
def asHit : Instr → Instr
  | .ldb c rt ab m _ => .ldb c rt ab m false
  | .ldbs c rt ab m _ => .ldbs c rt ab m false
  | .ldh c rt ab m _ => .ldh c rt ab m false
  | .ldhs c rt ab m _ => .ldhs c rt ab m false
  | .ldt c rt ab m _ => .ldt c rt ab m false
  | .ldts c rt ab m _ => .ldts c rt ab m false
  | .ldw c rt ab m _ => .ldw c rt ab m false
  | .ldp c rt ab m _ => .ldp c rt ab m false
  | .ldwa c rt ab m _ => .ldwa c rt ab m false
  | .ldpk c rd ra n _ => .ldpk c rd ra n false
  | .pkz c r1 r2 r3 _ => .pkz c r1 r2 r3 false
  | .upk c r1 r2 r3 _ => .upk c r1 r2 r3 false
  | .cvdb c r1 r2 r3 _ => .cvdb c r1 r2 r3 false
  | .dads c r1 r2 r3 r4 _ => .dads c r1 r2 r3 r4 false
  | .dsbs c r1 r2 r3 r4 _ => .dsbs c r1 r2 r3 r4 false
  | .dcps c r1 r2 r3 r4 _ => .dcps c r1 r2 r3 r4 false
  | .dzms c r1 r2 r3 r4 _ => .dzms c r1 r2 r3 r4 false
  | .dshs c r1 r2 r3 _ => .dshs c r1 r2 r3 false
  | i => i

end Sys2Proof.Machine
end

