-- ==== Sys2Proof/Machine/Fetch.lean ====
section
/-! DEFINITION. The arrival of a code line at a context that waits for it (R67–R70, R124, R125, R237–R239, R266). -/

namespace Sys2Proof.Machine

/-- A slot's instruction word in a line, and the line's trailer (R67, R68). -/
def slotBits (line : List Byte) (i : Nat) : Word := BitVec.ofNat 40 (leVal ((line.drop (5 * i)).take 5))
def trailerOf (line : List Byte) : Nat := leVal ((line.drop 60).take 4)

/-- A line enters the core's line buffer of three entries, in fetch order; the oldest leaves (R237). -/
def CoreSt.takeLine (k : CoreSt) (e : LineEntry) : CoreSt :=
  let l := k.lines.filter (fun (x : LineEntry) => x.addr != e.addr)
  { k with lines := (if 3 ≤ l.length then l.drop (l.length - 2) else l) ++ [e] }

/-- The entry of a line that a context may still execute from (R260): the line it executes and the next two that it enters. -/
def CoreSt.lineOf (k : CoreSt) (addr entered : Nat) : Option LineEntry :=
  k.lines.find? (fun (x : LineEntry) => x.addr == addr && decide (entered ≤ x.seen + 2))

/-- The fetch unit fills the next two lines of sequential flow ahead of execution (R237); a line that cannot be fetched is passed
over and nothing about it is recorded (R239). The branch target buffer's predictions are not modelled. DEDUCED, log 99. -/
def State.fetchAhead (s : State) (c : Cid) (base : Nat) : State :=
  [1, 2].foldl (fun (s : State) i =>
    let va := (base + 64 * i) % 2 ^ 40
    match (checkHalf c (srPL (s.cx c).sr) (BitVec.ofNat 40 va) va 64 .fetch false false .plain) s with
    | .ok (p, _) =>
      let k := s.core_ (coreIdx c)
      match k.lineOf p.pa (s.cx c).linesIn with
      | some e => s.setCore (coreIdx c) (k.takeLine e)
      | none =>
        if s.ueAt p.pa 64 then s
        else s.setCore (coreIdx c) (k.takeLine { addr := p.pa, data := s.bytes p.pa 64, seen := (s.cx c).linesIn })
    | .error (_, _) => s) s

/-- A fault of a slot that is about to execute: on a vector line that an exception entered, the context halts with reason 4
(R266). -/
def State.codeFault (s : State) (c : Cid) (e : Exc) (fetch : Bool) : State :=
  let s1 := match e.frame with | some f => s.frameBad f 2 | none => s
  if fetch && (s1.cx c).onVector then s1.haltCtx c 4 e.vec e.cause e.fault else s1.takeException c (s1.cx c).pc e

/-- The line of the context's PC arrives: orders 1 to 3 of R124 for the slot about to execute, in the version that the line buffer
holds while the context may still execute it (R260, R261), and the next lines are fetched ahead. -/
def State.lineArrives (s : State) (c : Cid) : State :=
  let pc := (s.cx c).pc
  let base := pc.toNat / 64 * 64
  let r : Act (List Piece) := do
    let ps ← checkAcc c (srPL (s.cx c).sr) pc base 64 .fetch .plain
    consume pc .fetch ps false
    pure ps
  match r s with
  | .error (.exc e, t) => (s.checked t c).codeFault c e true
  | .error (_, _) => s
  | .ok (ps, s1) =>
    let k := coreIdx c
    let pa := (ps.map (fun p => p.pa)).headD 0
    let e := ((s1.core_ k).lineOf pa (s.cx c).linesIn).getD { addr := pa, data := pieceBytes s1 ps, seen := (s.cx c).linesIn }
    let line := e.data
    let s2 := (s1.setCore k ((s1.core_ k).takeLine e)).fetchAhead c base
    if trailerOf line / 2 ^ 11 != 0 then
      s2.codeFault c { vec := 4, fault := BitVec.ofNat 40 base, info := 0, synd := 0, hits := [] } true
    else if (decodeWord c (slotBits line (pc.toNat % 16))).isSome then s2
    else s2.codeFault c { vec := 1, fault := pc, info := 0, synd := 0, hits := [] } false

/-- FETCH_LINE_ARRIVAL (R238). DEDUCED, log 23. -/
def execFetchLineArrival (c : Cid) (s : State) : Host.Outcome State Fault Refusal := .next (if s.canIssue c then s.lineArrives c else s)

end Sys2Proof.Machine
end

