-- ==== Sys2Proof/Machine/FloatOps.lean ====
section
/-! DEFINITION. The floating-point instructions: majors 0x90 to 0x93 (R178–R191). -/

namespace Sys2Proof.Machine

/-- The rounding direction that RC selects (R182). With a reserved SR.FRM the spec gives no direction: it is one of the five, open
each time. DESIGN CHOICE, log 109. -/
def dirOf (c : Cid) (rm : RegNo) : Act Nat := do
  let s ← get
  match frmSel rm.val (srFRM (s.cx c).sr) with
  | some d => if d < 5 then pure d else return (← drawOne) % 5
  | none => raise c 1

/-- The FSR bits of an operation's flags: binary32 from bit 0, decimal64 from bit 5 (R101). -/
def FFlags.fsr (f : FFlags) (dec : Bool) : BitVec 11 :=
  BitVec.ofNat 11 ((b2n f.iv + 2 * b2n f.dz + 4 * b2n f.ov + 8 * b2n f.uf + 16 * b2n f.nx) * (if dec then 32 else 1))

/-! ### binary32 (R179, R180) -/

/-- A binary32 operation of two registers that rounds. -/
def fOp2 (c : Cid) (rd ra rb rm : RegNo) (f : Nat → FDatum → FDatum → Nat × FFlags) : Act (Option Exc) := do
  let d ← dirOf c rm
  regs c [rd, ra, rb]
  let s ← get
  let r := f d (b32Dec (s.dv c ra)) (b32Dec (s.dv c rb))
  putD c rd r.1
  orFsr c (r.2.fsr false)
  finish c

/-- A binary32 result of one register. -/
def fOp1 (c : Cid) (rd ra : RegNo) (f : Nat → Nat × FFlags) : Act (Option Exc) := do
  regs c [rd, ra]
  let s ← get
  let r := f (s.dv c ra)
  putD c rd r.1
  orFsr c (r.2.fsr false)
  finish c

/-- A compare (R187). -/
def fCmp (c : Cid) (dec sig : Bool) (a b : FDatum) : Act (Option Exc) := do
  flagsFree c
  let s ← get
  putSr c (flagsFcmp (s.cx c).sr (fCompare (if dec then 10 else 2) a b))
  orFsr c (FFlags.fsr { FFlags.none with iv := fcmpInvalid sig a b } dec)
  finish c

/-- A binary32 compare. -/
def fCmp32 (c : Cid) (ra rb : RegNo) (sig : Bool) : Act (Option Exc) := do
  regs c [ra, rb]
  let s ← get
  fCmp c false sig (b32Dec (s.dv c ra)) (b32Dec (s.dv c rb))

def execFadd (c : Cid) (rd ra rb rm : RegNo) (s : State) := runInstr c .plain (fOp2 c rd ra rb rm b32Add) s
def execFsub (c : Cid) (rd ra rb rm : RegNo) (s : State) :=
  runInstr c .plain (fOp2 c rd ra rb rm (fun d a b => b32Add d a (fNegate b))) s
def execFmul (c : Cid) (rd ra rb rm : RegNo) (s : State) := runInstr c .plain (fOp2 c rd ra rb rm b32Mul) s
def execFdiv (c : Cid) (rd ra rb rm : RegNo) (s : State) := runInstr c .plain (fOp2 c rd ra rb rm b32Div) s
def execFsqrt (c : Cid) (rd ra rm : RegNo) (s : State) :=
  runInstr c .plain (do
    let d ← dirOf c rm
    fOp1 c rd ra (fun a => b32Sqrt d (b32Dec a))) s
def execFneg (c : Cid) (rd ra : RegNo) (s : State) :=
  runInstr c .plain (fOp1 c rd ra (fun a => ((a % 2 ^ 32) ^^^ 0x80000000, .none))) s
def execFabs (c : Cid) (rd ra : RegNo) (s : State) :=
  runInstr c .plain (fOp1 c rd ra (fun a => (a % 2 ^ 31, .none))) s
def execFcmp (c : Cid) (ra rb : RegNo) (s : State) := runInstr c .plain (fCmp32 c ra rb false) s
def execFcmps (c : Cid) (ra rb : RegNo) (s : State) := runInstr c .plain (fCmp32 c ra rb true) s
def execFtoi (c : Cid) (rd ra rm : RegNo) (s : State) :=
  runInstr c .plain (do
    let d ← dirOf c rm
    fOp1 c rd ra (fun a => b32ToInt (s.width c) d (b32Dec a))) s
def execItof (c : Cid) (rd ra rm : RegNo) (s : State) :=
  runInstr c .plain (do
    let d ← dirOf c rm
    fOp1 c rd ra (fun a => b32OfInt (s.width c) d a)) s

/-! ### decimal64 (R181) -/

/-- An operation of the decimal multiplier waits for a product in flight (R191). -/
def dfMul (c : Cid) (go : Act (Option Exc)) : Act (Option Exc) := do
  landAll c
  go

/-- A decimal64 operation of two pairs that rounds. -/
def dfOp2 (c : Cid) (rd ra rb rm : RegNo) (f : Nat → FDatum → FDatum → Nat × FFlags) : Act (Option Exc) := do
  let d ← dirOf c rm
  pairOk c [rd, ra, rb]
  let s ← get
  let r := f d (d64Dec (s.pv c ra)) (d64Dec (s.pv c rb))
  putPair c rd r.1
  orFsr c (r.2.fsr true)
  finish c

/-- A decimal64 result of one pair. -/
def dfOp1 (c : Cid) (rd ra : RegNo) (f : FDatum → Nat × FFlags) : Act (Option Exc) := do
  pairOk c [rd, ra]
  let s ← get
  let r := f (d64Dec (s.pv c ra))
  putPair c rd r.1
  orFsr c (r.2.fsr true)
  finish c

/-- A datum with its sign changed by `g`, canonical; a NaN keeps its payload and kind (R185). -/
def d64Sign (g : Bool → Bool) : FDatum → Nat
  | .nan s n p => d64Nan s (g n) p
  | .inf n => d64Inf (g n)
  | .fin n m e => d64Bits (g n) m e

/-- A decimal64 compare. -/
def dfCmp (c : Cid) (ra rb : RegNo) (sig : Bool) : Act (Option Exc) := do
  pairOk c [ra, rb]
  let s ← get
  fCmp c true sig (d64Dec (s.pv c ra)) (d64Dec (s.pv c rb))

def execDfadd (c : Cid) (rd ra rb rm : RegNo) (s : State) := runInstr c .plain (dfOp2 c rd ra rb rm d64Add) s
def execDfsub (c : Cid) (rd ra rb rm : RegNo) (s : State) :=
  runInstr c .plain (dfOp2 c rd ra rb rm (fun d a b => d64Add d a (fNegate b))) s
def execDfmul (c : Cid) (rd ra rb rm : RegNo) (s : State) := runInstr c .plain (dfMul c (dfOp2 c rd ra rb rm d64Mul)) s
/-- DFDIV. The exponent of the zero that a finite value divided by infinity gives is open (R186). DESIGN CHOICE, log 109. -/
def execDfdiv (c : Cid) (rd ra rb rm : RegNo) (s : State) :=
  runInstr c .plain (dfMul c (do
    let n ← drawOne
    dfOp2 c rd ra rb rm (d64Div ((n % 768 : Nat) - 398)))) s
def execDfqua (c : Cid) (rd ra rb rm : RegNo) (s : State) := runInstr c .plain (dfOp2 c rd ra rb rm d64Quantize) s
def execDfsqrt (c : Cid) (rd ra rm : RegNo) (s : State) :=
  runInstr c .plain (do
    landAll c
    let d ← dirOf c rm
    dfOp1 c rd ra (d64Sqrt d)) s
def execDfneg (c : Cid) (rd ra : RegNo) (s : State) :=
  runInstr c .plain (dfOp1 c rd ra (fun a => (d64Sign not a, .none))) s
def execDfabs (c : Cid) (rd ra : RegNo) (s : State) :=
  runInstr c .plain (dfOp1 c rd ra (fun a => (d64Sign (fun _ => false) a, .none))) s
def execDfcmp (c : Cid) (ra rb : RegNo) (s : State) := runInstr c .plain (dfCmp c ra rb false) s
def execDfcmps (c : Cid) (ra rb : RegNo) (s : State) := runInstr c .plain (dfCmp c ra rb true) s

/-- The exponent count of a conversion: 0 to 20. -/
def expCount (c : Cid) (aux : Byte) : Act Unit := need c 1 (decide (aux.toNat ≤ 20))

def execDftod (c : Cid) (rd ra rm : RegNo) (aux : Byte) (s : State) :=
  runInstr c .plain (do
    expCount c aux
    let d ← dirOf c rm
    pairOk c [ra]
    regs c [rd]
    let s ← get
    let r := d64ToDec (s.digits c) d aux.toNat (d64Dec (s.pv c ra))
    putD c rd r.1
    orFsr c (r.2.fsr true)
    finish c) s

/-- DDTF: exact where 16 digits and trailing zeros hold the value (R189); in Conjunction another value has no stated result, which
is a free one, canonical (R65). DESIGN CHOICE, log 14. -/
def execDdtf (c : Cid) (rd ra : RegNo) (aux : Byte) (s : State) :=
  runInstr c .plain (do
    expCount c aux
    pairOk c [rd]
    regs c [ra]
    let s ← get
    let n := s.digits c
    decOk c n (s.dv c ra)
    match d64OfDec (decVal n (s.dv c ra)) aux.toNat with
    | some r => putPair c rd r
    | none =>
      putPair c rd (d64Enc (d64Dec ((Config.freeDWord s.free).toNat % 2 ^ 64)))
      modify (fun s => { s with free := s.free + 1 })
    finish c) s

end Sys2Proof.Machine
end

