-- ==== Sys2Proof/Machine/LoadStore.lean ====
section
/-! DEFINITION. Loads, stores, atomics, moves, constants and address arithmetic: majors 0x20 to 0x3B
(R131–R138). -/

namespace Sys2Proof.Machine

/-! ### Loads (R134) -/

/-- A load into a D register: `f` gives the register's value from W and the bytes' value. -/
def loadD (c : Cid) (rt ab : RegNo) (m : AMode) (n : Nat) (word miss : Bool) (f : Nat → Nat → Nat) : Act (Option Exc) := do
  regs c [rt]
  let s ← get
  let (ea, u) := s.effAddr c ab m
  let bs ← load c ea n word miss
  putD c rt (f (s.width c) (leVal bs))
  baseUpdate c ab u
  finish c

/-- Zero-extension. -/
def zeroExt (_ v : Nat) : Nat := v

def execLdb (c : Cid) (rt ab : RegNo) (m : AMode) (miss : Bool) (s : State) := runInstr c .plain (loadD c rt ab m 1 false miss zeroExt) s
def execLdbs (c : Cid) (rt ab : RegNo) (m : AMode) (miss : Bool) (s : State) := runInstr c .plain (loadD c rt ab m 1 false miss (sext 8)) s
def execLdh (c : Cid) (rt ab : RegNo) (m : AMode) (miss : Bool) (s : State) := runInstr c .plain (loadD c rt ab m 2 false miss zeroExt) s
def execLdhs (c : Cid) (rt ab : RegNo) (m : AMode) (miss : Bool) (s : State) := runInstr c .plain (loadD c rt ab m 2 false miss (sext 16)) s
def execLdt (c : Cid) (rt ab : RegNo) (m : AMode) (miss : Bool) (s : State) := runInstr c .plain (loadD c rt ab m 4 false miss zeroExt) s
def execLdts (c : Cid) (rt ab : RegNo) (m : AMode) (miss : Bool) (s : State) := runInstr c .plain (loadD c rt ab m 4 false miss (sext 32)) s
def execLdw (c : Cid) (rt ab : RegNo) (m : AMode) (miss : Bool) (s : State) :=
  runInstr c .plain (loadD c rt ab m (s.width c / 8) true miss zeroExt) s
def execLdp (c : Cid) (rt ab : RegNo) (m : AMode) (miss : Bool) (s : State) :=
  runInstr c .plain (do
    pairOk c [rt]
    let s ← get
    let (ea, u) := s.effAddr c ab m
    let bs ← load c ea 8 false miss
    putPair c rt (leVal bs)
    baseUpdate c ab u
    finish c) s
def execLdwa (c : Cid) (rt ab : RegNo) (m : AMode) (miss : Bool) (s : State) :=
  runInstr c .plain (do
    need c 1 (!(modeUpdates m && rt == ab))
    let s ← get
    let (ea, u) := s.effAddr c ab m
    let bs ← load c ea 5 true miss
    putA c rt (BitVec.ofNat 40 (leVal bs))
    baseUpdate c ab u
    finish c) s
def execLea (c : Cid) (rt ab : RegNo) (m : AMode) (s : State) :=
  runInstr c .plain (do
    need c 1 (!modeUpdates m)
    let s ← get
    putA c rt (s.effAddr c ab m).1
    finish c) s

/-! ### Stores (R134) -/

/-- A store of `n` bytes of a value read before the base update (R132). -/
def storeV (c : Cid) (ab : RegNo) (m : AMode) (n : Nat) (word : Bool) (v : Nat) : Act (Option Exc) := do
  let s ← get
  let (ea, u) := s.effAddr c ab m
  store c ea (leBytes n v) word
  baseUpdate c ab u
  finish c

/-- A store from a D register. -/
def storeD (c : Cid) (rt ab : RegNo) (m : AMode) (n : Nat) (word : Bool) : Act (Option Exc) := do
  regs c [rt]
  let s ← get
  storeV c ab m n word (s.dv c rt)

def execStb (c : Cid) (rt ab : RegNo) (m : AMode) (s : State) := runInstr c .plain (storeD c rt ab m 1 false) s
def execSth (c : Cid) (rt ab : RegNo) (m : AMode) (s : State) := runInstr c .plain (storeD c rt ab m 2 false) s
def execStt (c : Cid) (rt ab : RegNo) (m : AMode) (s : State) := runInstr c .plain (storeD c rt ab m 4 false) s
def execStw (c : Cid) (rt ab : RegNo) (m : AMode) (s : State) := runInstr c .plain (storeD c rt ab m (s.width c / 8) true) s
def execStp (c : Cid) (rt ab : RegNo) (m : AMode) (s : State) :=
  runInstr c .plain (do
    pairOk c [rt]
    let s ← get
    storeV c ab m 8 false (s.pv c rt)) s
def execStwa (c : Cid) (rt ab : RegNo) (m : AMode) (s : State) :=
  runInstr c .plain (storeV c ab m 5 true (s.av c rt).toNat) s

/-! ### Atomics (R135, R341) -/

/-- An atomic access to a word: its checks, the earlier accesses performed, the word read, and the word that
`f` gives written at once. -/
def atomic (c : Cid) (ab : RegNo) (m : AMode) (f : Nat → Option Nat) : Act Nat := do
  let s ← get
  let n := s.width c / 8
  let (ea, _) := s.effAddr c ab m
  let ps ← checkAcc c (srPL (s.cx c).sr) ea ea.toNat n .atomic .plain
  walkMiss c ps
  consume ea .atomic ps false
  checkWp c ea n false
  checkWp c ea n true
  modify (fun s => s.drainCtx c)
  let bs ← readPieces c ps
  let w := leVal bs
  match f w, ps with
  | some v, p :: _ =>
    modify (fun s => s.perform { cid := c, pl := srPL (s.cx c).sr, addr := p.pa, data := leBytes n v, dev := false })
    pure w
  | _, _ => pure w

/-- Only MODE 0b00 is allowed (R135). DEDUCED, log 50. -/
def modeIsDisp : AMode → Bool
  | .disp _ => true
  | _ => false

def execCasw (c : Cid) (rt ab : RegNo) (m : AMode) (s : State) :=
  runInstr c .plain (do
    need c 1 (rt.val % 2 == 0 && modeIsDisp m)
    regs c [rt, rt + 1]
    flagsFree c
    let s ← get
    let w ← atomic c ab m (fun w => if w = s.dv c rt then some (s.dv c (rt + 1)) else none)
    putSr c (setBit (s.cx c).sr 2 (w == s.dv c rt))
    putD c rt w
    finish c) s
def execSwpw (c : Cid) (rt ab : RegNo) (m : AMode) (s : State) :=
  runInstr c .plain (do
    need c 1 (modeIsDisp m)
    regs c [rt]
    let s ← get
    let w ← atomic c ab m (fun _ => some (s.dv c rt))
    putD c rt w
    finish c) s

/-! ### Moves and constants (R136, R137) -/

def execMovd (c : Cid) (rd ra : RegNo) (s : State) :=
  runInstr c .plain (do
    regs c [rd, ra]
    let s ← get
    putD c rd (s.dv c ra)
    finish c) s
def execMova (c : Cid) (rd ra : RegNo) (s : State) :=
  runInstr c .plain (do
    let s ← get
    putA c rd (s.av c ra)
    finish c) s
def execMovda (c : Cid) (rd ra : RegNo) (s : State) :=
  runInstr c .plain (do
    regs c [rd]
    let s ← get
    putD c rd (s.av c ra).toNat
    finish c) s
def execMovad (c : Cid) (rd ra : RegNo) (s : State) :=
  runInstr c .plain (do
    regs c [ra]
    let s ← get
    putA c rd (BitVec.ofNat 40 (s.dv c ra))
    finish c) s
def execMovi (c : Cid) (rd : RegNo) (imm : BitVec 20) (s : State) :=
  runInstr c .plain (do
    regs c [rd]
    let s ← get
    putD c rd (sext 20 (s.width c) imm.toNat)
    finish c) s

/-- Twenty bits of a D register replaced. -/
def moveHigh (c : Cid) (rd : RegNo) (lo : Nat) (imm : BitVec 20) : Act (Option Exc) := do
  regs c [rd]
  let s ← get
  let v := s.dv c rd
  putD c rd (v - bitsOf v lo 20 * 2 ^ lo + imm.toNat * 2 ^ lo)
  finish c

def execMovhi (c : Cid) (rd : RegNo) (imm : BitVec 20) (s : State) := runInstr c .plain (moveHigh c rd 20 imm) s
def execMovia (c : Cid) (rd : RegNo) (imm : BitVec 20) (s : State) :=
  runInstr c .plain (do
    putA c rd (imm.signExtend 40)
    finish c) s
def execMovhia (c : Cid) (rd : RegNo) (imm : BitVec 20) (s : State) :=
  runInstr c .plain (do
    let s ← get
    putA c rd (putF (s.av c rd) 20 20 imm.toNat)
    finish c) s
def execMovh2 (c : Cid) (rd : RegNo) (imm : BitVec 20) (s : State) :=
  runInstr c .plain (do
    need c 1 (s.wide c)
    moveHigh c rd 40 imm) s
def execMovh3 (c : Cid) (rd : RegNo) (imm : BitVec 20) (s : State) :=
  runInstr c .plain (do
    need c 1 (s.wide c)
    moveHigh c rd 60 imm) s

/-! ### Address arithmetic (R138) -/

/-- An A register result of A registers. -/
def aOp (c : Cid) (rd : RegNo) (f : State → Word) : Act (Option Exc) := do
  let s ← get
  putA c rd (f s)
  finish c

/-- A compare of two 40-bit addresses. -/
def aCmp (c : Cid) (f : State → Word × Word) : Act (Option Exc) := do
  flagsFree c
  let s ← get
  let (a, b) := f s
  putSr c (flagsAdd 40 (s.cx c).sr (addBinary 40 a.toNat (notW 40 b.toNat) 1))
  finish c

/-- ASCA's scales. -/
def ascaScale (aux : Byte) : Option Nat := [1, 2, 4, 5, 8, 16, 64][aux.toNat]?

def execAadd (c : Cid) (rd ra rb : RegNo) (s : State) := runInstr c .plain (aOp c rd (fun s => s.av c ra + s.av c rb)) s
def execAsub (c : Cid) (rd ra rb : RegNo) (s : State) := runInstr c .plain (aOp c rd (fun s => s.av c ra - s.av c rb)) s
def execAsca (c : Cid) (rd ra rb : RegNo) (aux : Byte) (s : State) :=
  runInstr c .plain (match ascaScale aux with
    | some k => aOp c rd (fun s => s.av c ra + s.av c rb * BitVec.ofNat 40 k)
    | none => raise c 1) s
def execAcmp (c : Cid) (ra rb : RegNo) (s : State) := runInstr c .plain (aCmp c (fun s => (s.av c ra, s.av c rb))) s
def execAshl (c : Cid) (rd ra : RegNo) (aux : Byte) (s : State) :=
  runInstr c .plain (do
    need c 1 (decide (aux.toNat < 40))
    aOp c rd (fun s => s.av c ra <<< aux.toNat)) s
def execAshr (c : Cid) (rd ra : RegNo) (aux : Byte) (s : State) :=
  runInstr c .plain (do
    need c 1 (decide (aux.toNat < 40))
    aOp c rd (fun s => s.av c ra >>> aux.toNat)) s
def execAaddi (c : Cid) (rd ra : RegNo) (imm : BitVec 20) (s : State) :=
  runInstr c .plain (aOp c rd (fun s => s.av c ra + imm.signExtend 40)) s
def execAcmpi (c : Cid) (ra : RegNo) (imm : BitVec 20) (s : State) :=
  runInstr c .plain (aCmp c (fun s => (s.av c ra, imm.signExtend 40))) s

end Sys2Proof.Machine
end

