-- ==== Sys2Proof/Machine/Strings.lean ====
section
/-! DEFINITION. The string group's interruptible instructions MVS, MVSP, CMS, TRS, SCN, EDT, EDM and DMLS,
unit by unit, and their stopping and resuming (R198–R205, R212–R223). -/

namespace Sys2Proof.Machine

/-! ### Accesses of the string group (R202, R203) -/

/-- The first byte of an operand that lies in device memory, page by page with fuel. -/
def devByte (c : Cid) (s : State) : Nat → Nat → Nat → Option Nat
  | 0, _, _ => none
  | f + 1, a, n =>
    if n = 0 then none
    else
      let k := 4096 - a % 4096
      match probe c a s with
      | some t => if s.attrOf c t = 2 then some a else devByte c s f ((a + k) % 2 ^ 40) (n - k)
      | none => devByte c s f ((a + k) % 2 ^ 40) (n - k)

/-- No operand lies in device memory (R203). -/
def noDevice (c : Cid) (ops : List (Nat × Nat)) : Act Unit := do
  let s ← get
  match ops.findSome? (fun o => devByte c s (o.2 / 4096 + 2) o.1 o.2) with
  | some a => raiseAt 5 (BitVec.ofNat 40 a)
  | none => pure ()

/-- Orders 1 to 6 of R329 for the line parts of a unit's access; a failure names its first byte (R220). -/
def strCheck (c : Cid) (k : AccKind) : List (Nat × Nat) → Bool → Act (List Piece)
  | [], _ => pure []
  | (a, n) :: r, half => do
    let s ← get
    let p ← checkHalf c (srPL (s.cx c).sr) (BitVec.ofNat 40 a) a n k half (half || !r.isEmpty) .string
    let ps ← strCheck c k r true
    pure (p :: ps)

/-- Order 7 of R329 for the parts of a unit's access. -/
def strConsume (k : AccKind) : List ((Nat × Nat) × Piece) → Bool → Act Unit
  | [], _ => pure ()
  | (a, p) :: r, half => do
    consume (BitVec.ofNat 40 a.1) k [p] half
    strConsume k r true

/-- The checks of one access of a unit. -/
def strAcc (c : Cid) (k : AccKind) (a n : Nat) : Act (List Piece) := do
  let parts := lineParts 8 a n
  let ps ← strCheck c k parts false
  modify (fun s => { s with free := s.free + 1 })
  walkMiss c ps
  strConsume k (parts.zip ps) false
  if n != 0 then checkWp c (BitVec.ofNat 40 a) n (k == .write)
  pure ps

/-- A unit's read; a data cache miss may stop the instruction at its boundary (R219). -/
def strRead (c : Cid) (a n : Nat) (miss : Bool) : Act (List Byte) := do
  let ps ← strAcc c .read a n
  let s ← get
  if miss && n != 0 && s.missSwitches c ps then stop (.out .line)
  readPieces c ps

/-- A unit's write. -/
def strWrite (c : Cid) (a : Nat) (bs : List Byte) : Act Unit := do
  let ps ← strAcc c .write a bs.length
  writePieces c ps bs

/-- The physical addresses of checked pieces, byte by byte. -/
def pieceAddrs (ps : List Piece) : List Nat := ps.flatMap (fun p => (List.range p.len).map (fun i => p.pa + i))

/-- Bytes moved one at a time in ascending order: a source byte already written in this unit is read as
written (R204). `done` lists the writes made, latest first. -/
def moveBytes : List Nat → List Nat → List Byte → List (Nat × Byte) → List Byte
  | sa :: sas, da :: das, b :: bs, done =>
    let v := ((done.find? (fun w => w.1 == sa)).map (·.2)).getD b
    v :: moveBytes sas das bs ((da, v) :: done)
  | _, _, _, _ => []

/-! ### Registers of a stopped instruction -/

/-- The low 40 bits of a D register: a length, count or control (R200). -/
def State.dl (s : State) (c : Cid) (n : RegNo) : Nat := s.dv c n % 2 ^ 40

/-- An A register as an address. -/
def State.al (s : State) (c : Cid) (n : RegNo) : Nat := (s.av c n).toNat

/-- Advance an A register. -/
def advance (c : Cid) (n : RegNo) (k : Nat) : Act Unit := modify (fun s => s.setA c n (s.av c n + BitVec.ofNat 40 k))

/-- Record what ESW would hold. -/
def setLive (c : Cid) (w : Nat) : Act Unit :=
  modify (fun s => s.modCx c (fun x => { x with strOp := x.strOp.map (fun o => { o with live := BitVec.ofNat 40 w }) }))

/-- Write C, V, Z and N. -/
def putCvzn (c : Cid) (cf v z n : Bool) : Act Unit := modify (fun s => s.modCx c (fun x => { x with sr := setCVZN x.sr cf v z n }))

/-! ### Moves, compares, translation and scanning (R204, R205)

A unit answers none while work remains, and the DV it wrote once the instruction is complete. -/

def unitMvs (c : Cid) (o : StrOp) (miss : Bool) : Act (Option Bool) := do
  let s ← get
  let n := s.dl c o.r3
  let k := min n 64
  let dps ← strAcc c .write (s.al c o.r1) k
  let sps ← strAcc c .read (s.al c o.r2) k
  if miss && k != 0 && s.missSwitches c sps then stop (.out .line)
  let bs ← readPieces c sps
  writePieces c dps (moveBytes (pieceAddrs sps) (pieceAddrs dps) bs [])
  advance c o.r1 k
  advance c o.r2 k
  putD c o.r3 (n - k)
  pure (if n ≤ k then some false else none)

def unitMvsp (c : Cid) (o : StrOp) (miss : Bool) : Act (Option Bool) := do
  let s ← get
  let n := s.dl c o.r3
  let l := s.dl c o.r4
  let k := min n 64
  let m := min k l
  let dps ← strAcc c .write (s.al c o.r1) k
  let sps ← strAcc c .read (s.al c o.r2) m
  if miss && m != 0 && s.missSwitches c sps then stop (.out .line)
  let bs ← readPieces c sps
  let pad := BitVec.ofNat 8 (s.dv c o.r5)
  writePieces c dps (moveBytes (pieceAddrs sps) (pieceAddrs dps) bs [] ++ List.replicate (k - m) pad)
  advance c o.r1 k
  advance c o.r2 m
  putD c o.r3 (n - k)
  putD c o.r4 (l - m)
  if n ≤ k then
    putCvzn c (decide (n < l)) false (n == l) false
    pure (some false)
  else pure none

/-- Where a bit of ESW stands. -/
def eswFound : Nat := 256
def eswLt : Nat := 512

/-- The run through the rest of the length after a result was found under SR.CT (R205): the next unit of each
operand is read; the result stands. -/
def runThrough (c : Cid) (o : StrOp) (as : List RegNo) (miss : Bool) (done : Bool → Act Unit) : Act (Option Bool) := do
  let s ← get
  let prog := getF o.live 16 24
  let skip := s.dl c o.r3 - prog
  let k := min prog 64
  for r in as do
    let _ ← strRead c ((s.al c r + skip) % 2 ^ 40) k miss
  if prog ≤ k then
    done (o.live.getLsbD 9)
    pure (some false)
  else
    setLive c (o.live.toNat % 65536 + 65536 * (prog - k))
    pure none

/-- A result found `i` bytes into a unit of `k` bytes with `n` left: complete, or run on under SR.CT. -/
def foundAt (c : Cid) (o : StrOp) (n k : Nat) (lt : Bool) (done : Bool → Act Unit) : Act (Option Bool) := do
  let s ← get
  if srCT (s.cx c).sr && decide (k < n) then
    setLive c (o.owner.toNat + eswFound + (if lt then eswLt else 0) + 65536 * (n - k))
    pure none
  else
    done lt
    pure (some false)

/-- CMS's flags at a difference (R204). -/
def cmsDone (c : Cid) (lt : Bool) : Act Unit := putCvzn c (!lt) false false lt

/-- The first index at which two strings differ, and whether the first is lower. -/
def firstDiff : List Byte → List Byte → Nat → Option (Nat × Bool)
  | a :: as, b :: bs, i => if a = b then firstDiff as bs (i + 1) else some (i, decide (a.toNat < b.toNat))
  | _, _, _ => none

def unitCms (c : Cid) (o : StrOp) (miss : Bool) : Act (Option Bool) := do
  if o.live.getLsbD 8 then runThrough c o [o.r1, o.r2] miss (cmsDone c)
  else
    let s ← get
    let n := s.dl c o.r3
    let k := min n 64
    let a ← strRead c (s.al c o.r1) k miss
    let b ← strRead c (s.al c o.r2) k miss
    match firstDiff a b 0 with
    | some (i, lt) =>
      advance c o.r1 i
      advance c o.r2 i
      putD c o.r3 (n - i)
      foundAt c o n k lt (cmsDone c)
    | none =>
      advance c o.r1 k
      advance c o.r2 k
      putD c o.r3 (n - k)
      if n ≤ k then
        putCvzn c true false true false
        pure (some false)
      else pure none

/-- TRS byte by byte: the source byte as this unit's writes leave it, then the table byte it selects. -/
def trsBytes (c : Cid) (table : Nat) (miss : Bool) : List Nat → List Nat → List Byte → List (Nat × Byte) → Act (List Byte)
  | sa :: sas, da :: das, b :: bs, done => do
    let v := ((done.find? (fun w => w.1 == sa)).map (·.2)).getD b
    let tps ← strAcc c .read ((table + v.toNat) % 2 ^ 40) 1
    let s ← get
    if miss && s.missSwitches c tps then stop (.out .line)
    let tb ← readPieces c tps
    let t := (((pieceAddrs tps).head?.bind (fun a => done.find? (fun w => w.1 == a))).map (·.2)).getD (tb.headD 0)
    let r ← trsBytes c table miss sas das bs ((da, t) :: done)
    pure (t :: r)
  | _, _, _, _ => pure []

def unitTrs (c : Cid) (o : StrOp) (miss : Bool) : Act (Option Bool) := do
  let s ← get
  let n := s.dl c o.r3
  let k := min n 64
  let dps ← strAcc c .write (s.al c o.r1) k
  let sps ← strAcc c .read (s.al c o.r2) k
  if miss && k != 0 && s.missSwitches c sps then stop (.out .line)
  let bs ← readPieces c sps
  let out ← trsBytes c (s.al c o.r4) miss (pieceAddrs sps) (pieceAddrs dps) bs []
  writePieces c dps out
  advance c o.r1 k
  advance c o.r2 k
  putD c o.r3 (n - k)
  pure (if n ≤ k then some false else none)

/-- SCN's flags at a match. -/
def scnDone (c : Cid) (_ : Bool) : Act Unit := putCvzn c true false false false

def unitScn (c : Cid) (o : StrOp) (miss : Bool) : Act (Option Bool) := do
  if o.live.getLsbD 8 then runThrough c o [o.r1] miss (scnDone c)
  else
    let s ← get
    let n := s.dl c o.r3
    let k := min n 64
    let bs ← strRead c (s.al c o.r1) k miss
    let set ← (if k = 0 then pure [] else strRead c (s.al c o.r2) 32 miss)
    let inSet (x : Byte) : Bool := bitOf (leVal set) x.toNat
    match bs.findIdx? inSet with
    | some i =>
      advance c o.r1 i
      putD c o.r3 (n - i)
      putD c o.r4 ((bs[i]?).getD 0).toNat
      foundAt c o n k false (scnDone c)
    | none =>
      advance c o.r1 k
      putD c o.r3 (n - k)
      if n ≤ k then
        putCvzn c false false true false
        pure (some false)
      else pure none

/-! ### Editing (R213–R218) -/

/-- An edit within one unit. -/
structure Ed where
  out : Nat
  pat : Nat
  src : Nat
  flt : Nat
  plen : Nat
  slen : Nat
  fill : Byte
  flen : Nat
  edm : Bool
  sig : Bool
  neg : Bool
  zv : Bool
  nib : Bool
  flta : Bool
  markd : Bool
  utf : Nat
  wr : List Byte
  mark : Option Nat
deriving DecidableEq, Repr

/-- The ESW that an edit leaves (R222). -/
def Ed.esw (e : Ed) (owner : Byte) : Nat :=
  owner.toNat + 256 * b2n e.sig + 512 * b2n e.neg + 1024 * b2n e.zv + 2048 * b2n e.nib + 4096 * b2n e.flta +
    8192 * b2n e.markd + 16384 * e.utf

/-- Write one byte. -/
def Ed.put (e : Ed) (b : Byte) : Ed := { e with wr := e.wr ++ [b] }

/-- `write_significant` of R218. -/
def edSig (c : Cid) (miss : Bool) (e : Ed) (b : Byte) : Act Ed := do
  if e.edm && !e.markd then
    let fs ← (if e.flta && e.flen != 0 then strRead c e.flt e.flen miss else pure [])
    let e1 := { e with wr := e.wr ++ fs }
    pure ({ e1 with mark := some ((e1.out + e1.wr.length) % 2 ^ 40), markd := true }.put b)
  else pure (e.put b)

/-- Take the next pattern byte. -/
def edTake (c : Cid) (miss : Bool) (e : Ed) : Act (Byte × Ed) := do
  let b ← strRead c e.pat 1 miss
  pure (b.headD 0, { e with pat := (e.pat + 1) % 2 ^ 40, plen := e.plen - 1 })

/-- Take the next source digit (R213, R215). -/
def edDigit (c : Cid) (miss : Bool) (e : Ed) : Act (Nat × Ed) := do
  need c 9 (e.slen != 0)
  let b ← strRead c e.src 1 miss
  let v := (b.headD 0).toNat
  let d := if e.nib then v % 16 else v / 16
  need c 9 (decide (d < 10))
  if e.nib || e.slen == 1 then
    pure (d, { e with src := (e.src + 1) % 2 ^ 40, slen := e.slen - 1, nib := false })
  else pure (d, { e with nib := true })

/-- Is any source digit still to be taken non-zero (0x85)? An invalid digit raises vector 9. -/
def edRemains (c : Cid) (miss : Bool) (e : Ed) : Act Bool := do
  if e.slen = 0 then pure false
  else
    let bs ← strRead c e.src e.slen miss
    let n := 2 * e.slen - 1 - b2n e.nib
    let v := beVal bs / 16 % 16 ^ n
    need c 9 (bcdOk n v)
    pure (v != 0)

/-- Continuation bytes due after a literal lead byte (R216). -/
def utfDue (b : Byte) : Nat :=
  let v := b.toNat
  if 0xC2 ≤ v ∧ v ≤ 0xDF then 1 else if 0xE0 ≤ v ∧ v ≤ 0xEF then 2 else if 0xF0 ≤ v ∧ v ≤ 0xF4 then 3 else 0

/-- Is a pattern byte a control (R213)? -/
def isControl (b : Byte) : Bool := decide (0x80 ≤ b.toNat) && decide (b.toNat ≤ 0x87)

/-- One literal pattern byte (R216). -/
def edLiteral (c : Cid) (miss : Bool) (e : Ed) (b : Byte) : Act Ed :=
  if e.utf != 0 then
    let e1 := { e with utf := e.utf - 1 }
    if e.sig then edSig c miss e1 b else pure e1
  else
    let e1 := { e with utf := utfDue b }
    if e.sig then edSig c miss e1 b else pure (e1.put e.fill)

/-- A run of literal pattern bytes that ends before the next control. -/
def edRun (c : Cid) (miss : Bool) : Nat → Ed → Act Ed
  | 0, e => pure e
  | f + 1, e =>
    if e.plen = 0 then pure e
    else do
      let (b, e1) ← edTake c miss e
      if e.utf == 0 && isControl b then pure e
      else
        let e2 ← edLiteral c miss e1 b
        edRun c miss f e2

/-- One pattern control with its operand (R215). -/
def edControl (c : Cid) (miss : Bool) (e0 : Ed) : Act Ed := do
  let (b, e) ← edTake c miss e0
  match b.toNat with
  | 0x80 | 0x81 | 0x84 =>
    let e1 := if b = 0x84#8 then { e with flta := true } else e
    let (d, e2) ← edDigit c miss e1
    let e3 ← (if e2.sig || d != 0 then do
        let x ← edSig c miss e2 (BitVec.ofNat 8 (0x30 + d))
        pure { x with sig := true }
      else pure (e2.put e2.fill))
    pure (if b = 0x81#8 then { e3 with sig := true } else e3)
  | 0x82 => pure { e.put e.fill with sig := false, flta := false, markd := false }
  | 0x83 => pure (e.put (if e.neg then 0x2D#8 else e.fill))
  | 0x85 =>
    if e.plen = 0 then pure e
    else
      let (p, e1) ← edTake c miss e
      let left ← edRemains c miss e1
      if e1.sig || left then
        let x ← edSig c miss e1 p
        pure { x with sig := true }
      else pure (e1.put e1.fill)
  | 0x86 =>
    if e.plen = 0 then pure e
    else
      let (p, e1) ← edTake c miss e
      pure { e1 with fill := p }
  | _ => raise c 9

/-- The edit as registers and ESW describe it. -/
def State.edOf (s : State) (c : Cid) (o : StrOp) : Ed :=
  let v := s.dl c o.r3
  let w := o.live
  { out := s.al c o.r1, pat := s.al c o.r2, src := s.al c o.r4, flt := s.al c o.r6
    plen := bitsOf v 0 13, slen := bitsOf v 16 5, fill := BitVec.ofNat 8 (bitsOf v 24 8), flen := bitsOf v 32 4
    edm := o.owner == 0x91#8, sig := w.getLsbD 8, neg := w.getLsbD 9, zv := w.getLsbD 10, nib := w.getLsbD 11
    flta := w.getLsbD 12, markd := w.getLsbD 13, utf := getF w 14 2, wr := [], mark := none }

/-- One unit of an edit. A run of literals reads its pattern before it writes any of its output: where the two overlap, the spec
does not say which of them comes first. DESIGN CHOICE, log 97. -/
def unitEdit (c : Cid) (o : StrOp) (miss : Bool) : Act (Option Bool) := do
  let s ← get
  let e0 := s.edOf c o
  let (b, _) ← edTake c miss e0
  let e ← (if e0.utf == 0 && isControl b then edControl c miss e0 else edRun c miss 64 e0)
  if e.wr != [] then strWrite c e.out e.wr
  advance c o.r1 e.wr.length
  putA c o.r2 (BitVec.ofNat 40 e.pat)
  putA c o.r4 (BitVec.ofNat 40 e.src)
  (match e.mark with
    | some m => putA c o.r5 (BitVec.ofNat 40 m)
    | none => pure ())
  let v := s.dl c o.r3
  putD c o.r3 (e.plen + 2 ^ 16 * e.slen + 2 ^ 24 * e.fill.toNat + 2 ^ 32 * bitsOf v 32 4)
  if e.plen = 0 then
    putCvzn c (e.slen == 0) false e.zv e.neg
    pure (some false)
  else
    setLive c (e.esw o.owner)
    pure none

/-! ### DMLS (R212) -/

def unitDmls (c : Cid) (o : StrOp) (miss : Bool) : Act (Option Bool) := do
  let s ← get
  let k := getF o.live 16 24
  let lp := s.dl c o.r2
  let lq := s.dl c o.r6
  let pa := s.al c o.r1
  let qa := s.al c o.r5
  let mb ← strRead c (s.al c o.r3) (s.dl c o.r4) miss
  let qb ← strRead c ((qa + lq - 1 - k) % 2 ^ 40) 1 miss
  let last := k + 1 == lq
  let qs ← (if last && k != 0 then strRead c ((qa + lq - 1) % 2 ^ 40) 1 miss else pure qb)
  let pb ← (if k = 0 then pure [] else strRead c pa lp miss)
  let m ← (match packedVal mb with | some v => pure v | none => raise c 9)
  let x := (qb.headD 0).toNat
  need c 9 (decide (x / 16 < 10) && (k == 0 || decide (x % 16 < 10)))
  let sg := (qs.headD 0).toNat % 16
  need c 9 ((k != 0 && !last) || sg == 0xC || sg == 0xD || sg == 0xF)
  let p0 ← (if k = 0 then pure 0 else match packedVal pb with | some v => pure v.natAbs | none => raise c 9)
  let add := if k = 0 then m.natAbs * (x / 16) else m.natAbs * (10 * (x / 16) + x % 16) * 10 ^ (2 * k - 1)
  let top := 10 ^ (2 * lp - 1)
  let ovf := o.live.getLsbD 8 || decide (top ≤ p0 + add)
  let p := (p0 + add) % top
  let neg := last && (decide (m < 0) != (sg == 0xD))
  strWrite c pa (packedOf lp (if neg then -(p : Int) else p))
  if last then
    let zero := p == 0 && !ovf
    let s ← get
    putDec c (setBit (setZN (s.cx c).sr zero (neg && !zero)) 5 ovf) ovf
    pure (some ovf)
  else
    setLive c (0xB5 + 256 * b2n ovf + 65536 * (k + 1))
    pure none

/-! ### Issue, units and completion -/

/-- One unit of the instruction under way. -/
def strUnit (c : Cid) (o : StrOp) (miss : Bool) : Act (Option Bool) :=
  match o.owner.toNat with
  | 0x80 => unitMvs c o miss
  | 0x81 => unitMvsp c o miss
  | 0x82 => unitCms c o miss
  | 0x83 => unitTrs c o miss
  | 0x84 => unitScn c o miss
  | 0xB5 => unitDmls c o miss
  | _ => unitEdit c o miss

/-- One unit, and the instruction's completion after its last: ESW zero (R218, R222), SR.ES 0. -/
def strStep (c : Cid) (o : StrOp) (miss : Bool) : Act (Option Exc) := do
  match ← strUnit c o miss with
  | none =>
    modify (fun s => s.modCx c (fun x => { x with strOp := x.strOp.map (fun o => { o with begun := true }) }))
    pure none
  | some dv =>
    modify (fun s => s.modCx c (fun x => { x with strOp := none, esw := 0, sr := setBit x.sr 36 false }))
    finishDv c dv

/-- Perform one unit in a context; a fault, miss or comparator stops the instruction before the unit
(R220). -/
def runUnit (c : Cid) (miss : Bool) (s : State) : State :=
  match (s.cx c).strOp with
  | none => s
  | some o =>
    if s.canRun c && !s.haltDue c then
      match strStep c o miss s with
      | .ok (e, s1) => if (s1.cx c).strOp.isSome then s1 else s1.completed c e
      | .error (.stall, _) => s
      | .error (st, t) => ((s.checked t c).stopStr c).onStop c st
    else s

def execStringUnit (c : Cid) (miss : Bool) (s : State) : Host.Outcome State Fault Refusal := .next (runUnit c miss s)

/-- What an interruptible instruction checks and does before its first unit: distinct registers (R199), its
ranges (R200), the resume checks (R221), or at a fresh start the operands' memory (R203) and its own checks;
then its units may run. The set of SCN and the table of TRS are operands at a length of 0 too. PRESUMED, log 85. DESIGN
CHOICE, log 97. -/
def strStart (c : Cid) (owner : Byte) (fs : List RegNo) (as ds : List RegNo) (range : State → Bool → Bool)
    (resume : State → Word → Bool) (operands : State → List (Nat × Nat)) (fresh : Act Nat) : Act Unit := do
  need c 1 (decide as.Nodup && decide ds.Nodup)
  regs c ds
  let s ← get
  let x := s.cx c
  need c 1 (range s (srES x.sr))
  flagsFree c
  let live ← (if srES x.sr then do
      need c 2 (getF x.esw 0 8 == owner.toNat && resume s x.esw)
      pure x.esw.toNat
    else do
      noDevice c (operands s)
      fresh)
  fillLazy c
  let o : StrOp := { owner := owner, r1 := fs.getD 0 0, r2 := fs.getD 1 0, r3 := fs.getD 2 0, r4 := fs.getD 3 0,
                     r5 := fs.getD 4 0, r6 := fs.getD 5 0, live := BitVec.ofNat 40 live, begun := false }
  modify (fun s => s.modCx c (fun x => { x with strOp := some o }))

/-- Issue an interruptible instruction. -/
def issueStr (c : Cid) (body : Act Unit) (s : State) : Host.Outcome State Fault Refusal :=
  .next (
    if s.canIssue c then
      match (s.cx c).late with
      | some l => s.takeLate c l
      | none =>
        match preChecks c .interruptible body s with
        | .ok (_, s1) => s1
        | .error (.stall, _) => s
        | .error (st, t) => (s.checked t c).onStop c st
    else s)

/-- A length of 0 to 2^24 bytes (R204). -/
def strLen (n : Nat) : Bool := decide (n ≤ 2 ^ 24)

/-- ESW with nothing but OWNER. -/
def ownerOnly (_ : State) (w : Word) : Bool := getF w 8 32 == 0

/-- The fields CMS and SCN leave: nothing, or FOUND with the bytes left to run through. -/
def foundOk (c : Cid) (r3 : RegNo) (lt : Bool) (s : State) (w : Word) : Bool :=
  if w.getLsbD 8 then
    getF w 10 6 == 0 && (lt || !w.getLsbD 9) && decide (0 < getF w 16 24) && decide (getF w 16 24 < s.dl c r3)
  else getF w 8 32 == 0

def execMvs (c : Cid) (r1 r2 r3 : RegNo) (s : State) :=
  issueStr c (strStart c 0x80 [r1, r2, r3] [r1, r2] [r3] (fun s _ => strLen (s.dl c r3)) ownerOnly
    (fun s => [(s.al c r1, s.dl c r3), (s.al c r2, s.dl c r3)]) (pure 0x80)) s
def execMvsp (c : Cid) (r1 r2 r3 r4 r5 : RegNo) (s : State) :=
  issueStr c (strStart c 0x81 [r1, r2, r3, r4, r5] [r1, r2] [r3, r4, r5]
    (fun s _ => strLen (s.dl c r3) && strLen (s.dl c r4)) ownerOnly
    (fun s => [(s.al c r1, s.dl c r3), (s.al c r2, s.dl c r4)]) (pure 0x81)) s
def execCms (c : Cid) (r1 r2 r3 : RegNo) (s : State) :=
  issueStr c (strStart c 0x82 [r1, r2, r3] [r1, r2] [r3] (fun s _ => strLen (s.dl c r3)) (foundOk c r3 true)
    (fun s => [(s.al c r1, s.dl c r3), (s.al c r2, s.dl c r3)]) (pure 0x82)) s
def execTrs (c : Cid) (r1 r2 r3 r4 : RegNo) (s : State) :=
  issueStr c (strStart c 0x83 [r1, r2, r3, r4] [r1, r2, r4] [r3] (fun s _ => strLen (s.dl c r3)) ownerOnly
    (fun s => [(s.al c r1, s.dl c r3), (s.al c r2, s.dl c r3), (s.al c r4, 256)]) (pure 0x83)) s
def execScn (c : Cid) (r1 r2 r3 r4 : RegNo) (s : State) :=
  issueStr c (strStart c 0x84 [r1, r2, r3, r4] [r1, r2] [r3, r4] (fun s _ => strLen (s.dl c r3)) (foundOk c r3 false)
    (fun s => [(s.al c r1, s.dl c r3), (s.al c r2, 32)]) (pure 0x84)) s

/-- The edit control's ranges (R213). -/
def editRange (c : Cid) (r3 : RegNo) (edm : Bool) (s : State) (resuming : Bool) : Bool :=
  let v := s.dl c r3
  let pl := bitsOf v 0 13
  let sl := bitsOf v 16 5
  bitsOf v 13 3 == 0 && bitsOf v 21 3 == 0 && bitsOf v 36 4 == 0 && (edm || bitsOf v 32 4 == 0) &&
    decide (1 ≤ pl) && decide (pl ≤ 4096) && decide (sl ≤ 16) && (resuming || decide (1 ≤ sl))

/-- The ESW fields an edit can leave (R221, R222). -/
def editEsw (c : Cid) (r3 : RegNo) (edm : Bool) (s : State) (w : Word) : Bool :=
  getF w 16 24 == 0 && !(w.getLsbD 9 && w.getLsbD 10) &&
    (!w.getLsbD 11 || decide (2 ≤ bitsOf (s.dl c r3) 16 5)) && (!w.getLsbD 13 || (edm && w.getLsbD 8))

/-- The fresh start's source check, giving ZV and NEG (R214). -/
def editFresh (c : Cid) (owner : Nat) (r3 r4 : RegNo) : Act Nat := do
  let s ← get
  let bs ← strRead c (s.al c r4) (bitsOf (s.dl c r3) 16 5) false
  match packedVal bs with
  | none => raise c 9
  | some v => pure (owner + 512 * b2n (decide (v < 0)) + 1024 * b2n (v == 0))

def execEdt (c : Cid) (r1 r2 r3 r4 : RegNo) (s : State) :=
  issueStr c (strStart c 0x90 [r1, r2, r3, r4] [r1, r2, r4] [r3] (editRange c r3 false) (editEsw c r3 false)
    (fun s => [(s.al c r1, bitsOf (s.dl c r3) 0 13), (s.al c r2, bitsOf (s.dl c r3) 0 13),
      (s.al c r4, bitsOf (s.dl c r3) 16 5)]) (editFresh c 0x90 r3 r4)) s
def execEdm (c : Cid) (r1 r2 r3 r4 r5 r6 : RegNo) (s : State) :=
  issueStr c (strStart c 0x91 [r1, r2, r3, r4, r5, r6] [r1, r2, r4, r5, r6] [r3] (editRange c r3 true) (editEsw c r3 true)
    (fun s => [(s.al c r1, bitsOf (s.dl c r3) 0 13 + bitsOf (s.dl c r3) 32 4), (s.al c r2, bitsOf (s.dl c r3) 0 13),
      (s.al c r4, bitsOf (s.dl c r3) 16 5), (s.al c r6, bitsOf (s.dl c r3) 32 4)]) (editFresh c 0x91 r3 r4)) s

/-- A field length of 1 to 16 bytes. -/
def fieldLen (n : Nat) : Bool := decide (1 ≤ n) && decide (n ≤ 16)

/-- Do two byte ranges overlap, modulo 2^40? -/
def overlaps (a n b m : Nat) : Bool :=
  decide ((b + 2 ^ 40 - a) % 2 ^ 40 < n) || decide ((a + 2 ^ 40 - b) % 2 ^ 40 < m)

/-- DMLS's fresh start: accesses, overlaps, then every nibble of M and Q (R208, R212). The fault address of an overlap is the
first byte of P, the instruction's first field (R211). M and Q are only read and may overlap each other in any way. DESIGN
CHOICE, log 97. -/
def dmlsFresh (c : Cid) (r1 r2 r3 r4 r5 r6 : RegNo) : Act Nat := do
  let s ← get
  let p := s.al c r1
  let lp := s.dl c r2
  let mb ← strRead c (s.al c r3) (s.dl c r4) false
  let qb ← strRead c (s.al c r5) (s.dl c r6) false
  let _ ← strAcc c .write p lp
  if overlaps p lp (s.al c r3) (s.dl c r4) || overlaps p lp (s.al c r5) (s.dl c r6) then raiseAt 9 (BitVec.ofNat 40 p)
  need c 9 ((packedVal mb).isSome && (packedVal qb).isSome)
  pure 0xB5

def execDmls (c : Cid) (r1 r2 r3 r4 r5 r6 : RegNo) (s : State) :=
  issueStr c (strStart c 0xB5 [r1, r2, r3, r4, r5, r6] [r1, r3, r5] [r2, r4, r6]
    (fun s _ => fieldLen (s.dl c r2) && fieldLen (s.dl c r4) && fieldLen (s.dl c r6))
    (fun s w => getF w 9 7 == 0 && decide (0 < getF w 16 24) && decide (getF w 16 24 < s.dl c r6))
    (fun s => [(s.al c r1, s.dl c r2), (s.al c r3, s.dl c r4), (s.al c r5, s.dl c r6)])
    (dmlsFresh c r1 r2 r3 r4 r5 r6)) s

end Sys2Proof.Machine
end

