-- ==== Sys2Proof/Machine/Packed.lean ====
section
/-! DEFINITION. Packing, conversion and storage-to-storage decimal: PKZ, UPK, CVBD, CVDB, DADS, DSBS, DCPS,
DZMS and DSHS (R60–R62, R206–R211). -/

namespace Sys2Proof.Machine

/-! ### Zoned fields (R60–R62) -/

/-- Bytes of a zoned field: a form 0b01 field has its sign byte after the digits. -/
def zonedLen (digits form : Nat) : Nat := if form = 1 then digits + 1 else digits

/-- The value of ASCII digit bytes; none on any other byte. -/
def asciiVal : List Byte → Nat → Option Nat
  | [], v => some v
  | b :: bs, v => if 0x30 ≤ b.toNat ∧ b.toNat ≤ 0x39 then asciiVal bs (10 * v + (b.toNat - 0x30)) else none

/-- The value of a zoned field; none on a byte outside its form (R61). -/
def zonedVal (form : Nat) (bs : List Byte) : Option Int :=
  let init := bs.dropLast
  let last := (bs.getLast?.getD 0).toNat
  match form with
  | 0 => (asciiVal bs 0).map (fun v => (v : Int))
  | 1 =>
    (asciiVal init 0).bind (fun v =>
      if last = 0x2B ∨ last = 0x20 then some (v : Int) else if last = 0x2D then some (-(v : Int)) else none)
  | _ =>
    if 0x70 ≤ last ∧ last ≤ 0x79 then
      (asciiVal (init ++ [BitVec.ofNat 8 (last - 0x40)]) 0).map (fun v => -(v : Int))
    else (asciiVal bs 0).map (fun v => (v : Int))

/-- `n` ASCII digits, most significant first. -/
def asciiOf : Nat → Nat → List Byte
  | 0, _ => []
  | n + 1, v => asciiOf n (v / 10) ++ [BitVec.ofNat 8 (0x30 + v % 10)]

/-- A zoned field of the low `n` digits of a value's magnitude; a field of zero digits carries the positive
sign (R62, R207). -/
def zonedOf (n form : Nat) (v : Int) : List Byte :=
  let m := v.natAbs % 10 ^ n
  let neg := decide (v < 0) && m != 0
  let ds := asciiOf n m
  match form with
  | 0 => ds
  | 1 => ds ++ [if neg then 0x2D#8 else 0x2B#8]
  | _ => if neg then ds.dropLast ++ [BitVec.ofNat 8 (0x70 + m % 10)] else ds

/-! ### Checked fields (R208) -/

/-- The checks of a field to be written, before its bytes are known. -/
def fieldWrite (c : Cid) (ea : Word) (n : Nat) : Act (List Piece) := do
  let s ← get
  let ps ← checkAcc c (srPL (s.cx c).sr) ea ea.toNat n .write .string
  walkMiss c ps
  consume ea .write ps false
  checkWp c ea n true
  pure ps

/-- A packed field that must be valid (R58). -/
def packedIn (c : Cid) (bs : List Byte) : Act Int :=
  match packedVal bs with
  | some v => pure v
  | none => raise c 9

/-- Does a magnitude exceed `n` digits? -/
def tooLong (n : Nat) (v : Int) : Bool := decide (10 ^ n ≤ v.natAbs)

/-- Write Z, N and DV, and complete. -/
def znDv (c : Cid) (v : Int) (dv : Bool) : Act (Option Exc) := do
  let s ← get
  putDec c (setBit (setZN (s.cx c).sr (v == 0) (decide (v < 0))) 5 dv) dv
  finishDv c dv

/-- The zoned control's ranges (R206): PLEN, ZDIG and FORM. -/
def zonedCtl (c : Cid) (r3 : RegNo) : Act (Nat × Nat × Nat) := do
  let s ← get
  let v := s.dl c r3
  let pl := bitsOf v 0 5
  let zd := bitsOf v 8 5
  let form := bitsOf v 16 2
  need c 1 (bitsOf v 5 3 == 0 && bitsOf v 13 3 == 0 && bitsOf v 18 22 == 0 && fieldLen pl && decide (1 ≤ zd) &&
    form != 3)
  pure (pl, zd, form)

def execPkz (c : Cid) (r1 r2 r3 : RegNo) (miss : Bool) (s : State) :=
  runInstr c .plain (do
    need c 1 (r1 != r2)
    regs c [r3]
    let (pl, zd, form) ← zonedCtl c r3
    flagsFree c
    let zl := zonedLen zd form
    noDevice c [(s.al c r2, zl), (s.al c r1, pl)]
    let bs ← load c (s.av c r2) zl false miss
    let ps ← fieldWrite c (s.av c r1) pl
    match zonedVal form bs with
    | none => raise c 9
    | some v =>
      writeHalves c ps (packedOf pl v)
      znDv c v (tooLong (2 * pl - 1) v)) s
def execUpk (c : Cid) (r1 r2 r3 : RegNo) (miss : Bool) (s : State) :=
  runInstr c .plain (do
    need c 1 (r1 != r2)
    regs c [r3]
    let (pl, zd, form) ← zonedCtl c r3
    flagsFree c
    let zl := zonedLen zd form
    noDevice c [(s.al c r2, pl), (s.al c r1, zl)]
    let bs ← load c (s.av c r2) pl false miss
    let ps ← fieldWrite c (s.av c r1) zl
    let v ← packedIn c bs
    writeHalves c ps (zonedOf zd form v)
    znDv c v (tooLong zd v)) s
def execCvbd (c : Cid) (r1 r2 r3 : RegNo) (s : State) :=
  runInstr c .plain (do
    need c 1 (r2 != r3)
    regs c [r2, r3]
    let l := s.dl c r3
    need c 1 (fieldLen l)
    flagsFree c
    noDevice c [(s.al c r1, l)]
    let ps ← fieldWrite c (s.av c r1) l
    let v := sint (s.width c) (s.dv c r2)
    writeHalves c ps (packedOf l v)
    znDv c v (tooLong (2 * l - 1) v)) s
def execCvdb (c : Cid) (r1 r2 r3 : RegNo) (miss : Bool) (s : State) :=
  runInstr c .plain (do
    need c 1 (r1 != r3)
    regs c [r1, r3]
    let l := s.dl c r3
    need c 1 (fieldLen l)
    flagsFree c
    noDevice c [(s.al c r2, l)]
    let bs ← load c (s.av c r2) l false miss
    let v ← packedIn c bs
    let w := s.width c
    let r := umod w v
    putD c r1 r
    let s ← get
    putSr c (setBit (setZN (s.cx c).sr (v == 0) (decide (v < 0))) 1 (sint w r != v))
    finish c) s

/-! ### Storage-to-storage decimal (R209–R211) -/

/-- Two fields that overlap must be identical (R211); the fault address is the first byte of f1. -/
def sameOrApart (a1 l1 a2 l2 : Nat) : Act Unit :=
  if overlaps a1 l1 a2 l2 && !(a1 == a2 && l1 == l2) then raiseAt 9 (BitVec.ofNat 40 a1) else pure ()

/-- f1 := f of f1 and f2. `rd1` says whether f1 is read. -/
def storage2 (c : Cid) (r1 r2 r3 r4 : RegNo) (miss rd1 : Bool) (f : Int → Int → Int) : Act (Option Exc) := do
  need c 1 (r1 != r3 && r2 != r4)
  regs c [r2, r4]
  let s ← get
  let l1 := s.dl c r2
  let l2 := s.dl c r4
  need c 1 (fieldLen l1 && fieldLen l2)
  flagsFree c
  noDevice c [(s.al c r1, l1), (s.al c r3, l2)]
  let b1 ← (if rd1 then load c (s.av c r1) l1 false miss else pure [])
  let b2 ← load c (s.av c r3) l2 false miss
  let ps ← fieldWrite c (s.av c r1) l1
  sameOrApart (s.al c r1) l1 (s.al c r3) l2
  let v1 ← (if rd1 then packedIn c b1 else pure 0)
  let v2 ← packedIn c b2
  let v := f v1 v2
  writeHalves c ps (packedOf l1 v)
  znDv c v (tooLong (2 * l1 - 1) v)

def execDads (c : Cid) (r1 r2 r3 r4 : RegNo) (miss : Bool) (s : State) :=
  runInstr c .plain (storage2 c r1 r2 r3 r4 miss true (fun a b => a + b)) s
def execDsbs (c : Cid) (r1 r2 r3 r4 : RegNo) (miss : Bool) (s : State) :=
  runInstr c .plain (storage2 c r1 r2 r3 r4 miss true (fun a b => a - b)) s
def execDzms (c : Cid) (r1 r2 r3 r4 : RegNo) (miss : Bool) (s : State) :=
  runInstr c .plain (storage2 c r1 r2 r3 r4 miss false (fun _ b => b)) s
def execDcps (c : Cid) (r1 r2 r3 r4 : RegNo) (miss : Bool) (s : State) :=
  runInstr c .plain (do
    need c 1 (r1 != r3 && r2 != r4)
    regs c [r2, r4]
    let l1 := s.dl c r2
    let l2 := s.dl c r4
    need c 1 (fieldLen l1 && fieldLen l2)
    flagsFree c
    noDevice c [(s.al c r1, l1), (s.al c r3, l2)]
    let b1 ← load c (s.av c r1) l1 false miss
    let b2 ← load c (s.av c r3) l2 false miss
    sameOrApart (s.al c r1) l1 (s.al c r3) l2
    let v1 ← packedIn c b1
    let v2 ← packedIn c b2
    let s ← get
    putSr c (flagsDcmp (s.cx c).sr v1 v2)
    finish c) s

/-- DSHS's result: shifted up exactly, or rounded down with whether a non-zero digit was dropped (R210). -/
def shiftDec (v n : Int) (mode : Nat) : Int × Bool :=
  if 0 ≤ n then (v * (10 ^ n.toNat : Nat), false) else roundShift v n.natAbs mode

def execDshs (c : Cid) (r1 r2 r3 : RegNo) (miss : Bool) (s : State) :=
  runInstr c .plain (do
    need c 1 (r2 != r3)
    regs c [r2, r3]
    let l := s.dl c r2
    let v := s.dl c r3
    let n := sint 8 (bitsOf v 0 8)
    need c 1 (fieldLen l && bitsOf v 12 28 == 0 && decide (-31 ≤ n) && decide (n ≤ 31))
    let mode ← roundMode c (bitsOf v 8 4)
    flagsFree c
    noDevice c [(s.al c r1, l)]
    let bs ← load c (s.av c r1) l false miss
    let ps ← fieldWrite c (s.av c r1) l
    let x ← packedIn c bs
    let r := shiftDec x n mode
    writeHalves c ps (packedOf l r.1)
    modify (fun s => s.modCx c (fun y => { y with sr := setBit y.sr 4 r.2 }))
    znDv c r.1 (tooLong (2 * l - 1) r.1)) s

end Sys2Proof.Machine
end

