-- ==== Sys2Proof/Machine/System.lean ====
section
/-! DEFINITION. System and context instructions of majors 0x00, 0x01 and 0xE0 to 0xE3, and the events of the
pipeline, the interrupt router, the scheduler and the translation caches (R96–R107, R238–R262, R274–R298,
R311, R326–R346). -/

namespace Sys2Proof.Machine

/-- Supervisor or warden privilege (R83). -/
def needSup (c : Cid) : Act Unit := do
  let s ← get
  need c 3 (srPL (s.cx c).sr != 0#2)

/-! ### Special registers (R96–R103) -/

/-- Is a special register lazy state (R271)? -/
def srLazy (n : Nat) : Bool := decide (2 ≤ n) && decide (n ≤ 17)

/-- TBL (R559): nanoseconds and the low byte of seconds. -/
def State.tbl (s : State) : Nat := s.tbNs % 2 ^ 32 + 2 ^ 32 * (s.tbSec % 256)

/-- The value of a special register. -/
def State.special (s : State) (c : Cid) (n : Nat) : Nat :=
  let x := s.cx c
  if n = 0 then x.sr.toNat
  else if n = 1 then x.fsr.toNat
  else if n = 2 then x.ph.toNat
  else if n = 3 then x.pl.toNat
  else if n < 8 then (x.ls[n - 4]?.getD 0).toNat
  else if n < 12 then (x.le[n - 8]?.getD 0).toNat
  else if n < 16 then (x.lc[n - 12]?.getD 0).toNat
  else if n = 16 then x.rc.toNat
  else if n = 17 then x.esw.toNat
  else if n = 18 then (krrRead x.krr (srPL x.sr)).toNat
  else if n = 19 then x.stag.toNat
  else if n = 20 then x.vbr.toNat
  else if n = 21 then c.toNat
  else if n = 22 then x.role.toNat
  else if n = 23 then x.tkt.toNat
  else if n = 24 then (s.cyc (coreIdx c)).toNat
  else if n = 25 then s.tbl
  else if n = 26 then x.spu.toNat
  else x.sps.toNat

/-- Is a special register reached at supervisor privilege only? -/
def srSup (n : Nat) : Bool := n == 20 || n == 26 || n == 27

/-- Is a special register read-only at a privilege? -/
def srRo (user : Bool) (n : Nat) : Bool := (decide (21 ≤ n) && decide (n ≤ 25)) || (user && (n == 18 || n == 19))

def execMfs (c : Cid) (rd : RegNo) (aux : Byte) (s : State) :=
  runInstr c .plain (do
    let n := aux.toNat
    need c 1 (decide (n < 28))
    regs c [rd]
    need c 3 (!(srSup n && srPL (s.cx c).sr == 0#2))
    if n = 0 then flagsFree c
    if srLazy n then fillLazy c
    let s ← get
    putD c rd (s.special c n)
    finish c) s

/-- The SR fields that MTS writes at every privilege, and at supervisor privilege (R99). -/
def srUserMask : Word := 0x1BF3F
def srSupMask : Word := 0xFC0060000 ||| srUserMask

/-- Write a special register (R96–R103). A loop register, RC and ESW take any value: the instruction that uses one checks its
content (R98). -/
def Ctx.putSpecial (x : Ctx) (w : Nat) (n v : Nat) : Ctx :=
  let a := BitVec.ofNat 40 v
  if n = 1 then { x with fsr := BitVec.ofNat 11 v }
  else if n = 2 then { x with ph := BitVec.ofNat 80 (v % 2 ^ w) }
  else if n = 3 then { x with pl := BitVec.ofNat 80 (v % 2 ^ w) }
  else if n < 8 then { x with ls := x.ls.setIfInBounds (n - 4) a }
  else if n < 12 then { x with le := x.le.setIfInBounds (n - 8) a }
  else if n < 16 then { x with lc := x.lc.setIfInBounds (n - 12) a }
  else if n = 16 then { x with rc := a }
  else if n = 17 then { x with esw := a }
  else if n = 18 then { x with krr := (BitVec.ofNat 32 v &&& 0xFFFFFFFC) ||| (x.krr &&& 3) }
  else if n = 19 then { x with stag := BitVec.ofNat 12 v }
  else if n = 20 then { x with vbr := BitVec.ofNat 40 (v / 4096 * 4096) }
  else if n = 26 then { x with spu := a }
  else { x with sps := a }

/-- MTS to SR (R82, R99, R100). -/
def mtsSr (c : Cid) (v : Word) : Act Unit := do
  flagsFree c
  let s ← get
  let sr := (s.cx c).sr
  let user := srPL sr == 0#2
  need c 1 (srRMD v != 7 && decide (srFRM v < 5))
  let pl := srPL v
  need c 3 (user || (if isWardenCid c then pl == 3#2 else decide (pl.toNat < 2)))
  let m := if user then srUserMask else srSupMask
  putSr c ((sr &&& ~~~m) ||| (v &&& m))

def execMts (c : Cid) (ra : RegNo) (aux : Byte) (s : State) :=
  runInstr c (if aux = 16#8 then .noRep else if 4 ≤ aux.toNat ∧ aux.toNat < 16 then .loops else .plain) (do
    let n := aux.toNat
    need c 1 (decide (n < 28))
    regs c [ra]
    let user := srPL (s.cx c).sr == 0#2
    need c 1 (!srRo user n)
    need c 3 (!(srSup n && user))
    if srLazy n then fillLazy c
    if n = 2 || n = 3 then landAll c
    let s ← get
    let v := s.dv c ra
    if n = 0 then mtsSr c (BitVec.ofNat 40 v)
    else modify (fun s => s.modCx c (fun x => x.putSpecial (s.width c) n v))
    finish c) s

/-! ### TRAP, RTE and YIELD (R274–R276, R293, R296) -/

def execTrap (c : Cid) (aux : Byte) (s : State) :=
  runInstr c .noRep (do
    need c 1 (decide (aux.toNat < 16))
    let pc := (s.cx c).pc
    let _ ← finish c
    pure (some { vec := 18, fault := pc, info := aux.toNat, synd := 0, hits := [] })) s

/-- Read bytes across lines, checked line by line before any is read. -/
def loadRange (c : Cid) (a n : Nat) : Act (List Byte) := do
  let s ← get
  let ps ← checkRange c (srPL (s.cx c).sr) .read (lineParts 16 a n)
  checkWp c (BitVec.ofNat 40 a) n false
  readPieces c ps

/-- Store bytes across lines, checked line by line before any is written. -/
def storeRange (c : Cid) (a : Nat) (bs : List Byte) : Act Unit := do
  let s ← get
  let ps ← checkRange c (srPL (s.cx c).sr) .write (lineParts 16 a bs.length)
  checkWp c (BitVec.ofNat 40 a) bs.length true
  writePieces c ps bs

/-- A little-endian field of a list of bytes. -/
def fieldAt (bs : List Byte) (off n : Nat) : Nat := leVal ((bs.drop off).take n)

/-- `k` consecutive fields. -/
def fieldsAt (bs : List Byte) (off n k : Nat) : List Nat := (List.range k).map (fun i => fieldAt bs (off + n * i) n)

/-- Are the reserved bits of a saved SR zero? -/
def srClean (sr : Word) : Bool := sr &&& 0x80060040C0 == 0

/-- An 8-byte aligned area address (R274, R297). -/
def areaOk (a : Word) : Act Unit := if a.toNat % 8 = 0 then pure () else raiseAt 5 a

/-- The lazy state of a context from its image (R269, R298). -/
def Ctx.putLazy (x : Ctx) (wide : Bool) (bs : List Byte) : Ctx :=
  let xw := if wide then 25 else 15
  let dw := if wide then 10 else 5
  let xm := if wide then 2 ^ 176 else 2 ^ 88
  let o := 4 * xw
  let ws := fieldsAt bs o 5 12
  let w (i : Nat) : Word := BitVec.ofNat 40 (ws.getD i 0)
  { x with
    x := Vector.ofFn (fun i : Fin 4 => BitVec.ofNat 176 (fieldAt bs (xw * i.val) xw % xm))
    ls := Vector.ofFn (fun i : Fin 4 => w i.val), le := Vector.ofFn (fun i : Fin 4 => w (4 + i.val))
    lc := Vector.ofFn (fun i : Fin 4 => w (8 + i.val))
    ph := BitVec.ofNat 80 (fieldAt bs (o + 60) dw), pl := BitVec.ofNat 80 (fieldAt bs (o + 60 + dw) dw)
    rc := BitVec.ofNat 40 (fieldAt bs (o + 60 + 2 * dw) 5), esw := BitVec.ofNat 40 (fieldAt bs (o + 65 + 2 * dw) 5) }

/-- No tally read is pending on a kind of register (R390). -/
def noPend (c : Cid) (p : PReg → Bool) : Act Unit := do
  let s ← get
  if (s.cx c).pend.any p then stop .stall

/-- RTE's checks of a frame (R274, order 2). -/
def frameOk (c : Cid) (wide : Bool) (sr : Word) (tag : Nat) : Bool :=
  let w := isWardenCid c
  bitsOf tag 24 16 == 0x7E10 && bitsOf tag 12 12 == c.toNat && bitsOf tag 6 2 == b2n wide &&
    (if w then srPL sr == 3#2 else decide ((srPL sr).toNat < 2)) && decide (srWD sr ≤ 4) && decide (srLD sr ≤ 4) &&
    !srLZ sr && srClean sr && !(w && srFB sr)

def execRte (c : Cid) (s : State) :=
  runInstr c .noRep (do
    needSup c
    flagsFree c
    let x := s.cx c
    let wide := s.wide c
    let f := frameSize wide
    areaOk x.sps
    let bs ← loadRange c x.sps.toNat f
    let pc := BitVec.ofNat 40 (fieldAt bs 0 5)
    let sr := BitVec.ofNat 40 (fieldAt bs 5 5)
    let tag := fieldAt bs 35 5
    need c 2 (frameOk c wide sr tag)
    targetCheck pc
    if bitOf tag 8 then noPend c (fun p => match p with | .x _ => true | _ => false)
    landAll c
    modify (fun s => s.modCx c (fun x =>
      let y := if bitOf tag 8 then x.putLazy wide (bs.drop 40) else x
      { y with
        pc := pc, sr := sr, fsr := BitVec.ofNat 11 (fieldAt bs 10 5), krr := BitVec.ofNat 32 (fieldAt bs 15 5)
        stag := BitVec.ofNat 12 (fieldAt bs 30 5), onVector := false, linesIn := y.linesIn + 1
        sps := if bitOf tag 9 then BitVec.ofNat 40 (fieldAt bs 25 5) else y.sps + BitVec.ofNat 40 f
        depthOpen := y.depthOpen - b2n (bitOf tag 10) }))
    if bitOf tag 9 then modify (fun s => s.put (F.CORE.CTX_CFG.RBUSY (s.corePage c) (ctxNo c)) 0)
    modify (fun s => (s.emptyLines (coreIdx c)).traceXfer 3 c x.pc 0)
    pure none) s
where
  /-- The saved PC must be a valid code address. -/
  targetCheck (t : Word) : Act Unit := if codeOk t then pure () else raiseAt 4 t

/-- Ready contexts of a core with a priority, other than one. -/
def State.samePrio (s : State) (c : Cid) : Option Cid :=
  ((coreCids (coreIdx c)).filter (fun d => d != c && (s.cx d).run == .ready && !(s.cx d).moving && s.prio d == s.prio c)).foldl
    (fun best d => match best with
      | none => some d
      | some b => if s.prefers b d then some d else some b) none

def execYield (c : Cid) (s : State) :=
  runInstr c .plain (do
    need c 2 (!srFB (s.cx c).sr)
    let r ← finish c
    match s.samePrio c with
    | none => pure r
    | some d =>
      modify (fun s => ((s.stopRun c .ready none).haltIfDue c).startRun d)
      pure r) s

/-! ### Save areas (R297, R298) -/

/-- What the save-area instructions check first: privilege, the fast bank (R281), the area's address. -/
def saveChecks (c : Cid) (a : Word) : Act Unit := do
  needSup c
  let s ← get
  need c 2 (!srFB (s.cx c).sr)
  areaOk a
  fillLazy c
  landAll c

/-- Is a pending register one of D0–D7, or a flag? -/
def pendLow : PReg → Bool
  | .d (.own _) | .flags => true
  | _ => false

/-- Is a pending register one of the upper area? -/
def pendHigh : PReg → Bool
  | .d (.win _ _) | .x _ => true
  | _ => false

def execSvctxL (c : Cid) (ra : RegNo) (s : State) :=
  runInstr c .plain (do
    let a := s.av c ra
    saveChecks c a
    noPend c pendLow
    let s ← get
    let x := s.cx c
    storeRange c ((a.toNat + 5) % 2 ^ 40) (lowerImage (s.wide c) x (setBit x.sr 2 false) (codeNext x.pc))
    putSr c (setBit x.sr 2 true)
    finish c) s
def execSvctxU (c : Cid) (ra : RegNo) (s : State) :=
  runInstr c .plain (do
    let a := s.av c ra
    saveChecks c a
    noPend c pendHigh
    let link ← loadRange c a.toNat 5
    let u := BitVec.ofNat 40 (leVal link)
    areaOk u
    let s ← get
    let x := s.cx c
    storeRange c u.toNat (upperImage (s.wide c) x)
    finish c) s
def execRsctxL (c : Cid) (ra : RegNo) (s : State) :=
  runInstr c .noRep (do
    let a := s.av c ra
    saveChecks c a
    noPend c pendLow
    let dw := s.width c / 8
    let bs ← loadRange c ((a.toNat + 5) % 2 ^ 40) (50 + 8 * dw)
    let sr := BitVec.ofNat 40 (fieldAt bs (40 + 8 * dw) 5)
    let pc := BitVec.ofNat 40 (fieldAt bs (45 + 8 * dw) 5)
    need c 3 (if isWardenCid c then srPL sr == 3#2 else decide ((srPL sr).toNat < 2))
    need c 2 (!srFB sr && !srLZ sr && decide (srWD sr ≤ 4) && decide (srLD sr ≤ 4) && srClean sr)
    (if codeOk pc then pure () else raiseAt 4 pc)
    modify (fun s => s.modCx c (fun x => { x with
      a := Vector.ofFn (fun i : Fin 15 => if i.val < 8 then BitVec.ofNat 40 (fieldAt bs (5 * i.val) 5) else x.a[i])
      d := Vector.ofFn (fun i : Fin 8 => BitVec.ofNat 80 (fieldAt bs (40 + dw * i.val) dw))
      sr := sr }))
    transfer c pc) s
def execRsctxU (c : Cid) (ra : RegNo) (s : State) :=
  runInstr c .noRep (do
    let a := s.av c ra
    saveChecks c a
    noPend c pendHigh
    let link ← loadRange c a.toNat 5
    let u := BitVec.ofNat 40 (leVal link)
    areaOk u
    let wide := s.wide c
    let dw := s.width c / 8
    let bs ← loadRange c u.toNat (if wide then 580 else 370)
    need c 2 (fieldAt bs 0 5 == b2n wide)
    let o := 50 + 32 * dw
    let t := o + (if wide then 190 else 140)
    modify (fun s => s.modCx c (fun x =>
      { x.putLazy wide (bs.drop o) with
        a := Vector.ofFn (fun i : Fin 15 => if i.val < 8 then x.a[i] else BitVec.ofNat 40 (fieldAt bs (5 + 5 * (i.val - 8)) 5))
        spu := BitVec.ofNat 40 (fieldAt bs 40 5), sps := BitVec.ofNat 40 (fieldAt bs 45 5)
        win := Vector.ofFn (fun w : Fin 4 => Vector.ofFn (fun r : Fin 8 =>
          BitVec.ofNat 80 (fieldAt bs (50 + 8 * dw * w.val + dw * r.val) dw)))
        fsr := BitVec.ofNat 11 (fieldAt bs t 5), krr := BitVec.ofNat 32 (fieldAt bs (t + 5) 5)
        stag := BitVec.ofNat 12 (fieldAt bs (t + 10) 5)
        vbr := BitVec.ofNat 40 (fieldAt bs (t + 15) 5 / 4096 * 4096) }))
    finish c) s

/-- SETROLE (R107). -/
def execSetrole (c : Cid) (s : State) :=
  runInstr c .plain (do
    needSup c
    modify (fun s => s.modCx c (fun x => { x with role := x.role + 1 }))
    finish c) s

/-! ### Keys and translation registers (R311, R326–R328) -/

/-- Does a set of rights exceed another for a key from 1 to 15 (R327)? -/
def rightsExceed (new old : BitVec 32) : Bool :=
  (List.range 15).any (fun i => decide (bitsOf old.toNat (2 * i + 2) 2 < bitsOf new.toNat (2 * i + 2) 2))

def execSetkr (c : Cid) (ra : RegNo) (s : State) :=
  runInstr c .plain (do
    regs c [ra]
    let v := BitVec.ofNat 32 (s.dv c ra)
    let x := s.cx c
    need c 3 (!(srPL x.sr == 0#2 && rightsExceed v x.krr))
    modify (fun s => s.modCx c (fun x => x.putSpecial 40 18 v.toNat))
    finish c) s

/-- A word of a BTR (R310). -/
def Btr.word (b : Btr) (w : Nat) : Word :=
  match w with
  | 0 => b.vbase | 1 => b.size | 2 => b.pbase | _ => b.attr

/-- Replace a word of a BTR. -/
def Btr.setWord (b : Btr) (w : Nat) (v : Word) : Btr :=
  match w with
  | 0 => { b with vbase := v } | 1 => { b with size := v } | 2 => { b with pbase := v } | _ => { b with attr := v }

/-- The bits of a BTR word that must be zero. -/
def btrZero (w : Nat) : Word :=
  match w with
  | 0 => 0xFFFF | 1 => 0xFFFF000000 | 2 => 0xFFF | _ => 0xFFFFFFFF80

def execMtbtr (c : Cid) (ra : RegNo) (aux : Byte) (s : State) :=
  runInstr c .plain (do
    need c 1 (decide (aux.toNat < 32))
    regs c [ra]
    needSup c
    let n := aux.toNat % 8
    let w := aux.toNat / 8
    let v := BitVec.ofNat 40 (s.dv c ra)
    need c 1 (v &&& btrZero w == 0 && !(w == 3 && getF v 2 2 == 3))
    modify (fun s =>
      let x := s.cx c
      let nb := x.btr.setIfInBounds n (((x.btr[n]?).getD ⟨0, 0, 0, 0⟩).setWord w v)
      { s.setCx c { x with btr := nb, staleBtr := x.staleBtr ++ [x.btr] } with inval := s.inval ++ [(c, .btr)] })
    finish c) s
def execMfbtr (c : Cid) (rd : RegNo) (aux : Byte) (s : State) :=
  runInstr c .plain (do
    need c 1 (decide (aux.toNat < 32))
    regs c [rd]
    needSup c
    putD c rd ((((s.cx c).btr[aux.toNat % 8]?).getD ⟨0, 0, 0, 0⟩).word (aux.toNat / 8)).toNat
    finish c) s

/-- A frame's key-store byte may be written by a context (R328): code store and on-chip SRAM by a warden. -/
def keyWritable (c : Cid) (pa : Word) : Act Unit := do
  let s ← get
  let rg := s.regionOf c pa.toNat
  let key := s.keyAt pa.toNat
  if (rg == .codeStore || rg == .sram) && !isWardenCid c then
    raiseSynd 8 pa (1 + 5 * 16 + 0x80 * key + 0x800 * keyRight (s.cx c).krr (srPL (s.cx c).sr) key)

/-- Change a frame's key-store byte; a core that holds the old one in its key cache may still use it until SYNC.T (R334). -/
def changeKey (c : Cid) (frame : Nat) (b : Byte) : Act Unit :=
  modify (fun s => { s.setKeyByte frame b with inval := s.inval ++ [(c, .key frame)] })

def execSetfk (c : Cid) (ra rb : RegNo) (aux : Byte) (s : State) :=
  runInstr c .plain (do
    let m := aux.toNat
    need c 1 (m != 0 && decide (m < 8))
    regs c [rb]
    needSup c
    flagsFree c
    let v := s.dv c rb % 2 ^ 40
    need c 1 (decide (v < 64))
    let pa := s.av c ra
    keyWritable c pa
    let has := (s.regionOf c pa.toNat).hasKey
    if has then
      let f := pa.toNat / 4096
      let mask : Byte := (if bitOf m 0 then 0xF#8 else 0) ||| (if bitOf m 1 then 0x10#8 else 0) ||| (if bitOf m 2 then 0x20#8 else 0)
      changeKey c f ((s.keyByte f &&& ~~~mask) ||| (BitVec.ofNat 8 v &&& mask))
    let s ← get
    putSr c (setBit (s.cx c).sr 2 has)
    finish c) s
def execGetfk (c : Cid) (rd ra : RegNo) (s : State) :=
  runInstr c .plain (do
    regs c [rd]
    needSup c
    let pa := (s.av c ra).toNat
    putD c rd (if (s.regionOf c pa).hasKey then (s.keyByte (pa / 4096)).toNat else 0)
    finish c) s
def execClrfr (c : Cid) (rd ra : RegNo) (aux : Byte) (s : State) :=
  runInstr c .plain (do
    need c 1 (decide (aux.toNat < 2))
    regs c [rd]
    needSup c
    let pa := s.av c ra
    keyWritable c pa
    let f := pa.toNat / 4096
    if (s.regionOf c pa.toNat).hasKey then
      let b := s.keyByte f
      changeKey c f (b &&& ~~~(if aux = 1#8 then 0x30#8 else 0x10#8))
      putD c rd b.toNat
    else putD c rd 0
    finish c) s

/-! ### Invalidation (R333–R337) -/

/-- Every access that any core has begun is performed: its buffered stores leave. -/
def State.drainAll (s : State) : State := (s.core.map (·.1)).foldl drainCore s

/-- Apply every invalidation that a context issued, and perform the accesses that began before (R336). DEDUCED, log 24. -/
def State.applyOwn (s : State) (c : Cid) : State :=
  let mine := s.inval.filter (fun p => p.1 == c)
  (mine.foldl (fun (s : State) p => s.applyInval p.1 p.2) { s with inval := s.inval.filter (fun p => p.1 != c) }).drainAll

/-- Issue an invalidation. -/
def invalidate (c : Cid) (rb : List RegNo) (f : State → Inval) : Act (Option Exc) := do
  regs c rb
  needSup c
  modify (fun s => { s with inval := s.inval ++ [(c, f s)] })
  finish c

/-- The STAG a register names. -/
def State.stagOf (s : State) (c : Cid) (rb : RegNo) : BitVec 12 := BitVec.ofNat 12 (s.dv c rb)

def execTlbiVa (c : Cid) (ra rb : RegNo) (s : State) :=
  runInstr c .plain (invalidate c [rb] (fun s => .tlbVa (s.stagOf c rb) ((s.av c ra).toNat / 4096))) s
def execTlbiS (c : Cid) (rb : RegNo) (s : State) := runInstr c .plain (invalidate c [rb] (fun s => .tlbS (s.stagOf c rb))) s
def execTlbiAll (c : Cid) (s : State) := runInstr c .plain (invalidate c [] (fun _ => .tlbAll)) s
def execWalkiVa (c : Cid) (ra rb : RegNo) (s : State) :=
  runInstr c .plain (invalidate c [rb] (fun s => .walkVa (s.stagOf c rb) ((s.av c ra).toNat / 65536))) s
def execWalkiS (c : Cid) (rb : RegNo) (s : State) := runInstr c .plain (invalidate c [rb] (fun s => .walkS (s.stagOf c rb))) s
def execWalkiAll (c : Cid) (s : State) := runInstr c .plain (invalidate c [] (fun _ => .walkAll)) s

/-- The oldest issued invalidation is applied on every core. -/
def execInvalidationApplied (s : State) : Host.Outcome State Fault Refusal :=
  .next (match s.inval with
    | [] => s
    | (c, i) :: r => ({ s with inval := r } : State).applyInval c i)

/-! ### Ordering (R340–R344, R262) -/

/-- Every earlier store of the context is performed. -/
def syncBody (c : Cid) : Act (Option Exc) := do
  modify (fun s => s.drainCtx c)
  finish c

/-- Has the device a store into an Ixlink window that is not yet performed at its target: its packet waits here, or the neighbour
has not acknowledged it (R340, R569, R574)? Whose context made it is not kept. DEDUCED, log 98. -/
def State.remoteStores (s : State) : Bool :=
  (s.ixHold ++ s.ix.toList.flatMap (fun p => p.txq ++ p.replay)).any (fun p => p.type == 0x72 && p.src == s.selfId)

/-- Has a context a posting that has not entered the tally engine (R342, R372)? -/
def State.postsWaiting (s : State) (c : Cid) : Bool :=
  (s.tports.toList.flatten).any (fun o => o.cid == c && o.origin.isNone && (o.kind == .post || o.kind == .postl))

def execSync (c : Cid) (s : State) := runInstr c .plain (syncBody c) s
def execSyncD (c : Cid) (s : State) :=
  runInstr c .plain (do
    modify (fun s => s.drainCtx c)
    let s ← get
    if s.remoteStores then stop .stall
    finish c) s
def execSyncP (c : Cid) (s : State) :=
  runInstr c .plain (do
    if s.postsWaiting c then stop .stall
    syncBody c) s
def execSyncT (c : Cid) (s : State) :=
  runInstr c .plain (do
    modify (fun s => s.applyOwn c)
    finish c) s
def execIsync (c : Cid) (s : State) :=
  runInstr c .plain (do
    modify (fun s => (s.drainCtx c).emptyLines (coreIdx c))
    finish c) s

/-! ### Events of the pipeline and the scheduler -/

/-- A line from DRAM arrives: the context that missed is ready again (R255). -/
def execDataLineArrival (c : Cid) (s : State) : Host.Outcome State Fault Refusal :=
  .next (if (s.cx c).wait == some .line then (s.makeReady c).dispatch (coreIdx c) else s)

/-- The oldest buffered store of a core is written and made visible (R252). -/
def execStoreBufferDrain (k : Fin 68) (s : State) : Host.Outcome State Fault Refusal :=
  .next (if s.coreLive k then s.drainOne k else s)

/-- A prefetch makes no check, raises nothing and changes nothing that software sees (R346). -/
def execHwPrefetch (_ : Fin 68) (_ : Word) (s : State) : Host.Outcome State Fault Refusal := .next s

/-- Is a vector one that a running context can take (R264)? -/
def takenVector (v : Nat) : Bool :=
  (decide (1 ≤ v) && decide (v ≤ 13)) || (decide (16 ≤ v) && decide (v ≤ 19)) || (decide (32 ≤ v) && decide (v ≤ 48))

/-- Exception entry (R267) for a vector, fault address, INFO and SYNDROME: the exceptions that the machine itself raises and no
instruction's meaning does come by it, such as vector 16 with SOURCE 1 or 2 for a word in the L2 or the last-level cache
(R331). DEDUCED, log 20. -/
def execExceptionEntry (c : Cid) (vec : BitVec 6) (fault : Word) (info : BitVec 10) (synd : BitVec 24) (s : State) :
    Host.Outcome State Fault Refusal :=
  .next (if takenVector vec.toNat then
      s.entryAt c { vec := vec.toNat, fault := fault, info := info.toNat, synd := synd.toNat, hits := [] }
    else s)

/-- A context takes its highest-ranked pending interrupt at a boundary (R288, R289). -/
def execInterruptEntry (c : Cid) (s : State) : Host.Outcome State Fault Refusal :=
  .next (match s.pendingInt c with
    | none => s
    | some n =>
      let e := s.irtOf n
      s.entryAt c { vec := if e.urgent then 48 else 32 + e.level, fault := 0, info := n, synd := 0, hits := [] })

/-- The router presents an asserted source to its target's core: a waiting target that would take it becomes
ready (R291, R294). -/
def State.present (s : State) (n : Nat) : State :=
  let c := (s.irtOf n).target
  if s.takes c n then (s.makeReady c).dispatch (coreIdx c) else s

def execSourceAssert (n : BitVec 10) (s : State) : Host.Outcome State Fault Refusal := .next (s.present n.toNat)

/-- Would the rules of R292 choose a ready context over the running one? Equals stay. -/
def State.beats (s : State) (r d : Cid) : Bool :=
  let rank (c : Cid) : Nat := match s.pendingInt c with | some n => s.rank n + 1 | none => 0
  decide (rank r < rank d) || (rank r == rank d && decide (s.prio r < s.prio d))

/-- A core switches: an idle core runs its choice, and a ready context that R292 chooses over the running one
replaces it at its boundary (R93, R254, R293). -/
def execContextSwitch (k : Fin 68) (s : State) : Host.Outcome State Fault Refusal :=
  .next (
    if s.coreLive k then
      match s.choice k, s.running k with
      | some d, none => s.startRun d
      | some d, some r =>
        if s.beats r d && !srFB (s.cx r).sr && !(s.cx r).atEngine then (((s.stopStr r).stopRun r .ready none).haltIfDue r).startRun d else s
      | none, _ => s
    else s)

end Sys2Proof.Machine
end

