-- ==== Sys2Proof/Machine/TallyIsa.lean ====
section
/-! DEFINITION. The instructions of majors 0xD0 to 0xD2 and the events of the tally engine (R352–R367,
R378–R392). -/

namespace Sys2Proof.Machine

/-- The tally reject (R358): vector 17 with a reason; the fault address is zero. -/
def reject {α : Type} (reason : Nat) (remote : Bool) : Act α := raiseSynd 17 0 (reason + 16 * b2n remote)

/-- The device's rules for an account number (R353), and the right a context needs (R352). Answers the number
and whether it is remote. -/
def checkAcct (c : Cid) (ra : RegNo) (right : Nat) (pset : Bool) : Act (BitVec 21 × Bool) := do
  let s ← get
  let v := s.dv c ra % 2 ^ 40
  let n := BitVec.ofNat 21 v
  let dev := devOf n
  let remote := dev != s.selfId
  if 2 ^ 21 ≤ v then reject 0 false
  if remote && !s.flag (F.TLY.DEV_MAP.PRESENT dev) then reject 0 false
  if remote && pset then reject 0 true
  let x := s.cx c
  let key := if remote then s.get (F.TLY.DEV_MAP.KEY dev) else s.acctKey (acctOf n)
  if keyRight x.krr (srPL x.sr) key < right then reject 1 remote
  pure (n, remote)

/-- The engine is enabled (R357, order 5). DEDUCED, log 47. -/
def needTally (remote : Bool) : Act Unit := do
  let s ← get
  if !s.enabled pgTLY then reject 3 remote

/-- A signed operand extended to 22 digits or 88 bits (R355): `w` bits of a register or pair. -/
def extend88 (b : Bool) (w v : Nat) : BitVec 88 :=
  BitVec.ofNat 88 (if b then sext w 88 v else decOf 22 (decVal (w / 4) v))

/-- The context's intake port has room (R370); a full one stalls the instruction. -/
def portRoom (c : Cid) : Act Unit := do
  let s ← get
  if 64 ≤ s.tports[tallyPort c].length then stop .stall

/-- Allocate a ticket, writing its handle to D[RD] and TKT, or wait for one (R357 order 8, R362, R365). -/
def takeTicket (c : Cid) (rd : RegNo) (op : Nat) : Act Nat := do
  let s ← get
  if !s.ticketFree c then stop (if srFB (s.cx c).sr then .stall else .out .freeTicket)
  let (i, h, s1) := s.allocTicket c op
  set ((s1.modCx c (fun x => { x with tkt := h })).setD c rd h.toNat)
  pure i

/-- An operation of a context with nothing in its optional fields. -/
def TOp.of (k : TKind) (c : Cid) (n : BitVec 21) (b : Bool) : TOp :=
  { kind := k, acct := n, b := b, amount := 0, count := 0, floor := 0, psn := 0, ticket := none, cid := c, xreg := 0
    dloc := .own 0, lpsn := false, wide := false, pc := 0, origin := none, tag := 0 }

/-- Send an operation to the intake. -/
def enter (c : Cid) (o : TOp) : Act Unit := modify (fun s => s.tallyPush (tallyPort c) o)

/-- A posting: its operands, the checks of R357, a ticket where it has one, and the intake. -/
def posting (c : Cid) (rd : Option RegNo) (ra rb rc : RegNo) (rf : Option RegNo) (pair b : Bool) : Act (Option Exc) := do
  let s ← get
  let wide := s.wide c
  if pair && !wide then need c 1 (rb.val % 2 == 0)
  regs c (rd.toList ++ [ra, rb] ++ (if pair && !wide then [rb + 1] else []) ++ [rc] ++ rf.toList)
  let (n, remote) ← checkAcct c ra 2 false
  let w := if wide then 80 else if pair then 80 else 40
  let v := if pair && !wide then s.dv c rb % 2 ^ 40 * 2 ^ 40 + s.dv c (rb + 1) % 2 ^ 40 else s.dv c rb
  let fl := match rf with
    | some f => s.dv c f
    | none => 0
  if !b then
    decOk c (w / 4) v
    if rf.isSome then decOk c (s.digits c) fl
  needTally remote
  portRoom c
  let o : TOp := { TOp.of (if rf.isSome then .postl else .post) c n b with
    amount := extend88 b w v, wide := decide (w = 80), count := BitVec.ofNat 40 (s.dv c rc), floor := extend88 b (s.width c) fl }
  match rd with
  | some d =>
    let i ← takeTicket c d (if rf.isSome then 1 else 0)
    enter c { o with ticket := some i }
  | none => enter c o
  finish c

def execPost (c : Cid) (ra rb rc : RegNo) (b : Bool) (s : State) :=
  runInstr c .plain (posting c none ra rb rc none false b) s
def execPostT (c : Cid) (rd ra rb rc : RegNo) (b : Bool) (s : State) :=
  runInstr c .plain (posting c (some rd) ra rb rc none false b) s
def execPostW (c : Cid) (ra rb rc : RegNo) (b : Bool) (s : State) :=
  runInstr c .plain (posting c none ra rb rc none true b) s
def execPostWt (c : Cid) (rd ra rb rc : RegNo) (b : Bool) (s : State) :=
  runInstr c .plain (posting c (some rd) ra rb rc none true b) s
def execPostl (c : Cid) (rd ra rb rc rf : RegNo) (b : Bool) (s : State) :=
  runInstr c .plain (posting c (some rd) ra rb rc (some rf) false b) s

/-- A read of an account (R357, R379, R390): X[RB], D[RD] and the flags stay pending until it lands. A local read holds the
context's next instruction until its bank has checked BAD, since vector 17 with reason 5 is precise; before SEEDED, when no
read is granted, it does not. DEDUCED, log 103. -/
def acctRead (c : Cid) (k : TKind) (xb rd ra : RegNo) (p : Bool) : Act (Option Exc) := do
  let x ← xField c xb
  regs c [rd, ra]
  flagsFree c
  let (n, remote) ← checkAcct c ra 1 false
  needTally remote
  let s ← get
  if k == .preadc && !s.flag F.TLY.CUT_STATUS.HELD then reject 4 remote
  portRoom c
  fillLazy c
  let s ← get
  let l := s.dLoc c rd
  let pc := (s.cx c).pc
  let hold := if !remote && s.flag F.TLY.SEEDED then [PReg.check] else []
  modify (fun s => s.modCx c (fun y => { y with pend := y.pend ++ [.x x, .d l, .flags] ++ hold }))
  enter c { TOp.of k c n false with xreg := x, dloc := l, lpsn := p, pc := pc }
  finish c

def execPread (c : Cid) (xb rd ra : RegNo) (p : Bool) (s : State) := runInstr c .plain (acctRead c .pread xb rd ra p) s
def execPreadc (c : Cid) (xb rd ra : RegNo) (s : State) := runInstr c .plain (acctRead c .preadc xb rd ra false) s

/-- The ticket a handle names, or vector 17 with reason 2 (R366). -/
def checkHandle (c : Cid) (ra : RegNo) : Act Nat := do
  let s ← get
  let v := s.dv c ra % 2 ^ 40
  let i := v % 2 ^ 15
  let t := s.ticket i
  if !(bitOf v 15 && bitsOf v 24 12 == c.toNat && t.held && !t.flushed && t.cid == c &&
      t.gen.toNat == bitsOf v 16 8) then reject 2 false
  pure i

/-- No wait is possible with SR.FB 1 (R93, R357). -/
def needNoFb (c : Cid) : Act Unit := do
  let s ← get
  need c 2 (!srFB (s.cx c).sr)

def execWaitt (c : Cid) (ra : RegNo) (s : State) :=
  runInstr c .plain (do
    regs c [ra]
    needNoFb c
    let i ← checkHandle c ra
    needTally false
    if !s.tktComplete (s.ticket i) then stop (.out (.ticket i))
    finish c) s
def execWaitta (c : Cid) (s : State) :=
  runInstr c .plain (do
    needNoFb c
    needTally false
    if !s.allComplete c then stop (.out .allTickets)
    finish c) s
/-- TKRD (R363). DEVICE of a pending ticket is not stated: a free value. DESIGN CHOICE, log 87. -/
def execTkrd (c : Cid) (rd ra : RegNo) (s : State) :=
  runInstr c .plain (do
    need c 1 (s.wide c || rd.val % 2 == 0)
    regs c [rd, rd + 1, ra]
    flagsFree c
    let i ← checkHandle c ra
    needTally false
    let t := s.ticket i
    let ok := s.tktComplete t
    let st := if ok then t.status else 5
    if ok then modify (fun s => s.releaseTicket i)
    let dev := if ok then t.device else Config.freeNat s.free % 8
    modify (fun s => { s with free := s.free + 1 })
    putD c rd (st + 16 * b2n ok + 32 * dev + 256 * t.op)
    putD c (rd + 1) (if ok then t.psn.toNat else 0)
    putSr c (setBit (setBit (s.cx c).sr 2 (st == 0)) 0 ok)
    finish c) s

def execPset (c : Cid) (rd ra xb rc : RegNo) (b : Bool) (s : State) :=
  runInstr c .plain (do
    let x ← xField c xb
    regs c [rd, ra, rc]
    needSup c
    fillLazy c
    let (n, remote) ← checkAcct c ra 2 true
    let s ← get
    let v := s.xv c x % 2 ^ 88
    if !b then decOk c 22 v
    needTally remote
    portRoom c
    let i ← takeTicket c rd 2
    enter c { TOp.of .pset c n b with amount := BitVec.ofNat 88 v, count := BitVec.ofNat 40 (s.dv c rc), ticket := some i }
    finish c) s

/-- PCUT and PREL (R376, R380). -/
def cutOpBody (c : Cid) (rd : RegNo) (k : TKind) (op : Nat) : Act (Option Exc) := do
  regs c [rd]
  needSup c
  needTally false
  portRoom c
  let i ← takeTicket c rd op
  enter c { TOp.of k c 0 false with ticket := some i }
  finish c

def execPcut (c : Cid) (rd : RegNo) (s : State) := runInstr c .plain (cutOpBody c rd .pcut 3) s
def execPrel (c : Cid) (rd : RegNo) (s : State) := runInstr c .plain (cutOpBody c rd .prel 4) s

/-! ### Events of the engine -/

/-- A context waiting for a free ticket is ready again once one is free within its limits (R365). -/
def execTicketWaitReady (c : Cid) (s : State) : Host.Outcome State Fault Refusal :=
  .next (if (s.cx c).wait == some .freeTicket && s.ticketFree c then (s.makeReady c).dispatch (coreIdx c) else s)

/-- One FCLK of the intake (R371). A global cut that waits is granted first, and a remote operation that waits enters port 9 where a
grant made room (R370, R582). -/
def execGrantCycle (s : State) : Host.Outcome State Fault Refusal := .next s.cutDue.grantCycle.ixAdmit

/-- May the banks work: powered, their clock running? -/
def State.banksRun (s : State) : Bool := s.powered 11 && !s.stopped && !s.coldClear && !s.frozen none

/-- A bank applies one operation (R359, R360, R379, R385). -/
def execBankApply (k : Fin 8) (e : EccErr) (s : State) : Host.Outcome State Fault Refusal :=
  .next (if s.banksRun then s.bankApply k e else s)

def execCutReady (s : State) : Host.Outcome State Fault Refusal := .next (if s.banksRun then s.cutReady else s)
def execPrelSweepEnd (s : State) : Host.Outcome State Fault Refusal := .next (if s.banksRun then s.sweepEnd else s)
def execStampingDone (s : State) : Host.Outcome State Fault Refusal := .next (if s.banksRun then s.stampingDone else s)

/-- The cold clear ends: every field of every account is zero (R349). -/
def execColdClearDone (s : State) : Host.Outcome State Fault Refusal :=
  .next (if s.coldClear then { s with coldClear := false, acct := [], ceBase := false, fmtRanges := [] } else s)

def execReplayRecord (s : State) : Host.Outcome State Fault Refusal := .next s.replayRecord

/-- The scrub reads one record (R392). -/
def execTallyScrub (a : BitVec 18) (e : EccErr) (s : State) : Host.Outcome State Fault Refusal :=
  .next (if s.banksRun then s.readRecord a.toNat e else s)

/-- A remote read has had no answer for 1 ms (R389). -/
def execRemoteReadTimeout (tag : BitVec 16) (s : State) : Host.Outcome State Fault Refusal :=
  .next (match s.remoteOps.find? (fun o => o.tag == tag.toNat && (o.kind == .pread || o.kind == .preadc)) with
    | some o => ({ s with remoteOps := s.remoteOps.erase o } : State).landLost o
    | none => s)

end Sys2Proof.Machine
end

