-- ==== Sys2Proof/Machine/QueueIsa.lean ====
section
/-! DEFINITION. The instructions of major 0xD3 and the queue manager's own events (R410–R419, R427). -/

namespace Sys2Proof.Machine

/-- Vector 11 (R413): a reason, a queue number and a fault address. -/
def queueReject {α : Type} (reason n : Nat) (fault : Word) : Act α := raiseSynd 11 fault (reason + 16 * n)

/-- The queue number of D[RA] (R411). -/
def queueNo (c : Cid) (ra : RegNo) (fault : Word) : Act Nat := do
  let s ← get
  let v := s.dv c ra % 2 ^ 40
  if 8192 ≤ v then queueReject 0 (v % 8192) fault
  pure v

/-- The 64 bytes at A[RB] for ENQ and DEQ (R412, order 6). -/
def elementAt (c : Cid) (a : Word) (k : AccKind) : Act Piece := do
  let s ← get
  if a.toNat % 64 != 0 then raiseAt 5 a
  let ps ← checkAcc c (srPL (s.cx c).sr) a a.toNat 64 k .string
  consume a k ps false
  checkWp c a 64 (k == .write)
  match ps with
  | p :: _ => pure p
  | [] => stop .stall

/-- A transfer of a context is at the queue manager: the context issues nothing until it ends (R343). With no transfer tag free
the instruction stalls (R412, order 7). -/
def sendQueue (c : Cid) (o : QOp) : Act (Option Exc) := do
  let s ← get
  if !s.tagFree false then stop .stall
  modify (fun s => (s.drainCtx c).queuePush (queuePort c) o)
  let r ← finish c
  modify (fun s => s.modCx c (fun x => { x with atEngine := true }))
  pure r

def execEnq (c : Cid) (rd ra rb : RegNo) (s : State) :=
  runInstr c .plain (do
    regs c [rd, ra]
    flagsFree c
    let a := s.av c rb
    let n ← queueNo c ra a
    let q := s.queue n
    let x := s.cx c
    if keyRight x.krr (srPL x.sr) q.key < 2 then queueReject 1 n a
    if q.pmode then queueReject 3 n a
    let p ← elementAt c a .read
    modify (fun s => s.drainCtx c)
    let s ← get
    let bs := if p.region.isMem then s.bytes p.pa 64 else List.replicate 64 0
    sendQueue c { queue := n, take := false, warden := isWardenCid c, type := elType bs, len := elLen bs
                  src := c.toNat, payload := bs.drop 8, dest := 0, origin := .ctx c (s.dLoc c rd) }) s
def execDeq (c : Cid) (rd ra rb : RegNo) (s : State) :=
  runInstr c .plain (do
    regs c [rd, ra]
    flagsFree c
    let a := s.av c rb
    let n ← queueNo c ra a
    let q := s.queue n
    let w := isWardenCid c
    if !q.mine c && !w then queueReject 2 n a
    if q.ckind != 0 && !w then queueReject 3 n a
    let p ← elementAt c a .write
    sendQueue c { queue := n, take := true, warden := w, type := 0, len := 0, src := 0, payload := [], dest := p.pa
                  origin := .ctx c (s.dLoc c rd) }) s
/-- WAITQ (R412, R415): the first deliverable queue, or a wait. No wait is possible with SR.FB 1 (R93). While the queue manager
restarts it makes no selection (R433). -/
def execWaitq (c : Cid) (rd : RegNo) (s : State) :=
  runInstr c .plain (do
    regs c [rd]
    needNoFb c
    if s.handsOver c then
      fillLazy c
      modify (fun s => s.handOver c)
      return none
    if !s.queues.any (fun p => p.2.mine c && p.2.wake) then queueReject 4 0 0
    if s.restarting pgQMG then stop .stall
    match s.select c with
    | (some n, s1) =>
      set s1
      putD c rd n
      finish c
    | (none, s1) =>
      set ((s1.stopRun c .waiting (some (.queues rd))).dispatch (coreIdx c))
      pure none) s
def execQcnt (c : Cid) (rd ra : RegNo) (s : State) :=
  runInstr c .plain (do
    regs c [rd, ra]
    flagsFree c
    let n ← queueNo c ra 0
    let q := s.queue n
    let x := s.cx c
    if !q.mine c && keyRight x.krr (srPL x.sr) q.key < 1 then queueReject 1 n 0
    let st := if s.enabled pgQMG && q.valid then 0 else 6
    putD c rd (s.qStatus n st)
    putSr c (setBit (s.cx c).sr 2 (st == 0))
    finish c) s

/-! ### Events -/

/-- A bound queue gained an element or was rebound: the waiting context repeats its selection (R415). -/
def execWaitqWake (c : Cid) (s : State) : Host.Outcome State Fault Refusal :=
  .next (s.queueWake c)

def execOrphanNoticeSend (s : State) : Host.Outcome State Fault Refusal := .next s.sendOrphan
def execAgeStep (s : State) : Host.Outcome State Fault Refusal := .next (if s.live pgQMG then s.ageStep else s)

end Sys2Proof.Machine
end

