-- ==== Sys2Proof/Machine/RegRows.lean ====
section
/-! DEFINITION. The commands that are one write of a register by a requester (R727 and the rules each cites), and the block
steps that such a write starts and that complete later. -/

namespace Sys2Proof.Machine

/-! ### A requester's access to a register -/

/-- The exception that a context's access to a register takes before it reaches the page (R31, R39, R329 orders 5 and 6): a
misaligned one vector 5, one whose key right falls short vector 8. -/
def State.regFault (s : State) (c : Cid) (pl : BitVec 2) (a : Nat) (write : Bool) : Option (Nat × Nat) :=
  let key := s.keyAt a
  let right := keyRight (s.cx c).krr pl key
  if a % 8 ≠ 0 then some (5, 0)
  else if right < (if write then 2 else 1) then some (8, b2n write + 8 * b2n (pl == 0#2) + 0x80 * key + 0x800 * right)
  else none

/-- The context takes that exception. The command gives the physical address alone: the effective address, and the BTR that
covered it, are free. DESIGN CHOICE, log 100. -/
def State.regTrap (s : State) (c : Cid) (vec synd : Nat) : State :=
  let (n, s1) := s.draw
  s1.entryAt c { vec := vec, fault := Config.freeWord n, info := 0, hits := []
                 synd := if vec = 8 then synd + 0x2000 * (Config.freeNat n % 8) else synd }

/-- The older stores of the requester's context, which reach control space before its access does (R33). -/
def State.inOrder (s : State) (r : Requester) : State :=
  match r with
  | .ctx c _ => s.drainCtx c
  | _ => s

/-- A requester writes a whole register. DEDUCED, log 29. -/
def State.regWrite (s : State) (r : Requester) (a : Nat) (v : Word) : State :=
  if !s.canReach r then s
  else
    let s1 := s.inOrder r
    match r with
    | .ctx c pl =>
      if s1.regionOf c a = .unassigned then s1.unassigned r a true
      else (match s1.regFault c pl a true with
        | some (vec, synd) => s1.regTrap c vec synd
        | none => ctlWrite s1 r a v allBits)
    | _ => ctlWrite s1 r a v allBits

/-- A requester reads a register, for what the read does beside showing it. -/
def State.regRead (s : State) (r : Requester) (a : Nat) : State :=
  if !s.canReach r then s
  else
    let s1 := s.inOrder r
    match r with
    | .ctx c pl =>
      if s1.regionOf c a = .unassigned then s1.unassigned r a false
      else (match s1.regFault c pl a false with
        | some (vec, synd) => s1.regTrap c vec synd
        | none => (ctlRead s1 r a).2)
    | _ => (ctlRead s1 r a).2

/-- A requester writes one bit or field over the register's present value. -/
def State.fieldWrite (s : State) (r : Requester) (f : Fld) (v : Nat) : State :=
  let s1 := if s.canReach r then s.inOrder r else s
  s1.regWrite r f.addr (putF (s1.reg f.addr) f.lo f.len v)

/-- The page of a control-space page number (R29). -/
def ctlPage (p : BitVec 10) : Nat := ctlBase + 0x1000 * p.toNat

/-- The offset of a sealed register (R503). -/
def sealedReg (i : Fin 11) : Nat := if i.val < 8 then 0x100 + 8 * i.val else 0x140 + 8 * (i.val - 8)

/-- The transmit queue registers: USB control queues 0 to 15, UARTs 16 to 63, CAN 64 to 71. -/
def txqAddr (t : Nat) : Nat :=
  if t < 16 then R.USBP.CTLQ (pgUsb t) (t % 4)
  else if t < 64 then R.UARTP.UA_TXQ (pgUart (t - 16)) ((t - 16) % 16)
  else R.CANP.CAN_TXQ (t - 64)

/-- A HALT that is due takes effect (R302): a running context is at a boundary, and one that waits or is ready halts at once. A
transfer at the queue manager ends first. -/
def State.haltBoundary (s : State) (c : Cid) : State :=
  let x := s.cx c
  if s.haltDue c && (s.canRun c || ((x.run == .waiting || x.run == .ready) && !x.atEngine)) then (s.stopStr c).haltCtx c 5 0 0 0 else s

/-- A held context-halt message goes to HALT_QUEUE once the queue is valid and has room (R285, R286). -/
def State.sendHaltMsg (s : State) (c : Cid) : State :=
  match (s.cx c).heldMsg with
  | none => s
  | some m =>
    let n := s.get F.SYS.HALT_QUEUE.QUEUE
    if s.flag F.SYS.HALT_QUEUE.VALID && s.qAccepts n && s.hwGrants then
      ((s.modCx c (fun x => { x with heldMsg := none })).hwGrant 14).ringWrite n 7 m.length (0x6000 + c.toNat) m
    else s

/-- What the even core's contexts waited for through a transition is delivered when scheduling resumes (R116): complete tickets,
a deliverable queue, an interrupt. -/
def State.conjWake (s : State) (core : Nat) : State :=
  let s1 := (coreCids core).foldl (fun (s : State) c =>
    let t := (s.wakeTickets c).queueWake c
    if (t.pendingInt c).isSome then t.makeReady c else t) s
  s1.dispatch core

/-- An entry during whose transition R112 came to fail ends unjoined, as a refused one. DEDUCED, log 36. -/
def State.conjAbort (s : State) (clu k n : Nat) : State :=
  let p := pgClu clu
  let s1 := ((s.put ⟨R.CLU.CONJ_CTRL p, k, 1⟩ 0).put (F.CLU.CONJ_STATUS.BUSY p k) 0).conjHold clu k false
  ((s1.put (F.CLU.CONJ_STATUS.RESULT p k) n).pageInt p 2).dispatch (8 * clu + 2 * k)

/-- A Conjunction transition completes (R115, R116). -/
def State.conjComplete (s : State) (clu k : Nat) (join : Bool) : State :=
  let p := pgClu clu
  if s.flag (F.CLU.CONJ_STATUS.BUSY p k) && s.flag ⟨R.CLU.CONJ_CTRL p, k, 1⟩ == join && s.conjLanded clu k && !s.frozen (some clu)
  then
    let n := if join then s.conjRefuse clu k else 0
    (if n = 0 then s.conjFinish clu k join else s.conjAbort clu k n).conjWake (8 * clu + 2 * k)
  else s

/-! ### Control pages (R27–R48) -/

/-- R727: a write of the register at a control-space address. -/
def execRegisterWrite (r : Requester) (a : Word) (v : Word) (s : State) : Host.Outcome State Fault Refusal :=
  .next (
    if !inControl a.toNat || !s.canReach r then s
    else if r = .host ∧ a.toNat % 8 ≠ 0 then s.hostBad a.toNat true
    else s.regWrite r a.toNat v)

/-- R41: PG_INT_STATUS bits are cleared, ERR re-arming PG_ERR_SYNDROME. -/
def execPgIntStatusClear (r : Requester) (p : BitVec 10) (v : Word) (s : State) : Host.Outcome State Fault Refusal :=
  .next (s.regWrite r (R.HDR.PG_INT_STATUS (ctlPage p)) v)

/-- R44: PG_CTRL.EXPERT. -/
def execExpertSet (r : Requester) (p : BitVec 10) (on : Bool) (s : State) : Host.Outcome State Fault Refusal :=
  .next (s.fieldWrite r (F.HDR.PG_CTRL.EXPERT (ctlPage p)) (b2n on))

/-- R37, R38: PG_LOCK. -/
def execPgLockWrite (r : Requester) (p : BitVec 10) (v : Word) (s : State) : Host.Outcome State Fault Refusal :=
  .next (s.regWrite r (R.HDR.PG_LOCK (ctlPage p)) v)

/-- R45, R46: SYS.EXPERT_GRANT. -/
def execExpertGrantWrite (r : Requester) (v : Word) (s : State) : Host.Outcome State Fault Refusal :=
  .next (s.regWrite r R.SYS.EXPERT_GRANT v)

/-- R47: PG_CTRL.BLOCK_RESET. -/
def execBlockReset (r : Requester) (p : BitVec 10) (s : State) : Host.Outcome State Fault Refusal :=
  .next (s.fieldWrite r (F.HDR.PG_CTRL.BLOCK_RESET (ctlPage p)) 1)

/-- R47: a block restart completes. -/
def execBlockRestartDone (blk : Fin 25) (s : State) : Host.Outcome State Fault Refusal := .next (s.endRestart blk.val)

/-! ### Contexts, routing and Conjunction (R107, R113–R116, R284–R305) -/

/-- R301: START of a context. DEDUCED, log 35. -/
def execCtxStart (r : Requester) (c : Cid) (s : State) : Host.Outcome State Fault Refusal :=
  .next (if validCid c then s.regWrite r (R.CORE.CTX_CTRL (s.corePage c)) (BitVec.ofNat 40 (2 ^ ctxNo c)) else s)

/-- R302: HALT of a context. -/
def execCtxHalt (r : Requester) (c : Cid) (s : State) : Host.Outcome State Fault Refusal :=
  .next (if validCid c then s.regWrite r (R.CORE.CTX_CTRL (s.corePage c)) (BitVec.ofNat 40 (2 ^ (8 + ctxNo c))) else s)

/-- R107: ROLE_INC of a context. -/
def execRoleInc (r : Requester) (c : Cid) (s : State) : Host.Outcome State Fault Refusal :=
  .next (if validCid c then s.regWrite r (R.CORE.CTX_CTRL (s.corePage c)) (BitVec.ofNat 40 (2 ^ (16 + ctxNo c))) else s)

/-- R302: a HALT that is due takes effect at the boundary of a running context. -/
def execHaltTakesEffect (c : Cid) (s : State) : Host.Outcome State Fault Refusal := .next (s.haltBoundary c)

/-- R286: a held context-halt message is enqueued. -/
def execHaltMessageEnqueue (c : Cid) (s : State) : Host.Outcome State Fault Refusal := .next (s.sendHaltMsg c)

/-- R305: one routing entry is written. -/
def execIrtWrite (r : Requester) (v : Word) (s : State) : Host.Outcome State Fault Refusal :=
  .next (s.regWrite r R.SYS.IRT_WRITE v)

/-- R290: a software source is set or cleared. -/
def execSwi (r : Requester) (v : Word) (s : State) : Host.Outcome State Fault Refusal := .next (s.regWrite r R.SYS.SWI v)

/-- R113: a pair is asked to join. -/
def execConjEntry (r : Requester) (clu : Fin 8) (k : Fin 4) (s : State) : Host.Outcome State Fault Refusal :=
  .next (s.fieldWrite r ⟨R.CLU.CONJ_CTRL (pgClu clu.val), k.val, 1⟩ 1)

/-- R113: a pair is asked to separate. -/
def execConjExit (r : Requester) (clu : Fin 8) (k : Fin 4) (s : State) : Host.Outcome State Fault Refusal :=
  .next (s.fieldWrite r ⟨R.CLU.CONJ_CTRL (pgClu clu.val), k.val, 1⟩ 0)

/-- R115: a pair joins once its results have landed. -/
def execConjJoin (clu : Fin 8) (k : Fin 4) (s : State) : Host.Outcome State Fault Refusal :=
  .next (s.conjComplete clu.val k.val true)

/-- R116: a pair separates once its results have landed. -/
def execConjSeparate (clu : Fin 8) (k : Fin 4) (s : State) : Host.Outcome State Fault Refusal :=
  .next (s.conjComplete clu.val k.val false)

/-! ### The tally engine (R351–R398) -/

/-- R351: ENABLE of the tally engine. -/
def execTallyEnable (r : Requester) (s : State) : Host.Outcome State Fault Refusal :=
  .next (s.fieldWrite r (F.HDR.PG_CTRL.ENABLE pgTLY) 1)

/-- R382: PSN_NEXT is seeded. -/
def execPsnNextSeed (r : Requester) (v : Word) (s : State) : Host.Outcome State Fault Refusal :=
  .next (s.regWrite r R.TLY.PSN_NEXT v)

/-- R383: a replay run starts. -/
def execReplayStart (r : Requester) (s : State) : Host.Outcome State Fault Refusal :=
  .next (s.fieldWrite r F.TLY.REPLAY_CTRL.START 1)

/-- R386: replay is closed. -/
def execReplayFinish (r : Requester) (s : State) : Host.Outcome State Fault Refusal :=
  .next (s.fieldWrite r F.TLY.REPLAY_CTRL.FINISH 1)

/-- R369: the tickets of a context are released. -/
def execTktFlush (r : Requester) (t : Cid) (s : State) : Host.Outcome State Fault Refusal :=
  .next (s.regWrite r R.TLY.TKT_FLUSH (BitVec.ofNat 40 (t.toNat + 4096)))

/-- R398: a test error is armed. -/
def execEccInject (r : Requester) (a : BitVec 18) (double : Bool) (s : State) : Host.Outcome State Fault Refusal :=
  .next (s.regWrite r R.TLY.ECC_INJECT (BitVec.ofNat 40 (a.toNat + 2 ^ 18 * b2n double + 2 ^ 19)))

/-! ### The queue state window (R404–R409, R425, R426) -/

/-- R406: QCFG. -/
def execQcfgWrite (r : Requester) (q : BitVec 13) (v : Word) (s : State) : Host.Outcome State Fault Refusal :=
  .next (s.regWrite r (qwBase + 64 * q.toNat + 8) v)

/-- R406: QBASE. -/
def execQbaseWrite (r : Requester) (q : BitVec 13) (v : Word) (s : State) : Host.Outcome State Fault Refusal :=
  .next (s.regWrite r (qwBase + 64 * q.toNat) v)

/-- R407: QBIND. -/
def execQbindWrite (r : Requester) (q : BitVec 13) (v : Word) (s : State) : Host.Outcome State Fault Refusal :=
  .next (s.regWrite r (qwBase + 64 * q.toNat + 0x10) v)

/-- R409: QCMD.DISCARD. -/
def execDiscard (r : Requester) (q : BitVec 13) (s : State) : Host.Outcome State Fault Refusal :=
  .next (s.regWrite r (qwBase + 64 * q.toNat + 0x30) (BitVec.ofNat 40 (2 ^ 19)))

/-- R425: the tail doorbell. -/
def execTailDoorbell (r : Requester) (q : BitVec 13) (idx : BitVec 17) (s : State) : Host.Outcome State Fault Refusal :=
  .next (s.regWrite r (qwBase + 64 * q.toNat + 0x30) (BitVec.ofNat 40 (idx.toNat + 2 ^ 18)))

/-- R426: the head doorbell. -/
def execHeadDoorbell (r : Requester) (q : BitVec 13) (idx : BitVec 17) (s : State) : Host.Outcome State Fault Refusal :=
  .next (s.regWrite r (qwBase + 64 * q.toNat + 0x30) (BitVec.ofNat 40 (idx.toNat + 2 ^ 17 + 2 ^ 18)))

/-! ### The journal and its cartridges (R456–R476) -/

/-- R474: CTRL.CLOSE. -/
def execClose (r : Requester) (s : State) : Host.Outcome State Fault Refusal := .next (s.regWrite r R.JRN.CTRL 1)

/-- R468: CTRL.ROLL. -/
def execRoll (r : Requester) (s : State) : Host.Outcome State Fault Refusal := .next (s.regWrite r R.JRN.CTRL 2)

/-- R456: CTRL.ACCEPT with a slot. -/
def execAccept (r : Requester) (k : Fin 2) (s : State) : Host.Outcome State Fault Refusal :=
  .next (s.regWrite r R.JRN.CTRL (BitVec.ofNat 40 (4 + 8 * k.val)))

/-- R458: a read run starts. -/
def execReadStart (r : Requester) (s : State) : Host.Outcome State Fault Refusal :=
  .next (s.fieldWrite r F.JRN.RD_CTRL.START 1)

/-- R472: ARCHIVED. -/
def execArchivedWrite (r : Requester) (v : Word) (s : State) : Host.Outcome State Fault Refusal :=
  .next (s.regWrite r R.JRN.ARCHIVED v)

/-- R476: CTRL.IDENTIFY. -/
def execIdentify (r : Requester) (k : Fin 2) (s : State) : Host.Outcome State Fault Refusal :=
  .next (s.regWrite r (R.CRT.CTRL (pgCrt k.val)) 1)

/-- R476: CTRL.POWER_OFF. -/
def execPowerOff (r : Requester) (k : Fin 2) (s : State) : Host.Outcome State Fault Refusal :=
  .next (s.regWrite r (R.CRT.CTRL (pgCrt k.val)) 2)

/-- R476: CTRL.WIPE_OK. -/
def execWipeOk (r : Requester) (k : Fin 2) (s : State) : Host.Outcome State Fault Refusal :=
  .next (s.regWrite r (R.CRT.CTRL (pgCrt k.val)) 4)

/-! ### Weigh channels (R479–R510) -/

/-- R489: CMD.ZERO. -/
def execZero (r : Requester) (ch : Fin 64) (s : State) : Host.Outcome State Fault Refusal :=
  .next (s.regWrite r (R.CH.CMD (pgCh ch.val)) 1)

/-- R490: CMD.TARE. -/
def execTare (r : Requester) (ch : Fin 64) (s : State) : Host.Outcome State Fault Refusal :=
  .next (s.regWrite r (R.CH.CMD (pgCh ch.val)) 2)

/-- R490: CMD.TARE_CLR. -/
def execTareClr (r : Requester) (ch : Fin 64) (s : State) : Host.Outcome State Fault Refusal :=
  .next (s.regWrite r (R.CH.CMD (pgCh ch.val)) 4)

/-- R490: CMD.TARE_PRESET. -/
def execTarePreset (r : Requester) (ch : Fin 64) (s : State) : Host.Outcome State Fault Refusal :=
  .next (s.regWrite r (R.CH.CMD (pgCh ch.val)) 8)

/-- R493: CMD.SNAP. -/
def execSnap (r : Requester) (ch : Fin 64) (s : State) : Host.Outcome State Fault Refusal :=
  .next (s.regWrite r (R.CH.CMD (pgCh ch.val)) 16)

/-- R497: CHK_CTRL.ARM. -/
def execArm (r : Requester) (ch : Fin 64) (s : State) : Host.Outcome State Fault Refusal :=
  .next (s.regWrite r (R.CH.CHK_CTRL (pgCh ch.val)) (putF (putF (s.reg (R.CH.CHK_CTRL (pgCh ch.val))) 16 1 1) 17 1 0))

/-- R497: CHK_CTRL.CANCEL. -/
def execCancel (r : Requester) (ch : Fin 64) (s : State) : Host.Outcome State Fault Refusal :=
  .next (s.regWrite r (R.CH.CHK_CTRL (pgCh ch.val)) (putF (putF (s.reg (R.CH.CHK_CTRL (pgCh ch.val))) 16 1 0) 17 1 1))

/-- R485: CH_CTRL. -/
def execChEnable (r : Requester) (ch : Fin 64) (v : Word) (s : State) : Host.Outcome State Fault Refusal :=
  .next (s.regWrite r (R.CH.CH_CTRL (pgCh ch.val)) v)

/-- R479: the modulator clocks. -/
def execClkCfgWrite (r : Requester) (v : Word) (s : State) : Host.Outcome State Fault Refusal :=
  .next (s.regWrite r R.WGH.CLK_CFG v)

/-- R502: a seal is opened. -/
def execSealOpen (r : Requester) (ch : Fin 64) (secs : BitVec 12) (s : State) : Host.Outcome State Fault Refusal :=
  .next (s.regWrite r R.WGH.SEAL_OPEN (BitVec.ofNat 40 (ch.val + 64 + 256 * secs.toNat)))

/-- R508: a seal is closed. -/
def execSealClose (r : Requester) (ch : Fin 64) (s : State) : Host.Outcome State Fault Refusal :=
  .next (s.regWrite r R.WGH.SEAL_OPEN (BitVec.ofNat 40 (ch.val + 128)))

/-- R505: SEAL_CTRL.COMMIT. -/
def execCommit (r : Requester) (ch : Fin 64) (s : State) : Host.Outcome State Fault Refusal :=
  .next (s.regWrite r (R.CH.SEAL_CTRL (pgCh ch.val)) 1)

/-- R508: SEAL_CTRL.DISCARD. -/
def execSealDiscard (r : Requester) (ch : Fin 64) (s : State) : Host.Outcome State Fault Refusal :=
  .next (s.regWrite r (R.CH.SEAL_CTRL (pgCh ch.val)) 2)

/-- R504: SEAL_CTRL.CAL_ZERO. -/
def execCalZero (r : Requester) (ch : Fin 64) (s : State) : Host.Outcome State Fault Refusal :=
  .next (s.regWrite r (R.CH.SEAL_CTRL (pgCh ch.val)) 4)

/-- R504: SEAL_CTRL.CAL_SPAN. -/
def execCalSpan (r : Requester) (ch : Fin 64) (s : State) : Host.Outcome State Fault Refusal :=
  .next (s.regWrite r (R.CH.SEAL_CTRL (pgCh ch.val)) 8)

/-- R503: a sealed register. -/
def execSealedRegisterWrite (r : Requester) (ch : Fin 64) (reg : Fin 11) (v : Word) (s : State) : Host.Outcome State Fault Refusal :=
  .next (s.regWrite r (pgCh ch.val + sealedReg reg) v)

/-- R510: IIR_K or MOTION_WIN. -/
def execIirKWrite (r : Requester) (ch : Fin 64) (win : Bool) (v : Word) (s : State) : Host.Outcome State Fault Refusal :=
  .next (s.regWrite r (if win then R.CH.MOTION_WIN (pgCh ch.val) else R.CH.IIR_K (pgCh ch.val)) v)

/-! ### Lane I/O (R519–R547) -/

/-- R519: a claim. -/
def execClaim (r : Requester) (v : Word) (s : State) : Host.Outcome State Fault Refusal :=
  .next (s.regWrite r R.OWN.CLAIM (putF v 10 1 0))

/-- R520: a release. -/
def execRelease (r : Requester) (v : Word) (s : State) : Host.Outcome State Fault Refusal :=
  .next (s.regWrite r R.OWN.CLAIM (putF v 10 1 1))

/-- R525: a UART or CAN receive binding is enabled. DESIGN CHOICE, log 30. -/
def execBindEnable (r : Requester) (b : Fin 112) (v : Word) (s : State) : Host.Outcome State Fault Refusal :=
  .next (s.regWrite r (bindAddr (256 + b.val)) (putF v 13 1 1))

/-- R533: a transmit queue is enabled. -/
def execTxqEnable (r : Requester) (t : Fin 72) (v : Word) (s : State) : Host.Outcome State Fault Refusal :=
  .next (s.regWrite r (txqAddr t.val) (putF v 13 1 1))

/-- R529: a framing profile. -/
def execProfileValid (r : Requester) (p : Fin 64) (v : Word) (s : State) : Host.Outcome State Fault Refusal :=
  .next (s.regWrite r (R.PROFP.FRAME (pgProf p.val) (p.val % 16)) v)

/-- R528: a reference area is made valid. -/
def execAreaValid (r : Requester) (a : Fin 32) (v : Word) (s : State) : Host.Outcome State Fault Refusal :=
  .next (s.regWrite r (R.LIO.AREA_BASE a.val) (putF v 3 1 1))

/-- R535: a USB bus reset. -/
def execPortReset (r : Requester) (p : Fin 16) (s : State) : Host.Outcome State Fault Refusal :=
  .next (s.fieldWrite r (F.USBP.PORT_CTRL.RESET (pgUsb p.val) (p.val % 4)) 1)

/-- R535: a USB pipe is enabled. -/
def execPipeEnable (r : Requester) (p : Fin 16) (k : Fin 16) (v : Word) (s : State) : Host.Outcome State Fault Refusal :=
  .next (s.regWrite r (R.USBP.PIPE_BIND (pgUsb p.val) (p.val % 4) k.val) (putF v 13 1 1))

/-- R545: a line's register. -/
def execGpWrite (r : Requester) (n : Fin 192) (v : Word) (s : State) : Host.Outcome State Fault Refusal :=
  .next (s.regWrite r (R.GPIO.GP n.val) v)

/-- R547: TM_CFG.GO. -/
def execGo (r : Requester) (t : Fin 64) (v : Word) (s : State) : Host.Outcome State Fault Refusal :=
  .next (s.regWrite r (R.TIMER.TM_CFG t.val) (putF v 14 1 1))

/-! ### Timebase and cascade (R561, R567, R578–R582) -/

/-- R561: TB_CTRL.SNAP. -/
def execTbSnap (r : Requester) (s : State) : Host.Outcome State Fault Refusal := .next (s.fieldWrite r F.TB.TB_CTRL.SNAP 1)

/-- R561: TB_CTRL.STEP. -/
def execStep (r : Requester) (s : State) : Host.Outcome State Fault Refusal := .next (s.fieldWrite r F.TB.TB_CTRL.STEP 1)

/-- R561: TB_CTRL.SET. -/
def execSet (r : Requester) (s : State) : Host.Outcome State Fault Refusal := .next (s.fieldWrite r F.TB.TB_CTRL.SET 1)

/-- R567: a port is enabled. -/
def execXctrlEnable (r : Requester) (p : Fin 2) (v : Word) (s : State) : Host.Outcome State Fault Refusal :=
  .next (s.regWrite r (R.IXP.XCTRL (pgIxp p.val)) (putF v 0 1 1))

/-- R567: XCTRL.RETRAIN. -/
def execRetrain (r : Requester) (p : Fin 2) (s : State) : Host.Outcome State Fault Refusal :=
  .next (s.fieldWrite r (F.IXP.XCTRL.RETRAIN (pgIxp p.val)) 1)

/-- R582: GCUT_CTRL.START. -/
def execGcutStart (r : Requester) (s : State) : Host.Outcome State Fault Refusal :=
  .next (s.fieldWrite r F.IXL.GCUT_CTRL.START 1)

/-- R582: GCUT_CTRL.RELEASE. -/
def execGcutRelease (r : Requester) (s : State) : Host.Outcome State Fault Refusal :=
  .next (s.fieldWrite r F.IXL.GCUT_CTRL.RELEASE 1)

/-- R580: RT_CTRL.SEND. -/
def execSend (r : Requester) (s : State) : Host.Outcome State Fault Refusal := .next (s.fieldWrite r F.IXL.RT_CTRL.SEND 1)

/-- R578: HANDOVER.GO. -/
def execHandoverGo (r : Requester) (target : BitVec 3) (s : State) : Host.Outcome State Fault Refusal :=
  .next (s.regWrite r R.IXL.HANDOVER (BitVec.ofNat 40 (target.toNat + 8)))

/-! ### Warden, security and recorder (R592–R613) -/

/-- R592: WDOG_KICK. -/
def execWdogKick (r : Requester) (s : State) : Host.Outcome State Fault Refusal := .next (s.regWrite r R.WRD.WDOG_KICK 1)

/-- R597: REVOKE.GO. -/
def execRevoke (r : Requester) (k : BitVec 2) (s : State) : Host.Outcome State Fault Refusal :=
  .next (s.regWrite r R.SEC.REVOKE (BitVec.ofNat 40 (k.toNat + 4)))

/-- R600: JOB_CTRL.GO. -/
def execJobGo (r : Requester) (ch : Fin 4) (s : State) : Host.Outcome State Fault Refusal :=
  .next (s.fieldWrite r (F.SEC.JOB_CTRL.GO ch.val) 1)

/-- R606: RNG_CTRL.RESTART. -/
def execRestart (r : Requester) (s : State) : Host.Outcome State Fault Refusal :=
  .next (s.fieldWrite r F.SEC.RNG_CTRL.RESTART 1)

/-- R611: SW_CTRL.GO. -/
def execSwEvent (r : Requester) (s : State) : Host.Outcome State Fault Refusal := .next (s.regWrite r R.REC.SW_CTRL 1)

/-- R610: RD_SLOT. -/
def execRdSlotWrite (r : Requester) (slot : BitVec 16) (s : State) : Host.Outcome State Fault Refusal :=
  .next (s.regWrite r R.REC.RD_SLOT (slot.setWidth 40))

/-- R613: CLEAR_CTRL.GO. -/
def execClearGo (r : Requester) (s : State) : Host.Outcome State Fault Refusal := .next (s.regWrite r R.REC.CLEAR_CTRL 1)

/-! ### Governors (R622–R644) -/

/-- R622: a governor's MODE. -/
def execModeWrite (r : Requester) (g : Fin 5) (mode : BitVec 2) (s : State) : Host.Outcome State Fault Refusal :=
  .next (s.fieldWrite r (F.GALL.GCTRL.MODE (pgGOV + 0x1000 * (g.val + 1))) mode.toNat)

/-- R623: GCTRL.APPLY. -/
def execApply (r : Requester) (g : Fin 5) (s : State) : Host.Outcome State Fault Refusal :=
  .next (s.fieldWrite r (F.GALL.GCTRL.APPLY (pgGOV + 0x1000 * (g.val + 1))) 1)

/-- R635: COMET_CTRL.RUN. -/
def execRun (r : Requester) (s : State) : Host.Outcome State Fault Refusal := .next (s.regWrite r R.GHEA.COMET_CTRL 1)

/-- R631: COMET_CTRL.RETEST. -/
def execRetest (r : Requester) (clu : Fin 8) (phys : Fin 9) (s : State) : Host.Outcome State Fault Refusal :=
  .next (s.regWrite r R.GHEA.COMET_CTRL (BitVec.ofNat 40 (2 + 4 * clu.val + 32 * phys.val)))

/-- R639: CONFIRM. -/
def execConfirm (r : Requester) (s : State) : Host.Outcome State Fault Refusal := .next (s.regWrite r R.GHEA.RETIRE_CTRL 1)

/-- R639: DECLINE. -/
def execDecline (r : Requester) (s : State) : Host.Outcome State Fault Refusal := .next (s.regWrite r R.GHEA.RETIRE_CTRL 2)

/-- R639: RETIRE. -/
def execRetire (r : Requester) (frame : BitVec 28) (s : State) : Host.Outcome State Fault Refusal :=
  .next (s.regWrite r R.GHEA.RETIRE_CTRL (BitVec.ofNat 40 (3 + 4 * frame.toNat)))

/-- R640: LIST_CLEAR. -/
def execListClear (r : Requester) (s : State) : Host.Outcome State Fault Refusal := .next (s.regWrite r R.GHEA.LIST_CLEAR 1)

/-- R642: UPD_CTRL.START. -/
def execUpdStart (r : Requester) (half : Bool) (s : State) : Host.Outcome State Fault Refusal :=
  .next (s.regWrite r R.GOV.UPD_CTRL (BitVec.ofNat 40 (1 + 4 * b2n half)))

/-- R644: UPD_CTRL.ABORT. -/
def execAbort (r : Requester) (s : State) : Host.Outcome State Fault Refusal := .next (s.regWrite r R.GOV.UPD_CTRL 2)

/-! ### Reset, domains and the code store (R658–R676) -/

/-- R660: RST_CTRL.WARM. -/
def execWarm (r : Requester) (s : State) : Host.Outcome State Fault Refusal := .next (s.regWrite r R.CPR.RST_CTRL 1)

/-- R658: PD_CTRL. -/
def execPdSwitch (r : Requester) (v : Word) (s : State) : Host.Outcome State Fault Refusal :=
  .next (s.regWrite r R.CPR.PD_CTRL v)

/-- R675: WR_CTRL.START. -/
def execCodeStoreWrite (r : Requester) (flash : Bool) (s : State) : Host.Outcome State Fault Refusal :=
  .next (s.regWrite r R.CST.WR_CTRL (BitVec.ofNat 40 (1 + 8 * b2n flash)))

/-- R676: WR_CTRL.COMMIT. -/
def execCodeStoreCommit (r : Requester) (half : Bool) (s : State) : Host.Outcome State Fault Refusal :=
  .next (s.regWrite r R.CST.WR_CTRL (BitVec.ofNat 40 (2 + 4 * b2n half)))

/-! ### Eclipse and debug (R684–R699) -/

/-- R684: ECL_CTRL.FREEZE. -/
def execFreeze (r : Requester) (s : State) : Host.Outcome State Fault Refusal := .next (s.regWrite r R.DBG.ECL_CTRL 1)

/-- R687: ECL_CTRL.PARTIAL. -/
def execPartialFreeze (r : Requester) (clu : Fin 8) (s : State) : Host.Outcome State Fault Refusal :=
  .next (s.regWrite r R.DBG.ECL_CTRL (BitVec.ofNat 40 (2 + 4 * clu.val)))

/-- R688: ECL_CTRL.THAW. -/
def execThaw (r : Requester) (s : State) : Host.Outcome State Fault Refusal := .next (s.regWrite r R.DBG.ECL_CTRL 0x20)

/-- R687: a partial freeze completes. -/
def execPartialFreezeDone (s : State) : Host.Outcome State Fault Refusal :=
  .next (if s.frozen none then s else s.freezeCluster drainCore)

/-- R698: SKIP. -/
def execSkip (r : Requester) (c : Cid) (s : State) : Host.Outcome State Fault Refusal :=
  .next (s.regWrite r R.DBG.SKIP (BitVec.ofNat 40 (c.toNat + 4096)))

/-- R699: TR_CTRL.EN. -/
def execTraceEnable (r : Requester) (v : Word) (s : State) : Host.Outcome State Fault Refusal :=
  .next (s.regWrite r R.DBG.TR_CTRL (putF v 0 1 1))

end Sys2Proof.Machine
end

