-- ==== Sys2Proof/Machine/Repeat.lean ====
section
/-! DEFINITION. Hardware loops and the repeat prefix: LOOP, REP and LPOP (R224–R232). -/

namespace Sys2Proof.Machine

/-- Is the context's instruction at the innermost open level's LE (R226, R230)? -/
def State.atLoopEnd (s : State) (c : Cid) : Bool :=
  let x := s.cx c
  let d := srLD x.sr
  if h : 0 < d ∧ d ≤ 4 then x.le[d - 1]'(by omega) == x.pc else false

/-- The count operand (R200, R224). -/
def countOf (c : Cid) (n : CountSrc) : Act Nat :=
  match n with
  | .imm k => pure k.toNat
  | .reg rs => do
    regs c [rs]
    let s ← get
    pure (s.dv c rs % 2 ^ 40)

/-- LOOP (R225). -/
def execLoop (c : Cid) (cnt : CountSrc) (span : BitVec 11) (s : State) :=
  runInstr c .noRep (do
    need c 1 (span != 0)
    let n ← countOf c cnt
    need c 2 (!s.atLoopEnd c)
    let x := s.cx c
    let d := srLD x.sr
    if h : d < 4 then
      fillLazy c
      if n = 0 then transfer c (codeTarget x.pc (span.toNat + 1))
      else
        modify (fun s => s.modCx c (fun x => Ctx.goto { x with
          ls := x.ls.set d (codeTarget x.pc 1), le := x.le.set d (codeTarget x.pc span.toNat)
          lc := x.lc.set d (BitVec.ofNat 40 n), sr := putF x.sr 27 3 (d + 1) } (codeNext x.pc) false))
        pure none
    else raise c 13) s

/-- LPOP (R225): at the innermost level's LE it is illegal before the depth check (R230). The level that becomes innermost is
the one whose loop end its completion meets (R226). DESIGN CHOICE, log 96. -/
def execLpop (c : Cid) (s : State) :=
  runInstr c .noRep (do
    need c 2 (!s.atLoopEnd c)
    need c 13 (srLD (s.cx c).sr != 0)
    fillLazy c
    modify (fun s => s.modCx c (fun x => { x with sr := putF x.sr 27 3 (srLD x.sr - 1) }))
    finish c) s

/-- May an instruction word not follow REP (R230)? Transfers of control, LOOP, REP, LPOP, and writes of RC. -/
def repForbids (w : Word) : Bool :=
  let maj := getF w 32 8
  let min := getF w 24 8
  (decide (0x10 ≤ maj) && decide (maj ≤ 0x16)) || maj == 0xC0 || (maj == 0 && (min == 0 || min == 1)) ||
    (maj == 0 && min == 3 && getF w 0 8 == 16) || (maj == 0xE0 && (min == 2 || min == 3))

/-- The word in the slot at a code address, where its line can be fetched; a fetch fault is the successor's
own (R230). -/
def slotWord (c : Cid) (a : Word) (s : State) : Option Word :=
  let line := a.toNat / 64 * 64
  match (checkHalf c (srPL (s.cx c).sr) a line 64 .fetch false false .plain) s with
  | .ok (p, _) => some (BitVec.ofNat 40 (s.word (p.pa + 5 * (a.toNat % 16))))
  | .error _ => none

/-- REP (R229, R230). With a count of 0, an invalid LS that the skipped instruction's loop end would go to is the REP's own fault
(R227), and RC keeps its value. DESIGN CHOICE, log 96. -/
def execRep (c : Cid) (cnt : CountSrc) (s : State) :=
  runInstr c .noRep (do
    let n ← countOf c cnt
    let next := codeNext (s.cx c).pc
    need c 2 (!s.atLoopEnd c && ((slotWord c next s).map repForbids).getD false == false)
    fillLazy c
    modify (fun s => s.modCx c (fun x => { x with rc := BitVec.ofNat 40 n }))
    if n = 0 then
      match (((← get).cx c).goto next false).loopEnd 5 with
      | .ok y => modify (fun s => s.setCx c y)
      | .error t => raiseAt 4 t
      pure none
    else
      modify (fun s => s.modCx c (fun x => Ctx.goto { x with sr := setBit x.sr 37 true } next false))
      pure none) s

end Sys2Proof.Machine
end

