-- ==== Sys2Proof/Machine/Steps.lean ====
section
/-! DEFINITION. Host accesses (R32), the queue manager's grants (R420), the health governor's own steps (R630–R636), the
boot ROM's configuration table (R673), and the access port's reach of the DBG page (R689, R690, R695). -/

namespace Sys2Proof.Machine

/-! ### Host accesses (R32, R727 order 1) -/

/-- What a host access covers: the first bit and the bits of the register it reaches; none for a wrong size or offset. -/
def hostCover (off n : Nat) : Option (Nat × Nat) :=
  if n = 8 ∧ off % 8 = 0 then some (0, 40)
  else if n = 4 ∧ off % 8 = 0 then some (0, 32)
  else if n = 4 ∧ off % 8 = 4 then some (32, 8)
  else none

/-- R32: a host access to control space, at an offset of BAR 0. -/
def State.hostAccess (s : State) (off n : Nat) (wr : Option (List Byte)) : State :=
  let a := 0xFFF0000000 + off
  if !s.canReach .host then s
  else match hostCover off n, wr with
    | none, some _ => s.hostBad a true
    | none, none => { s.hostBad a false with hostCpl := some (List.replicate n 0) }
    | some (lo, len), some bs =>
      ctlWrite s .host a (putF 0 lo len (leVal bs % 2 ^ len)) (putF 0 lo len (2 ^ len - 1))
    | some (lo, len), none =>
      let (v, s1) := ctlRead s .host a
      { s1 with hostCpl := some (leBytes n (getF v lo len)) }

/-- HOST_ACCESS (R32): a write's length is that of its bytes. -/
def execHostAccess (off : BitVec 24) (n : BitVec 13) (wr : Option (List Byte)) (s : State) : Host.Outcome State Fault Refusal :=
  .next (s.hostAccess off.toNat (match wr with | some bs => bs.length | none => n.toNat) wr)

/-! ### Grants of the queue manager (R414, R420, R421) -/

/-- A context's transfer ends: its status word and SR.Z are written (R414). -/
def State.queueAnswer (s : State) (c : Cid) (rd : DLoc) (n st : Nat) : State :=
  (s.putLoc c rd (BitVec.ofNat 80 (s.qStatus n st))).modCx c (fun x => { x with sr := setBit x.sr 2 (st == 0), atEngine := false })

/-- A granted transfer, with what its origin does next. -/
def State.queueAct (s : State) (p : Fin 15) (o : QOp) : State :=
  match o.origin with
  | .ctx c rd =>
    let (st, s1) := if o.take then s.deqAct c o else s.enqAct p.val o
    s1.queueAnswer c rd o.queue st
  | .weigh ch kind => let (ok, s1) := s.hwPut o.queue p.val o.type o.src o.payload; s1.weighAck ch kind o.payload ok
  | .lane b area => let (ok, s1) := s.hwPut o.queue p.val o.type o.src o.payload; (s1.laneAck b area o.queue ok).netDrain
  | .event => let (ok, s1) := s.hwPut o.queue p.val o.type o.src o.payload; s1.eventAck ok
  | .net q area => let (ok, s1) := s.hwPut o.queue p.val o.type o.src o.payload; (s1.netAck q area ok).netDrain
  | .qmsg dev => let (ok, s1) := s.hwPut o.queue p.val o.type o.src o.payload; s1.qmsgAck o.queue dev ok

/-- QMG_GRANT_CYCLE (R420): up to four transfers. -/
def execQmgGrantCycle (s : State) : Host.Outcome State Fault Refusal := .next (s.queueCycle State.queueAct)

/-! ### The health governor (R630–R636) -/

/-- CORE_UNCORRECTABLE (R630, R332): the context that runs takes vector 16 with SOURCE 3, and the ledger core is
substituted. -/
def execCoreUncorrectable (c : Cid) (ea : Word) (acc : BitVec 2) (s : State) : Host.Outcome State Fault Refusal :=
  .next <|
    let s1 := s.entryAt c { vec := 16, fault := ea, info := 0, synd := acc.toNat + 48, hits := [] }
    if validCid c && !isWardenCid c && s.coreLive (coreIdx c) && s.govRuns then
      s1.coreUncorrectable drainCore (coreIdx c / 8) (coreIdx c % 8)
    else s1

/-- SUBSTITUTION (R632, R633): a substitution that is due is tried. -/
def execSubstitution (clu lc : Fin 8) (s : State) : Host.Outcome State Fault Refusal :=
  .next (match s.subs.find? (fun q => q.clu == clu.val && q.lc == lc.val) with
    | some q => if s.govRuns then s.trySub drainCore q else s
    | none => s)

/-- SUBSTITUTION_RETRY (R632): what waits is tried again every 1 ms. -/
def execSubstitutionRetry (s : State) : Host.Outcome State Fault Refusal := .next (if s.govRuns then s.retrySubs drainCore else s)

/-- COMET_STEP (R635): the pass takes a step in auto mode with EN. -/
def execCometStep (s : State) : Host.Outcome State Fault Refusal :=
  .next (if s.govRuns && s.govMode pgGHEA == 1 && s.flag F.GHEA.COMET_CFG.EN then s.cometNext drainCore else s)

/-- SELF_TEST_DONE (R636, R631): the self-test under way ends. -/
def execSelfTestDone (pass : Bool) (s : State) : Host.Outcome State Fault Refusal :=
  .next (if s.testRuns then s.testDone drainCore pass else s)

/-! ### The configuration table (R673) -/

/-- How many entries the booted half's table holds. -/
def State.cfgCount (s : State) : Nat := s.halfField s.bootHalf 24 2

/-- Has a well-formed TRAIN entry come before entry `i`? -/
def State.trainSeen (s : State) (i : Nat) : Bool :=
  (List.range i).any (fun j => (s.cfgEntry j).zero && (s.cfgEntry j).op == 2)

/-- The page that records the errors of a write to an address. -/
def errPage (a : Nat) : Nat := if inWindow a then pgQMG else if (pageOf a).isSome then pageBase a else pgSYS

/-- A write entry: made as the warden context that runs the ROM, and reported when its page records an error. -/
def State.cfgWrite (s : State) (i : Nat) (e : CfgEntry) : State :=
  let w (s : State) : State := ctlWrite s (.ctx 0x200 3) e.addr (BitVec.ofNat 40 e.value) allBits
  let p := errPage e.addr
  let bad := (w ((s.put (F.HDR.PG_INT_STATUS.ERR p) 0).put (F.HDR.PG_ERR_SYNDROME.OVF p) 0)).flag (F.HDR.PG_INT_STATUS.ERR p)
  if bad then (w s).cfgSkip i e else w s

/-- The table's entries from the next one on: to a TRAIN entry, or to the end. `n` bounds the entries left.
DEDUCED, log 44. -/
def applyConfig : Nat → State → State
  | 0, s => if s.boot == .config then (if s.trained then s.releaseClusters else { s with boot := .train }) else s
  | n + 1, s =>
    let i := s.cfgNext
    let e := s.cfgEntry i
    let s1 := { s with cfgNext := i + 1 }
    if s.boot != .config then s
    else if !e.zero || 2 < e.op then applyConfig n (s1.cfgSkip i e)
    else if e.op = 1 then applyConfig n s1
    else if e.op = 2 then (if s.trainSeen i then applyConfig n (s1.cfgSkip i e) else { s1 with boot := .train })
    else if inControl e.addr then applyConfig n (s1.cfgWrite i e)
    else applyConfig n (s1.cfgSkip i e)

/-- CONFIG_TABLE_APPLY (R666 steps 5 and 6, R673). -/
def execConfigTableApply (s : State) : Host.Outcome State Fault Refusal :=
  .next (if s.boot == .config && !s.stopped && !s.frozen none then applyConfig (s.cfgCount - s.cfgNext) (s.powerOn stepFive) else s)

/-! ### The DBG page from the access port and in a partial eclipse (R689, R690, R695) -/

/-- THAW of the TAP (R689): the device, or the frozen cluster. -/
def execTapThaw (b : Bool) (s : State) : Host.Outcome State Fault Refusal :=
  .next <|
    if !s.tapOpen then s.tapBypass 0x13
    else
      let s1 := s.oneBit 0x13
      if !b then s1
      else if s.get F.DBG.ECL_STATUS.STATE = 1 then s1.thawDevice.dbgThawed
      else if s.eclPart.isSome then (s1.thawPartial drainCore).dbgThawed
      else s1

/-- DBGREG (R690): the access completes, and what the next Capture-DR loads holds OFFSET, WRITE, DATA and DONE.
DEDUCED, log 39. -/
def execDbgreg (off : Byte) (wr : Bool) (data : Word) (s : State) : Host.Outcome State Fault Refusal :=
  .next <|
    if !s.tapOpen then s.tapBypass 0x14
    else
      let a := pgDBG + 8 * off.toNat
      let s0 := { s with tapIr := 0x14 }
      let (v, s1) :=
        if wr then let t := ctlWrite s0 .engine a data allBits; (t.regValue .engine .dbg a, t)
        else ctlRead s0 .engine a
      { s1 with dbgOp := some (off, wr, v), tapOut := BitVec.ofNat 50 (off.toNat + 256 * b2n wr + 512 * v.toNat + 2 ^ 49) }

/-- PDUMP_DATA_READ (R695): a read of PDUMP_DATA. -/
def execPdumpDataRead (r : Requester) (s : State) : Host.Outcome State Fault Refusal :=
  .next (s.regRead r R.DBG.PDUMP_DATA)

end Sys2Proof.Machine
end

