-- ==== Sys2Proof/Machine/Dispatch.lean ====
section
/-! DEFINITION. The dispatch: one arm per command, each one call of its meaning. -/

namespace Sys2Proof.Machine

def exec (i : Instr) (s : State) : Host.Outcome State Fault Refusal :=
  match i with
  | .ldb c rt ab m miss => Sys2Proof.Machine.execLdb c rt ab m miss s
  | .ldbs c rt ab m miss => Sys2Proof.Machine.execLdbs c rt ab m miss s
  | .ldh c rt ab m miss => Sys2Proof.Machine.execLdh c rt ab m miss s
  | .ldhs c rt ab m miss => Sys2Proof.Machine.execLdhs c rt ab m miss s
  | .ldt c rt ab m miss => Sys2Proof.Machine.execLdt c rt ab m miss s
  | .ldts c rt ab m miss => Sys2Proof.Machine.execLdts c rt ab m miss s
  | .ldw c rt ab m miss => Sys2Proof.Machine.execLdw c rt ab m miss s
  | .ldp c rt ab m miss => Sys2Proof.Machine.execLdp c rt ab m miss s
  | .ldwa c rt ab m miss => Sys2Proof.Machine.execLdwa c rt ab m miss s
  | .lea c rt ab m => Sys2Proof.Machine.execLea c rt ab m s
  | .stb c rt ab m => Sys2Proof.Machine.execStb c rt ab m s
  | .sth c rt ab m => Sys2Proof.Machine.execSth c rt ab m s
  | .stt c rt ab m => Sys2Proof.Machine.execStt c rt ab m s
  | .stw c rt ab m => Sys2Proof.Machine.execStw c rt ab m s
  | .stp c rt ab m => Sys2Proof.Machine.execStp c rt ab m s
  | .stwa c rt ab m => Sys2Proof.Machine.execStwa c rt ab m s
  | .casw c rt ab m => Sys2Proof.Machine.execCasw c rt ab m s
  | .swpw c rt ab m => Sys2Proof.Machine.execSwpw c rt ab m s
  | .movd c rd ra => Sys2Proof.Machine.execMovd c rd ra s
  | .mova c rd ra => Sys2Proof.Machine.execMova c rd ra s
  | .movda c rd ra => Sys2Proof.Machine.execMovda c rd ra s
  | .movad c rd ra => Sys2Proof.Machine.execMovad c rd ra s
  | .movi c rd imm => Sys2Proof.Machine.execMovi c rd imm s
  | .movhi c rd imm => Sys2Proof.Machine.execMovhi c rd imm s
  | .movia c rd imm => Sys2Proof.Machine.execMovia c rd imm s
  | .movhia c rd imm => Sys2Proof.Machine.execMovhia c rd imm s
  | .movh2 c rd imm => Sys2Proof.Machine.execMovh2 c rd imm s
  | .movh3 c rd imm => Sys2Proof.Machine.execMovh3 c rd imm s
  | .aadd c rd ra rb => Sys2Proof.Machine.execAadd c rd ra rb s
  | .asub c rd ra rb => Sys2Proof.Machine.execAsub c rd ra rb s
  | .asca c rd ra rb aux => Sys2Proof.Machine.execAsca c rd ra rb aux s
  | .acmp c ra rb => Sys2Proof.Machine.execAcmp c ra rb s
  | .ashl c rd ra aux => Sys2Proof.Machine.execAshl c rd ra aux s
  | .ashr c rd ra aux => Sys2Proof.Machine.execAshr c rd ra aux s
  | .aaddi c rd ra imm => Sys2Proof.Machine.execAaddi c rd ra imm s
  | .acmpi c ra imm => Sys2Proof.Machine.execAcmpi c ra imm s
  | .bc c cond disp => Sys2Proof.Machine.execBc c cond disp s
  | .bd c cond ra disp => Sys2Proof.Machine.execBd c cond ra disp s
  | .baz c ra disp => Sys2Proof.Machine.execBaz c ra disp s
  | .banz c ra disp => Sys2Proof.Machine.execBanz c ra disp s
  | .dbnz c ra disp => Sys2Proof.Machine.execDbnz c ra disp s
  | .call c disp => Sys2Proof.Machine.execCall c disp s
  | .callw c disp => Sys2Proof.Machine.execCallw c disp s
  | .lac c ra disp => Sys2Proof.Machine.execLac c ra disp s
  | .jmp c ra => Sys2Proof.Machine.execJmp c ra s
  | .callr c ra => Sys2Proof.Machine.execCallr c ra s
  | .callwr c ra => Sys2Proof.Machine.execCallwr c ra s
  | .ret c => Sys2Proof.Machine.execRet c s
  | .retw c => Sys2Proof.Machine.execRetw c s
  | .nop c => Sys2Proof.Machine.execNop c s
  | .add c rd ra rb => Sys2Proof.Machine.execAdd c rd ra rb s
  | .addc c rd ra rb => Sys2Proof.Machine.execAddc c rd ra rb s
  | .sub c rd ra rb => Sys2Proof.Machine.execSub c rd ra rb s
  | .subc c rd ra rb => Sys2Proof.Machine.execSubc c rd ra rb s
  | .cmp c ra rb => Sys2Proof.Machine.execCmp c ra rb s
  | .neg c rd ra => Sys2Proof.Machine.execNeg c rd ra s
  | .and c rd ra rb => Sys2Proof.Machine.execAnd c rd ra rb s
  | .or c rd ra rb => Sys2Proof.Machine.execOr c rd ra rb s
  | .xor c rd ra rb => Sys2Proof.Machine.execXor c rd ra rb s
  | .andn c rd ra rb => Sys2Proof.Machine.execAndn c rd ra rb s
  | .tst c ra rb => Sys2Proof.Machine.execTst c ra rb s
  | .addi c rd ra imm => Sys2Proof.Machine.execAddi c rd ra imm s
  | .cmpi c ra imm => Sys2Proof.Machine.execCmpi c ra imm s
  | .andi c rd ra imm => Sys2Proof.Machine.execAndi c rd ra imm s
  | .ori c rd ra imm => Sys2Proof.Machine.execOri c rd ra imm s
  | .xori c rd ra imm => Sys2Proof.Machine.execXori c rd ra imm s
  | .tsti c ra imm => Sys2Proof.Machine.execTsti c ra imm s
  | .shl c rd ra n => Sys2Proof.Machine.execShl c rd ra n s
  | .shr c rd ra n => Sys2Proof.Machine.execShr c rd ra n s
  | .sar c rd ra n => Sys2Proof.Machine.execSar c rd ra n s
  | .rol c rd ra n => Sys2Proof.Machine.execRol c rd ra n s
  | .ror c rd ra n => Sys2Proof.Machine.execRor c rd ra n s
  | .clz c rd ra => Sys2Proof.Machine.execClz c rd ra s
  | .ctz c rd ra => Sys2Proof.Machine.execCtz c rd ra s
  | .popc c rd ra => Sys2Proof.Machine.execPopc c rd ra s
  | .sext c rd ra aux => Sys2Proof.Machine.execSext c rd ra aux s
  | .zext c rd ra aux => Sys2Proof.Machine.execZext c rd ra aux s
  | .dadd c rd ra rb u => Sys2Proof.Machine.execDadd c rd ra rb u s
  | .dadc c rd ra rb u => Sys2Proof.Machine.execDadc c rd ra rb u s
  | .dsub c rd ra rb u => Sys2Proof.Machine.execDsub c rd ra rb u s
  | .dsbc c rd ra rb u => Sys2Proof.Machine.execDsbc c rd ra rb u s
  | .dcmp c ra rb => Sys2Proof.Machine.execDcmp c ra rb s
  | .dneg c rd ra => Sys2Proof.Machine.execDneg c rd ra s
  | .dabs c rd ra => Sys2Proof.Machine.execDabs c rd ra s
  | .daddi c rd ra imm => Sys2Proof.Machine.execDaddi c rd ra imm s
  | .dcmpi c ra imm => Sys2Proof.Machine.execDcmpi c ra imm s
  | .dshl c rd ra aux => Sys2Proof.Machine.execDshl c rd ra aux s
  | .dshr c rd ra rm aux => Sys2Proof.Machine.execDshr c rd ra rm aux s
  | .dtb c rd ra => Sys2Proof.Machine.execDtb c rd ra s
  | .btd c rd ra => Sys2Proof.Machine.execBtd c rd ra s
  | .dchk c ra => Sys2Proof.Machine.execDchk c ra s
  | .ldpk c rd ra aux miss => Sys2Proof.Machine.execLdpk c rd ra aux miss s
  | .stpk c ra rb aux => Sys2Proof.Machine.execStpk c ra rb aux s
  | .mul c ra rb => Sys2Proof.Machine.execMul c ra rb s
  | .mulu c ra rb => Sys2Proof.Machine.execMulu c ra rb s
  | .mulw c rd ra rb => Sys2Proof.Machine.execMulw c rd ra rb s
  | .mulwu c rd ra rb => Sys2Proof.Machine.execMulwu c rd ra rb s
  | .dmul c ra rb => Sys2Proof.Machine.execDmul c ra rb s
  | .dprs c rd rm aux => Sys2Proof.Machine.execDprs c rd rm aux s
  | .psra c rd aux => Sys2Proof.Machine.execPsra c rd aux s
  | .macb c rd ra rb => Sys2Proof.Machine.execMacb c rd ra rb s
  | .msbb c rd ra rb => Sys2Proof.Machine.execMsbb c rd ra rb s
  | .macd c rd ra rb => Sys2Proof.Machine.execMacd c rd ra rb s
  | .msbd c rd ra rb => Sys2Proof.Machine.execMsbd c rd ra rb s
  | .xclr c rd => Sys2Proof.Machine.execXclr c rd s
  | .xldb c rd ra => Sys2Proof.Machine.execXldb c rd ra s
  | .xldd c rd ra => Sys2Proof.Machine.execXldd c rd ra s
  | .xget c rd ra aux => Sys2Proof.Machine.execXget c rd ra aux s
  | .xput c rd ra aux => Sys2Proof.Machine.execXput c rd ra aux s
  | .xrd c rd ra rm aux => Sys2Proof.Machine.execXrd c rd ra rm aux s
  | .dstep c ra => Sys2Proof.Machine.execDstep c ra s
  | .ddstep c ra => Sys2Proof.Machine.execDdstep c ra s
  | .fadd c rd ra rb rm => Sys2Proof.Machine.execFadd c rd ra rb rm s
  | .fsub c rd ra rb rm => Sys2Proof.Machine.execFsub c rd ra rb rm s
  | .fmul c rd ra rb rm => Sys2Proof.Machine.execFmul c rd ra rb rm s
  | .fdiv c rd ra rb rm => Sys2Proof.Machine.execFdiv c rd ra rb rm s
  | .fsqrt c rd ra rm => Sys2Proof.Machine.execFsqrt c rd ra rm s
  | .fneg c rd ra => Sys2Proof.Machine.execFneg c rd ra s
  | .fabs c rd ra => Sys2Proof.Machine.execFabs c rd ra s
  | .fcmp c ra rb => Sys2Proof.Machine.execFcmp c ra rb s
  | .fcmps c ra rb => Sys2Proof.Machine.execFcmps c ra rb s
  | .ftoi c rd ra rm => Sys2Proof.Machine.execFtoi c rd ra rm s
  | .itof c rd ra rm => Sys2Proof.Machine.execItof c rd ra rm s
  | .dfadd c rd ra rb rm => Sys2Proof.Machine.execDfadd c rd ra rb rm s
  | .dfsub c rd ra rb rm => Sys2Proof.Machine.execDfsub c rd ra rb rm s
  | .dfmul c rd ra rb rm => Sys2Proof.Machine.execDfmul c rd ra rb rm s
  | .dfdiv c rd ra rb rm => Sys2Proof.Machine.execDfdiv c rd ra rb rm s
  | .dfsqrt c rd ra rm => Sys2Proof.Machine.execDfsqrt c rd ra rm s
  | .dfneg c rd ra => Sys2Proof.Machine.execDfneg c rd ra s
  | .dfabs c rd ra => Sys2Proof.Machine.execDfabs c rd ra s
  | .dfcmp c ra rb => Sys2Proof.Machine.execDfcmp c ra rb s
  | .dfcmps c ra rb => Sys2Proof.Machine.execDfcmps c ra rb s
  | .dfqua c rd ra rb rm => Sys2Proof.Machine.execDfqua c rd ra rb rm s
  | .dftod c rd ra rm aux => Sys2Proof.Machine.execDftod c rd ra rm aux s
  | .ddtf c rd ra aux => Sys2Proof.Machine.execDdtf c rd ra aux s
  | .mvs c r1 r2 r3 => Sys2Proof.Machine.execMvs c r1 r2 r3 s
  | .mvsp c r1 r2 r3 r4 r5 => Sys2Proof.Machine.execMvsp c r1 r2 r3 r4 r5 s
  | .cms c r1 r2 r3 => Sys2Proof.Machine.execCms c r1 r2 r3 s
  | .trs c r1 r2 r3 r4 => Sys2Proof.Machine.execTrs c r1 r2 r3 r4 s
  | .scn c r1 r2 r3 r4 => Sys2Proof.Machine.execScn c r1 r2 r3 r4 s
  | .edt c r1 r2 r3 r4 => Sys2Proof.Machine.execEdt c r1 r2 r3 r4 s
  | .edm c r1 r2 r3 r4 r5 r6 => Sys2Proof.Machine.execEdm c r1 r2 r3 r4 r5 r6 s
  | .pkz c r1 r2 r3 miss => Sys2Proof.Machine.execPkz c r1 r2 r3 miss s
  | .upk c r1 r2 r3 miss => Sys2Proof.Machine.execUpk c r1 r2 r3 miss s
  | .cvbd c r1 r2 r3 => Sys2Proof.Machine.execCvbd c r1 r2 r3 s
  | .cvdb c r1 r2 r3 miss => Sys2Proof.Machine.execCvdb c r1 r2 r3 miss s
  | .dads c r1 r2 r3 r4 miss => Sys2Proof.Machine.execDads c r1 r2 r3 r4 miss s
  | .dsbs c r1 r2 r3 r4 miss => Sys2Proof.Machine.execDsbs c r1 r2 r3 r4 miss s
  | .dcps c r1 r2 r3 r4 miss => Sys2Proof.Machine.execDcps c r1 r2 r3 r4 miss s
  | .dzms c r1 r2 r3 r4 miss => Sys2Proof.Machine.execDzms c r1 r2 r3 r4 miss s
  | .dshs c r1 r2 r3 miss => Sys2Proof.Machine.execDshs c r1 r2 r3 miss s
  | .dmls c r1 r2 r3 r4 r5 r6 => Sys2Proof.Machine.execDmls c r1 r2 r3 r4 r5 r6 s
  | .loop c cnt span => Sys2Proof.Machine.execLoop c cnt span s
  | .rep c cnt => Sys2Proof.Machine.execRep c cnt s
  | .lpop c => Sys2Proof.Machine.execLpop c s
  | .trap c aux => Sys2Proof.Machine.execTrap c aux s
  | .rte c => Sys2Proof.Machine.execRte c s
  | .mfs c rd aux => Sys2Proof.Machine.execMfs c rd aux s
  | .mts c ra aux => Sys2Proof.Machine.execMts c ra aux s
  | .yield c => Sys2Proof.Machine.execYield c s
  | .svctxL c ra => Sys2Proof.Machine.execSvctxL c ra s
  | .svctxU c ra => Sys2Proof.Machine.execSvctxU c ra s
  | .rsctxL c ra => Sys2Proof.Machine.execRsctxL c ra s
  | .rsctxU c ra => Sys2Proof.Machine.execRsctxU c ra s
  | .setrole c => Sys2Proof.Machine.execSetrole c s
  | .setkr c ra => Sys2Proof.Machine.execSetkr c ra s
  | .mtbtr c ra aux => Sys2Proof.Machine.execMtbtr c ra aux s
  | .mfbtr c rd aux => Sys2Proof.Machine.execMfbtr c rd aux s
  | .setfk c ra rb aux => Sys2Proof.Machine.execSetfk c ra rb aux s
  | .getfk c rd ra => Sys2Proof.Machine.execGetfk c rd ra s
  | .clrfr c rd ra aux => Sys2Proof.Machine.execClrfr c rd ra aux s
  | .tlbiVa c ra rb => Sys2Proof.Machine.execTlbiVa c ra rb s
  | .tlbiS c rb => Sys2Proof.Machine.execTlbiS c rb s
  | .tlbiAll c => Sys2Proof.Machine.execTlbiAll c s
  | .walkiVa c ra rb => Sys2Proof.Machine.execWalkiVa c ra rb s
  | .walkiS c rb => Sys2Proof.Machine.execWalkiS c rb s
  | .walkiAll c => Sys2Proof.Machine.execWalkiAll c s
  | .sync c => Sys2Proof.Machine.execSync c s
  | .syncD c => Sys2Proof.Machine.execSyncD c s
  | .syncT c => Sys2Proof.Machine.execSyncT c s
  | .syncP c => Sys2Proof.Machine.execSyncP c s
  | .isync c => Sys2Proof.Machine.execIsync c s
  | .post c ra rb rc b => Sys2Proof.Machine.execPost c ra rb rc b s
  | .postT c rd ra rb rc b => Sys2Proof.Machine.execPostT c rd ra rb rc b s
  | .postW c ra rb rc b => Sys2Proof.Machine.execPostW c ra rb rc b s
  | .postWt c rd ra rb rc b => Sys2Proof.Machine.execPostWt c rd ra rb rc b s
  | .postl c rd ra rb rc rf b => Sys2Proof.Machine.execPostl c rd ra rb rc rf b s
  | .pread c xb rd ra p => Sys2Proof.Machine.execPread c xb rd ra p s
  | .preadc c xb rd ra => Sys2Proof.Machine.execPreadc c xb rd ra s
  | .waitt c ra => Sys2Proof.Machine.execWaitt c ra s
  | .waitta c => Sys2Proof.Machine.execWaitta c s
  | .tkrd c rd ra => Sys2Proof.Machine.execTkrd c rd ra s
  | .pset c rd ra xb rc b => Sys2Proof.Machine.execPset c rd ra xb rc b s
  | .pcut c rd => Sys2Proof.Machine.execPcut c rd s
  | .prel c rd => Sys2Proof.Machine.execPrel c rd s
  | .enq c rd ra rb => Sys2Proof.Machine.execEnq c rd ra rb s
  | .deq c rd ra rb => Sys2Proof.Machine.execDeq c rd ra rb s
  | .waitq c rd => Sys2Proof.Machine.execWaitq c rd s
  | .qcnt c rd ra => Sys2Proof.Machine.execQcnt c rd ra s
  | .registerWrite r a v => Sys2Proof.Machine.execRegisterWrite r a v s
  | .hostAccess off n wr => Sys2Proof.Machine.execHostAccess off n wr s
  | .pgIntStatusClear r p v => Sys2Proof.Machine.execPgIntStatusClear r p v s
  | .expertSet r p on => Sys2Proof.Machine.execExpertSet r p on s
  | .pgLockWrite r p v => Sys2Proof.Machine.execPgLockWrite r p v s
  | .expertGrantWrite r v => Sys2Proof.Machine.execExpertGrantWrite r v s
  | .grantExpiry => Sys2Proof.Machine.execGrantExpiry s
  | .blockReset r p => Sys2Proof.Machine.execBlockReset r p s
  | .blockRestartDone blk => Sys2Proof.Machine.execBlockRestartDone blk s
  | .longOpLands c => Sys2Proof.Machine.execLongOpLands c s
  | .stringUnit c miss => Sys2Proof.Machine.execStringUnit c miss s
  | .fetchLineArrival c => Sys2Proof.Machine.execFetchLineArrival c s
  | .contextSwitch k => Sys2Proof.Machine.execContextSwitch k s
  | .dataLineArrival c => Sys2Proof.Machine.execDataLineArrival c s
  | .storeBufferDrain k => Sys2Proof.Machine.execStoreBufferDrain k s
  | .hwPrefetch k addr => Sys2Proof.Machine.execHwPrefetch k addr s
  | .exceptionEntry c vec fault info synd => Sys2Proof.Machine.execExceptionEntry c vec fault info synd s
  | .haltMessageEnqueue c => Sys2Proof.Machine.execHaltMessageEnqueue c s
  | .sourceAssert n => Sys2Proof.Machine.execSourceAssert n s
  | .interruptEntry c => Sys2Proof.Machine.execInterruptEntry c s
  | .ctxStart r c => Sys2Proof.Machine.execCtxStart r c s
  | .ctxHalt r c => Sys2Proof.Machine.execCtxHalt r c s
  | .haltTakesEffect c => Sys2Proof.Machine.execHaltTakesEffect c s
  | .roleInc r c => Sys2Proof.Machine.execRoleInc r c s
  | .irtWrite r v => Sys2Proof.Machine.execIrtWrite r v s
  | .swi r v => Sys2Proof.Machine.execSwi r v s
  | .conjEntry r clu k => Sys2Proof.Machine.execConjEntry r clu k s
  | .conjJoin clu k => Sys2Proof.Machine.execConjJoin clu k s
  | .conjExit r clu k => Sys2Proof.Machine.execConjExit r clu k s
  | .conjSeparate clu k => Sys2Proof.Machine.execConjSeparate clu k s
  | .invalidationApplied => Sys2Proof.Machine.execInvalidationApplied s
  | .ticketWaitReady c => Sys2Proof.Machine.execTicketWaitReady c s
  | .grantCycle => Sys2Proof.Machine.execGrantCycle s
  | .bankApply k e => Sys2Proof.Machine.execBankApply k e s
  | .cutReady => Sys2Proof.Machine.execCutReady s
  | .prelSweepEnd => Sys2Proof.Machine.execPrelSweepEnd s
  | .tallyEnable r => Sys2Proof.Machine.execTallyEnable r s
  | .stampingDone => Sys2Proof.Machine.execStampingDone s
  | .coldClearDone => Sys2Proof.Machine.execColdClearDone s
  | .psnNextSeed r v => Sys2Proof.Machine.execPsnNextSeed r v s
  | .replayStart r => Sys2Proof.Machine.execReplayStart r s
  | .replayRecord => Sys2Proof.Machine.execReplayRecord s
  | .replayFinish r => Sys2Proof.Machine.execReplayFinish r s
  | .tktFlush r t => Sys2Proof.Machine.execTktFlush r t s
  | .tallyScrub a e => Sys2Proof.Machine.execTallyScrub a e s
  | .eccInject r a double => Sys2Proof.Machine.execEccInject r a double s
  | .remoteReadTimeout tag => Sys2Proof.Machine.execRemoteReadTimeout tag s
  | .waitqWake c => Sys2Proof.Machine.execWaitqWake c s
  | .orphanNoticeSend => Sys2Proof.Machine.execOrphanNoticeSend s
  | .qcfgWrite r q v => Sys2Proof.Machine.execQcfgWrite r q v s
  | .qbaseWrite r q v => Sys2Proof.Machine.execQbaseWrite r q v s
  | .qbindWrite r q v => Sys2Proof.Machine.execQbindWrite r q v s
  | .discard r q => Sys2Proof.Machine.execDiscard r q s
  | .tailDoorbell r q idx => Sys2Proof.Machine.execTailDoorbell r q idx s
  | .headDoorbell r q idx => Sys2Proof.Machine.execHeadDoorbell r q idx s
  | .qmgGrantCycle => Sys2Proof.Machine.execQmgGrantCycle s
  | .ageStep => Sys2Proof.Machine.execAgeStep s
  | .journalTake => Sys2Proof.Machine.execJournalTake s
  | .closeTimer => Sys2Proof.Machine.execCloseTimer s
  | .close r => Sys2Proof.Machine.execClose r s
  | .pageProgramDone k pass => Sys2Proof.Machine.execPageProgramDone k pass s
  | .journalSignatureDone => Sys2Proof.Machine.execJournalSignatureDone s
  | .recoveryScan => Sys2Proof.Machine.execRecoveryScan s
  | .scanComplete => Sys2Proof.Machine.execScanComplete s
  | .accept r k => Sys2Proof.Machine.execAccept r k s
  | .roll r => Sys2Proof.Machine.execRoll r s
  | .rolloverEnd => Sys2Proof.Machine.execRolloverEnd s
  | .stripeErase k => Sys2Proof.Machine.execStripeErase k s
  | .eraseDone k fail0 fail1 => Sys2Proof.Machine.execEraseDone k fail0 fail1 s
  | .readStart r => Sys2Proof.Machine.execReadStart r s
  | .readBatch => Sys2Proof.Machine.execReadBatch s
  | .archivedWrite r v => Sys2Proof.Machine.execArchivedWrite r v s
  | .presenceDebounced k cart => Sys2Proof.Machine.execPresenceDebounced k cart s
  | .cartridgeIdentify k how => Sys2Proof.Machine.execCartridgeIdentify k how s
  | .identify r k => Sys2Proof.Machine.execIdentify r k s
  | .powerOff r k => Sys2Proof.Machine.execPowerOff r k s
  | .wipeOk r k => Sys2Proof.Machine.execWipeOk r k s
  | .collectorPeriod bits => Sys2Proof.Machine.execCollectorPeriod bits s
  | .zero r ch => Sys2Proof.Machine.execZero r ch s
  | .tare r ch => Sys2Proof.Machine.execTare r ch s
  | .tareClr r ch => Sys2Proof.Machine.execTareClr r ch s
  | .tarePreset r ch => Sys2Proof.Machine.execTarePreset r ch s
  | .snap r ch => Sys2Proof.Machine.execSnap r ch s
  | .cmdWaitExpiry ch => Sys2Proof.Machine.execCmdWaitExpiry ch s
  | .arm r ch => Sys2Proof.Machine.execArm r ch s
  | .cancel r ch => Sys2Proof.Machine.execCancel r ch s
  | .checkTimeout ch => Sys2Proof.Machine.execCheckTimeout ch s
  | .chEnable r ch v => Sys2Proof.Machine.execChEnable r ch v s
  | .clkCfgWrite r v => Sys2Proof.Machine.execClkCfgWrite r v s
  | .sealOpen r ch secs => Sys2Proof.Machine.execSealOpen r ch secs s
  | .sealClose r ch => Sys2Proof.Machine.execSealClose r ch s
  | .sealWindowExpiry ch => Sys2Proof.Machine.execSealWindowExpiry ch s
  | .sealLineDeassert n => Sys2Proof.Machine.execSealLineDeassert n s
  | .commit r ch => Sys2Proof.Machine.execCommit r ch s
  | .sealDiscard r ch => Sys2Proof.Machine.execSealDiscard r ch s
  | .calZero r ch => Sys2Proof.Machine.execCalZero r ch s
  | .calSpan r ch => Sys2Proof.Machine.execCalSpan r ch s
  | .sealedRegisterWrite r ch reg v => Sys2Proof.Machine.execSealedRegisterWrite r ch reg v s
  | .filterAdjust ch => Sys2Proof.Machine.execFilterAdjust ch s
  | .iirKWrite r ch win v => Sys2Proof.Machine.execIirKWrite r ch win v s
  | .claim r v => Sys2Proof.Machine.execClaim r v s
  | .release r v => Sys2Proof.Machine.execRelease r v s
  | .bindEnable r b v => Sys2Proof.Machine.execBindEnable r b v s
  | .rxMessage b bytes ending => Sys2Proof.Machine.execRxMessage b bytes ending s
  | .itoExpiry b => Sys2Proof.Machine.execItoExpiry b s
  | .messageDeliver => Sys2Proof.Machine.execMessageDeliver s
  | .txElement t how => Sys2Proof.Machine.execTxElement t how s
  | .txqEnable r t v => Sys2Proof.Machine.execTxqEnable r t v s
  | .profileValid r p v => Sys2Proof.Machine.execProfileValid r p v s
  | .areaValid r a v => Sys2Proof.Machine.execAreaValid r a v s
  | .portReset r p => Sys2Proof.Machine.execPortReset r p s
  | .portResetDone p speed => Sys2Proof.Machine.execPortResetDone p speed s
  | .pipeEnable r p k v => Sys2Proof.Machine.execPipeEnable r p k v s
  | .usbPoll p k how => Sys2Proof.Machine.execUsbPoll p k how s
  | .controlRequest p how => Sys2Proof.Machine.execControlRequest p how s
  | .usbDisconnect p => Sys2Proof.Machine.execUsbDisconnect p s
  | .usbConnect p => Sys2Proof.Machine.execUsbConnect p s
  | .uartBreak u => Sys2Proof.Machine.execUartBreak u s
  | .canRxFrame k how => Sys2Proof.Machine.execCanRxFrame k how s
  | .canTxFrame k how => Sys2Proof.Machine.execCanTxFrame k how s
  | .busOffRecovery k => Sys2Proof.Machine.execBusOffRecovery k s
  | .gpCondition n lvl => Sys2Proof.Machine.execGpCondition n lvl s
  | .gpWrite r n v => Sys2Proof.Machine.execGpWrite r n v s
  | .bankSupplyFault k => Sys2Proof.Machine.execBankSupplyFault k s
  | .go r t v => Sys2Proof.Machine.execGo r t v s
  | .timerWrap t => Sys2Proof.Machine.execTimerWrap t s
  | .timerCapture t rising count => Sys2Proof.Machine.execTimerCapture t rising count s
  | .ethRxFrame p frame fcs => Sys2Proof.Machine.execEthRxFrame p frame fcs s
  | .pauseRx p quanta => Sys2Proof.Machine.execPauseRx p quanta s
  | .ethTx p => Sys2Proof.Machine.execEthTx p s
  | .txreport p => Sys2Proof.Machine.execTxreport p s
  | .ethLinkChange p up speed => Sys2Proof.Machine.execEthLinkChange p up speed s
  | .tbSnap r => Sys2Proof.Machine.execTbSnap r s
  | .step r => Sys2Proof.Machine.execStep r s
  | .set r => Sys2Proof.Machine.execSet r s
  | .pcieLinkChange up gen width => Sys2Proof.Machine.execPcieLinkChange up gen width s
  | .hostBar2Access off n wr => Sys2Proof.Machine.execHostBar2Access off n wr s
  | .inboundMsi data => Sys2Proof.Machine.execInboundMsi data s
  | .outboundAccess a n wr cpl => Sys2Proof.Machine.execOutboundAccess a n wr cpl s
  | .outboundFail a cause => Sys2Proof.Machine.execOutboundFail a cause s
  | .xctrlEnable r p v => Sys2Proof.Machine.execXctrlEnable r p v s
  | .retrain r p => Sys2Proof.Machine.execRetrain r p s
  | .ixlTrainStep p w peer => Sys2Proof.Machine.execIxlTrainStep p w peer s
  | .ixlRecovery p => Sys2Proof.Machine.execIxlRecovery p s
  | .ixlDownWait p => Sys2Proof.Machine.execIxlDownWait p s
  | .ixlPacketRx p k crc => Sys2Proof.Machine.execIxlPacketRx p k crc s
  | .ack p k => Sys2Proof.Machine.execAck p k s
  | .nak p k => Sys2Proof.Machine.execNak p k s
  | .credit p k => Sys2Proof.Machine.execCredit p k s
  | .postFwd p k => Sys2Proof.Machine.execPostFwd p k s
  | .postDone p k => Sys2Proof.Machine.execPostDone p k s
  | .qmsg p k => Sys2Proof.Machine.execQmsg p k s
  | .qmsgSend => Sys2Proof.Machine.execQmsgSend s
  | .cutAt p k => Sys2Proof.Machine.execCutAt p k s
  | .cutInstant => Sys2Proof.Machine.execCutInstant s
  | .cutReport p k => Sys2Proof.Machine.execCutReport p k s
  | .cutRelease p k => Sys2Proof.Machine.execCutRelease p k s
  | .gcutStart r => Sys2Proof.Machine.execGcutStart r s
  | .gcutRelease r => Sys2Proof.Machine.execGcutRelease r s
  | .gcutDeadline => Sys2Proof.Machine.execGcutDeadline s
  | .jsnReq p k => Sys2Proof.Machine.execJsnReq p k s
  | .jsnGrant p k => Sys2Proof.Machine.execJsnGrant p k s
  | .jsnGrantTimeout => Sys2Proof.Machine.execJsnGrantTimeout s
  | .heartbeat p k => Sys2Proof.Machine.execHeartbeat p k s
  | .heartbeatPeriod => Sys2Proof.Machine.execHeartbeatPeriod s
  | .deviceNotLive d => Sys2Proof.Machine.execDeviceNotLive d s
  | .routeTable p k => Sys2Proof.Machine.execRouteTable p k s
  | .send r => Sys2Proof.Machine.execSend r s
  | .memRd p k => Sys2Proof.Machine.execMemRd p k s
  | .memRsp p k => Sys2Proof.Machine.execMemRsp p k s
  | .memWr p k => Sys2Proof.Machine.execMemWr p k s
  | .memRdTimeout tag => Sys2Proof.Machine.execMemRdTimeout tag s
  | .timeSync p k => Sys2Proof.Machine.execTimeSync p k s
  | .handover p k => Sys2Proof.Machine.execHandover p k s
  | .handoverGo r target => Sys2Proof.Machine.execHandoverGo r target s
  | .wdogKick r => Sys2Proof.Machine.execWdogKick r s
  | .wdogExpiry k => Sys2Proof.Machine.execWdogExpiry k s
  | .revoke r k => Sys2Proof.Machine.execRevoke r k s
  | .jobGo r ch => Sys2Proof.Machine.execJobGo r ch s
  | .sha256 ch => Sys2Proof.Machine.execSha256 ch s
  | .hmac ch => Sys2Proof.Machine.execHmac ch s
  | .gcmEnc ch => Sys2Proof.Machine.execGcmEnc ch s
  | .gcmDec ch => Sys2Proof.Machine.execGcmDec ch s
  | .ctr ch => Sys2Proof.Machine.execCtr ch s
  | .cbcEnc ch => Sys2Proof.Machine.execCbcEnc ch s
  | .cbcDec ch => Sys2Proof.Machine.execCbcDec ch s
  | .sign ch => Sys2Proof.Machine.execSign ch s
  | .verify ch => Sys2Proof.Machine.execVerify ch s
  | .ecdh ch => Sys2Proof.Machine.execEcdh ch s
  | .generate ch => Sys2Proof.Machine.execGenerate ch s
  | .publicKey ch => Sys2Proof.Machine.execPublicKey ch s
  | .unwrap ch => Sys2Proof.Machine.execUnwrap ch s
  | .random ch => Sys2Proof.Machine.execRandom ch s
  | .erase ch => Sys2Proof.Machine.execErase ch s
  | .loadpub ch => Sys2Proof.Machine.execLoadpub ch s
  | .jobEnd ch => Sys2Proof.Machine.execJobEnd ch s
  | .rngTestFail apt => Sys2Proof.Machine.execRngTestFail apt s
  | .restart r => Sys2Proof.Machine.execRestart r s
  | .rngReady => Sys2Proof.Machine.execRngReady s
  | .recorderEvent code source sev p0 p1 p2 => Sys2Proof.Machine.execRecorderEvent code source sev p0 p1 p2 s
  | .recorderWrite => Sys2Proof.Machine.execRecorderWrite s
  | .swEvent r => Sys2Proof.Machine.execSwEvent r s
  | .rdSlotWrite r slot => Sys2Proof.Machine.execRdSlotWrite r slot s
  | .clearGo r => Sys2Proof.Machine.execClearGo r s
  | .clearVerified => Sys2Proof.Machine.execClearVerified s
  | .clearEraseEnd => Sys2Proof.Machine.execClearEraseEnd s
  | .modeWrite r g mode => Sys2Proof.Machine.execModeWrite r g mode s
  | .apply r g => Sys2Proof.Machine.execApply r g s
  | .powerSample rails temps => Sys2Proof.Machine.execPowerSample rails temps s
  | .voltageConfirmed => Sys2Proof.Machine.execVoltageConfirmed s
  | .pmbAlert transfer => Sys2Proof.Machine.execPmbAlert transfer s
  | .correctedError clu phys => Sys2Proof.Machine.execCorrectedError clu phys s
  | .coreUncorrectable c ea acc => Sys2Proof.Machine.execCoreUncorrectable c ea acc s
  | .substitution clu lc => Sys2Proof.Machine.execSubstitution clu lc s
  | .substitutionRetry => Sys2Proof.Machine.execSubstitutionRetry s
  | .cometStep => Sys2Proof.Machine.execCometStep s
  | .run r => Sys2Proof.Machine.execRun r s
  | .retest r clu phys => Sys2Proof.Machine.execRetest r clu phys s
  | .selfTestDone pass => Sys2Proof.Machine.execSelfTestDone pass s
  | .patrolScrub line e => Sys2Proof.Machine.execPatrolScrub line e s
  | .confirm r => Sys2Proof.Machine.execConfirm r s
  | .decline r => Sys2Proof.Machine.execDecline r s
  | .retire r frame => Sys2Proof.Machine.execRetire r frame s
  | .retireGraceExpiry => Sys2Proof.Machine.execRetireGraceExpiry s
  | .listClear r => Sys2Proof.Machine.execListClear r s
  | .wearProjection slot rate => Sys2Proof.Machine.execWearProjection slot rate s
  | .updStart r half => Sys2Proof.Machine.execUpdStart r half s
  | .abort r => Sys2Proof.Machine.execAbort r s
  | .updTimeoutExpiry => Sys2Proof.Machine.execUpdTimeoutExpiry s
  | .porst powerUp straps pfailHigh => Sys2Proof.Machine.execPorst powerUp straps pfailHigh s
  | .pllLock => Sys2Proof.Machine.execPllLock s
  | .bootVerify => Sys2Proof.Machine.execBootVerify s
  | .configTableApply => Sys2Proof.Machine.execConfigTableApply s
  | .ddrTrainDone => Sys2Proof.Machine.execDdrTrainDone s
  | .bootFlashRecheck => Sys2Proof.Machine.execBootFlashRecheck s
  | .pcieBootTimeout => Sys2Proof.Machine.execPcieBootTimeout s
  | .wrst => Sys2Proof.Machine.execWrst s
  | .warm r => Sys2Proof.Machine.execWarm r s
  | .warmResetResume => Sys2Proof.Machine.execWarmResetResume s
  | .refclkLoss refclk => Sys2Proof.Machine.execRefclkLoss refclk s
  | .lockRegain => Sys2Proof.Machine.execLockRegain s
  | .holdoverExpiry => Sys2Proof.Machine.execHoldoverExpiry s
  | .pdSwitch r v => Sys2Proof.Machine.execPdSwitch r v s
  | .pdOnDone n => Sys2Proof.Machine.execPdOnDone n s
  | .codeStoreWrite r flash => Sys2Proof.Machine.execCodeStoreWrite r flash s
  | .codeStoreWriteDone => Sys2Proof.Machine.execCodeStoreWriteDone s
  | .codeStoreCommit r half => Sys2Proof.Machine.execCodeStoreCommit r half s
  | .codeStoreCommitDone => Sys2Proof.Machine.execCodeStoreCommitDone s
  | .pfailEdge => Sys2Proof.Machine.execPfailEdge s
  | .lastGaspEnd => Sys2Proof.Machine.execLastGaspEnd s
  | .eclipseN => Sys2Proof.Machine.execEclipseN s
  | .freeze r => Sys2Proof.Machine.execFreeze r s
  | .partialFreeze r clu => Sys2Proof.Machine.execPartialFreeze r clu s
  | .thaw r => Sys2Proof.Machine.execThaw r s
  | .partialFreezeDone => Sys2Proof.Machine.execPartialFreezeDone s
  | .skip r c => Sys2Proof.Machine.execSkip r c s
  | .tapReset => Sys2Proof.Machine.execTapReset s
  | .extest cells => Sys2Proof.Machine.execExtest cells s
  | .idcode => Sys2Proof.Machine.execIdcode s
  | .samplePreload cells => Sys2Proof.Machine.execSamplePreload cells s
  | .dumpPtr v => Sys2Proof.Machine.execDumpPtr v s
  | .dump => Sys2Proof.Machine.execDump s
  | .tapFreeze b => Sys2Proof.Machine.execTapFreeze b s
  | .tapThaw b => Sys2Proof.Machine.execTapThaw b s
  | .dbgreg off wr data => Sys2Proof.Machine.execDbgreg off wr data s
  | .bypass code => Sys2Proof.Machine.execBypass code s
  | .pdumpDataRead r => Sys2Proof.Machine.execPdumpDataRead r s
  | .traceRecord => Sys2Proof.Machine.execTraceRecord s
  | .traceEnable r v => Sys2Proof.Machine.execTraceEnable r v s
  | .pfailNHigh => Sys2Proof.Machine.execPfailNHigh s
  | .serialReferenceChange which present => Sys2Proof.Machine.execSerialReferenceChange which present s
  | .pauseQuantaExpiry p => Sys2Proof.Machine.execPauseQuantaExpiry p s
  | .ctsChange u lvl => Sys2Proof.Machine.execCtsChange u lvl s
  | .inboundMemoryRequest a n wr => Sys2Proof.Machine.execInboundMemoryRequest a n wr s
  | .pmbAlertNRelease => Sys2Proof.Machine.execPmbAlertNRelease s

end Sys2Proof.Machine
end

