-- ==== Sys2Proof/WellFormed.lean ====
section
/-! DEFINITION. Which commands are well formed: the operands that a constructor's types leave too wide. A context named
exists (R105), a BD condition has a mnemonic (R140), and the byte lists of bus traffic have the lengths their formats give
(R32, R440, R461, R541, R563, R564, R568). -/

namespace Sys2Proof

open Sys2Proof.Machine (validCid)

/-- A page of a cartridge: 16,384 data bytes, 32 metadata bytes, 8 codewords (R440, R441). -/
def NandPage.ok (p : NandPage) : Bool := p.data.length == 16384 && p.info.length == 32 && p.errs.length == 8

/-- A cartridge: every programmed page has its format. -/
def Cartridge.ok (c : Cartridge) : Bool := c.pages.all (fun p => p.2.ok)

/-- A CAN frame (R541, R543): an 11-bit identifier unless extended, at most 8 bytes of data, 64 in CAN FD, and as many bytes
as its length says unless it is a remote frame. -/
def CanFrame.ok (f : CanFrame) : Bool :=
  (f.ide || decide (f.id.toNat < 2 ^ 11)) && decide (f.len.toNat ≤ if f.fdf then 64 else 8) &&
    (if f.rtr then f.data.isEmpty && !f.fdf else f.data.length == f.len.toNat)

/-- An Ixlink packet (R568): the widths of its header's fields, 8 bytes of ARGS, and up to 8 × 16 bytes of payload. -/
def IxPkt.ok (k : IxPkt) : Bool :=
  decide (k.type < 256) && decide (k.src < 8) && decide (k.dst < 8) && decide (k.vc < 4) && decide (k.hops < 16) &&
    decide (k.tag < 65536) && k.args.length == 8 && k.payload.length % 16 == 0 && decide (k.payload.length ≤ 128)

/-- A bus write carries as many bytes as its length says. -/
def lenOk (n : Nat) (wr : Option (List Byte)) : Bool :=
  match wr with
  | some bs => bs.length == n
  | none => true

/-- A requester that is a context is an existing one. -/
def Requester.ok : Requester → Bool
  | .ctx c _ => validCid c
  | _ => true

/-- The context that issues an instruction (R105); a block command has none. -/
def Instr.issuer (i : Instr) : Option Cid :=
  match i with
  | .ldb c _ _ _ _ => some c
  | .ldbs c _ _ _ _ => some c
  | .ldh c _ _ _ _ => some c
  | .ldhs c _ _ _ _ => some c
  | .ldt c _ _ _ _ => some c
  | .ldts c _ _ _ _ => some c
  | .ldw c _ _ _ _ => some c
  | .ldp c _ _ _ _ => some c
  | .ldwa c _ _ _ _ => some c
  | .lea c _ _ _ => some c
  | .stb c _ _ _ => some c
  | .sth c _ _ _ => some c
  | .stt c _ _ _ => some c
  | .stw c _ _ _ => some c
  | .stp c _ _ _ => some c
  | .stwa c _ _ _ => some c
  | .casw c _ _ _ => some c
  | .swpw c _ _ _ => some c
  | .movd c _ _ => some c
  | .mova c _ _ => some c
  | .movda c _ _ => some c
  | .movad c _ _ => some c
  | .movi c _ _ => some c
  | .movhi c _ _ => some c
  | .movia c _ _ => some c
  | .movhia c _ _ => some c
  | .movh2 c _ _ => some c
  | .movh3 c _ _ => some c
  | .aadd c _ _ _ => some c
  | .asub c _ _ _ => some c
  | .asca c _ _ _ _ => some c
  | .acmp c _ _ => some c
  | .ashl c _ _ _ => some c
  | .ashr c _ _ _ => some c
  | .aaddi c _ _ _ => some c
  | .acmpi c _ _ => some c
  | .bc c _ _ => some c
  | .bd c _ _ _ => some c
  | .baz c _ _ => some c
  | .banz c _ _ => some c
  | .dbnz c _ _ => some c
  | .call c _ => some c
  | .callw c _ => some c
  | .lac c _ _ => some c
  | .jmp c _ => some c
  | .callr c _ => some c
  | .callwr c _ => some c
  | .ret c => some c
  | .retw c => some c
  | .nop c => some c
  | .add c _ _ _ => some c
  | .addc c _ _ _ => some c
  | .sub c _ _ _ => some c
  | .subc c _ _ _ => some c
  | .cmp c _ _ => some c
  | .neg c _ _ => some c
  | .and c _ _ _ => some c
  | .or c _ _ _ => some c
  | .xor c _ _ _ => some c
  | .andn c _ _ _ => some c
  | .tst c _ _ => some c
  | .addi c _ _ _ => some c
  | .cmpi c _ _ => some c
  | .andi c _ _ _ => some c
  | .ori c _ _ _ => some c
  | .xori c _ _ _ => some c
  | .tsti c _ _ => some c
  | .shl c _ _ _ => some c
  | .shr c _ _ _ => some c
  | .sar c _ _ _ => some c
  | .rol c _ _ _ => some c
  | .ror c _ _ _ => some c
  | .clz c _ _ => some c
  | .ctz c _ _ => some c
  | .popc c _ _ => some c
  | .sext c _ _ _ => some c
  | .zext c _ _ _ => some c
  | .dadd c _ _ _ _ => some c
  | .dadc c _ _ _ _ => some c
  | .dsub c _ _ _ _ => some c
  | .dsbc c _ _ _ _ => some c
  | .dcmp c _ _ => some c
  | .dneg c _ _ => some c
  | .dabs c _ _ => some c
  | .daddi c _ _ _ => some c
  | .dcmpi c _ _ => some c
  | .dshl c _ _ _ => some c
  | .dshr c _ _ _ _ => some c
  | .dtb c _ _ => some c
  | .btd c _ _ => some c
  | .dchk c _ => some c
  | .ldpk c _ _ _ _ => some c
  | .stpk c _ _ _ => some c
  | .mul c _ _ => some c
  | .mulu c _ _ => some c
  | .mulw c _ _ _ => some c
  | .mulwu c _ _ _ => some c
  | .dmul c _ _ => some c
  | .dprs c _ _ _ => some c
  | .psra c _ _ => some c
  | .macb c _ _ _ => some c
  | .msbb c _ _ _ => some c
  | .macd c _ _ _ => some c
  | .msbd c _ _ _ => some c
  | .xclr c _ => some c
  | .xldb c _ _ => some c
  | .xldd c _ _ => some c
  | .xget c _ _ _ => some c
  | .xput c _ _ _ => some c
  | .xrd c _ _ _ _ => some c
  | .dstep c _ => some c
  | .ddstep c _ => some c
  | .fadd c _ _ _ _ => some c
  | .fsub c _ _ _ _ => some c
  | .fmul c _ _ _ _ => some c
  | .fdiv c _ _ _ _ => some c
  | .fsqrt c _ _ _ => some c
  | .fneg c _ _ => some c
  | .fabs c _ _ => some c
  | .fcmp c _ _ => some c
  | .fcmps c _ _ => some c
  | .ftoi c _ _ _ => some c
  | .itof c _ _ _ => some c
  | .dfadd c _ _ _ _ => some c
  | .dfsub c _ _ _ _ => some c
  | .dfmul c _ _ _ _ => some c
  | .dfdiv c _ _ _ _ => some c
  | .dfsqrt c _ _ _ => some c
  | .dfneg c _ _ => some c
  | .dfabs c _ _ => some c
  | .dfcmp c _ _ => some c
  | .dfcmps c _ _ => some c
  | .dfqua c _ _ _ _ => some c
  | .dftod c _ _ _ _ => some c
  | .ddtf c _ _ _ => some c
  | .mvs c _ _ _ => some c
  | .mvsp c _ _ _ _ _ => some c
  | .cms c _ _ _ => some c
  | .trs c _ _ _ _ => some c
  | .scn c _ _ _ _ => some c
  | .edt c _ _ _ _ => some c
  | .edm c _ _ _ _ _ _ => some c
  | .pkz c _ _ _ _ => some c
  | .upk c _ _ _ _ => some c
  | .cvbd c _ _ _ => some c
  | .cvdb c _ _ _ _ => some c
  | .dads c _ _ _ _ _ => some c
  | .dsbs c _ _ _ _ _ => some c
  | .dcps c _ _ _ _ _ => some c
  | .dzms c _ _ _ _ _ => some c
  | .dshs c _ _ _ _ => some c
  | .dmls c _ _ _ _ _ _ => some c
  | .loop c _ _ => some c
  | .rep c _ => some c
  | .lpop c => some c
  | .trap c _ => some c
  | .rte c => some c
  | .mfs c _ _ => some c
  | .mts c _ _ => some c
  | .yield c => some c
  | .svctxL c _ => some c
  | .svctxU c _ => some c
  | .rsctxL c _ => some c
  | .rsctxU c _ => some c
  | .setrole c => some c
  | .setkr c _ => some c
  | .mtbtr c _ _ => some c
  | .mfbtr c _ _ => some c
  | .setfk c _ _ _ => some c
  | .getfk c _ _ => some c
  | .clrfr c _ _ _ => some c
  | .tlbiVa c _ _ => some c
  | .tlbiS c _ => some c
  | .tlbiAll c => some c
  | .walkiVa c _ _ => some c
  | .walkiS c _ => some c
  | .walkiAll c => some c
  | .sync c => some c
  | .syncD c => some c
  | .syncT c => some c
  | .syncP c => some c
  | .isync c => some c
  | .post c _ _ _ _ => some c
  | .postT c _ _ _ _ _ => some c
  | .postW c _ _ _ _ => some c
  | .postWt c _ _ _ _ _ => some c
  | .postl c _ _ _ _ _ _ => some c
  | .pread c _ _ _ _ => some c
  | .preadc c _ _ _ => some c
  | .waitt c _ => some c
  | .waitta c => some c
  | .tkrd c _ _ => some c
  | .pset c _ _ _ _ _ => some c
  | .pcut c _ => some c
  | .prel c _ => some c
  | .enq c _ _ _ => some c
  | .deq c _ _ _ => some c
  | .waitq c _ => some c
  | .qcnt c _ _ => some c
  | _ => none

/-- What an operand needs beside its type. -/
def Instr.operandsOk (i : Instr) : Bool :=
  match i with
  | .bd _ cond _ _ => decide (cond.val < 6)
  | .hostAccess _ n wr => lenOk n.toNat wr
  | .hostBar2Access _ n wr => lenOk n.toNat wr
  | .outboundAccess _ n wr _ => lenOk n.toNat wr
  | .inboundMemoryRequest _ n wr => lenOk n.toNat wr
  | .presenceDebounced _ (some cart) => cart.ok
  | .collectorPeriod bits => bits.all (fun p => decide (p.1 < 64))
  | .canRxFrame _ (.frame f) => f.ok
  | .ixlPacketRx _ k _ => k.ok
  | .ack _ k | .nak _ k | .credit _ k | .postFwd _ k | .postDone _ k | .qmsg _ k | .cutAt _ k | .cutReport _ k
  | .cutRelease _ k | .jsnReq _ k | .jsnGrant _ k | .heartbeat _ k | .routeTable _ k | .memRd _ k | .memRsp _ k
  | .memWr _ k | .timeSync _ k | .handover _ k => k.ok
  | .registerWrite r _ _ => r.ok
  | .ctxStart r c => r.ok && validCid c
  | .ctxHalt r c => r.ok && validCid c
  | .roleInc r c => r.ok && validCid c
  | .skip r c => r.ok && validCid c
  | .longOpLands c | .stringUnit c _ | .fetchLineArrival c | .dataLineArrival c | .exceptionEntry c _ _ _ _
  | .haltMessageEnqueue c | .interruptEntry c | .haltTakesEffect c | .ticketWaitReady c | .waitqWake c
  | .coreUncorrectable c _ _ => validCid c
  | _ => true

/-- The well-formed commands: an instruction's context exists, and its operands are as their formats give them. -/
def Instr.wellFormed (i : Instr) : Bool := (i.issuer.map validCid).getD true && i.operandsOk

end Sys2Proof
end

