-- ==== Sys2Proof/Safety.lean ====
section
/-! DEFINITION. What counts as a safe state, and the terms in which claims say when a command has its own effect and what
that effect is. -/

namespace Sys2Proof.Machine

/-- Memory is in canonical form: addresses strictly rising, no byte listed that equals what an unlisted one reads as. -/
abbrev Memory.wf (m : List Host.Cell) : Bool := tabWf (fun _ => 0#8) m

/-! ### Instructions -/

/-- A context is about to execute an instruction that nothing else holds up or alters: it may issue (R104, R292), no read
of the tally engine, product or late exception is outstanding (R165, R247, R357), no lazy area is pending (R271), no
string instruction resumes and no repeat or loop is active (R220, R224, R228), and no breakpoint matches it (R696). -/
def State.poised (s : State) (c : Cid) : Bool :=
  let x := s.cx c
  s.canIssue c && x.late.isNone && x.pend.isEmpty && x.prods.isEmpty && !srLZ x.sr && !srES x.sr && !srRP x.sr &&
    srLD x.sr == 0 && (s.bpHits c).isEmpty

/-- Every D register named exists: D8–D15 only in an open window (R90). -/
def State.dOpen (s : State) (c : Cid) (ds : List RegNo) : Bool :=
  ds.all (fun n => decide (n.val < 8)) || srWD (s.cx c).sr != 0

/-- The state with SR replaced. -/
def State.withSr (s : State) (c : Cid) (sr : Word) : State := s.modCx c (fun x => { x with sr := sr })

/-- The state after a decimal operation wrote SR; an overflow is also noted in FSR.DVS (R148). -/
def State.withDec (s : State) (c : Cid) (sr : Word) (dv : Bool) : State :=
  if dv then (s.withSr c sr).modCx c (fun x => { x with fsr := x.fsr ||| 0x400#11 }) else s.withSr c sr

/-- The state after a floating-point operation noted its flags in FSR (R190). -/
def State.withFsr (s : State) (c : Cid) (f : BitVec 11) : State := s.modCx c (fun x => { x with fsr := x.fsr ||| f })

/-- The state once the products in flight of a context have landed (R165–R167). -/
def State.settled (s : State) (c : Cid) : State := s.modCx c Ctx.land

/-- The state with an X register replaced, at the width of the mode (R84). -/
def State.withX (s : State) (c : Cid) (n : Fin 4) (v : Nat) : State :=
  s.modCx c (fun x => { x with x := x.x.set n (BitVec.ofNat 176 (v % 2 ^ s.xWidth c)) })

/-- The state with a product under way that PH:PL show when it lands (R165), its halves at the width of the mode. -/
def State.withProduct (s : State) (c : Cid) (h l : Nat) : State :=
  s.modCx c (fun x => { x with prods := x.prods ++
    [(BitVec.ofNat 80 (h % 2 ^ s.width c), BitVec.ofNat 80 (l % 2 ^ s.width c))] })

/-- The state with PH and PL replaced, at the width of the mode. -/
def State.withP (s : State) (c : Cid) (h l : Nat) : State :=
  s.modCx c (fun x =>
    { x with ph := BitVec.ofNat 80 (h % 2 ^ s.width c), pl := BitVec.ofNat 80 (l % 2 ^ s.width c) })

/-- The instruction is completed and counted, its comparator exemption used up (R698, R701). -/
def State.counted (s : State) (c : Cid) : State := (s.modCx c (fun x => { x with skip := false })).count 1 (some c) 1

/-- Completion in sequence: the PC goes to the next slot (R127), a vector line being left where the slot lies outside it. -/
def State.retire (s : State) (c : Cid) : State := (s.modCx c (fun x => x.goto (codeNext x.pc) false)).counted c

/-- Completion by a transfer of control to a target (R139–R143). -/
def State.jumped (s : State) (c : Cid) (t : Word) : State :=
  ((s.modCx c (fun x => x.goto t true)).traceXfer 1 c (s.cx c).pc 0).counted c

/-- The registers of a decimal64 value exist: a pair at an even number, or one register in Conjunction (R66, R178). -/
def State.pairNamed (s : State) (c : Cid) (n : RegNo) : Bool := (s.wide c || n.val % 2 == 0) && s.dOpen c [n, n + 1]

/-- The state with a decimal64 value written to its registers (R66). -/
def State.withPair (s : State) (c : Cid) (n : RegNo) (v : Nat) : State :=
  if s.wide c then s.setD c n (v % 2 ^ 64) else (s.setD c n (v / 2 ^ 40 % 2 ^ 24)).setD c (n + 1) (v % 2 ^ 40)

/-! ### Accesses to memory -/

/-- The physical address of a virtual address that a direct BTR of the context maps as normal cacheable memory (R309–R313);
none where no BTR covers it, or the lowest-numbered one that does walks a table, names another attribute, or denies the
access to a user or a writer. -/
def State.directPa (s : State) (c : Cid) (ea : Word) (write : Bool) : Option Nat :=
  let x := s.cx c
  match findBtr x.btr ea.toNat with
  | none => none
  | some i =>
    let b := x.btr[i]
    if b.attr.getLsbD 1 || getF b.attr 2 2 != 0 || (write && !b.attr.getLsbD 4) || (srPL x.sr == 0#2 && !b.attr.getLsbD 6) then none
    else some ((getF b.pbase 16 24 * 65536 + ea.toNat - getF b.vbase 16 24 * 65536) % 2 ^ 40)

/-- An access of `n` bytes passes every check of R329 and nothing else of the machine takes part in it: it is mapped directly
to assigned DRAM within one line, with no translation, key change or store still pending and no old key-store byte of the frame
in its core's key cache (R335), the frame's key grants it, the frame is not retired and the line not uncorrectable, and no
watchpoint matches. Answers its physical address. -/
def State.plainAt (s : State) (c : Cid) (ea : Word) (n : Nat) (write : Bool) : Option Nat :=
  match s.directPa c ea write with
  | none => none
  | some pa =>
    let kb := s.keyByte (pa / 4096)
    if decide (ea.toNat % 64 + n ≤ 64) && decide (pa + n ≤ s.dramEnd) && !s.stopped && (s.cx c).staleBtr.isEmpty &&
        s.inval.isEmpty && (s.staleKey (coreIdx c) (pa / 4096)).isNone && (s.core_ (coreIdx c)).sb.isEmpty && !kb.getLsbD 6 && !s.ueAt pa n &&
        decide ((if write then 2 else 1) ≤ keyRight (s.cx c).krr (srPL (s.cx c).sr) (kb.toNat % 16)) &&
        (s.wpHits c ea n write).isEmpty
    then some pa else none

/-- `n` bytes at a virtual address in plain memory: each part within a 64-byte line is plain, together they lie at consecutive
physical addresses from the one answered, and no watchpoint matches the whole. -/
def State.plainSpan (s : State) (c : Cid) (ea : Word) (n : Nat) (write : Bool) : Option Nat :=
  match s.directPa c ea write with
  | none => none
  | some pa =>
    if (lineParts 16 ea.toNat n).all (fun p => s.plainAt c (BitVec.ofNat 40 p.1) p.2 write == some (pa + (p.1 - ea.toNat))) &&
        (s.wpHits c ea n write).isEmpty
    then some pa else none

/-- The line of the PC can be fetched from plain memory: a direct BTR allows execution and the key grants it (R329). Answers
the physical address of the line. -/
def State.fetchPa (s : State) (c : Cid) : Option Nat :=
  let x := s.cx c
  let line := x.pc &&& 0xFFFFFFFFC0#40
  match s.plainAt c line 64 false with
  | none => none
  | some pa =>
    if (findBtr x.btr line.toNat).any (fun i => x.btr[i].attr.getLsbD 5) &&
        keyRight x.krr (srPL x.sr) ((s.keyByte (pa / 4096)).toNat % 16) == 3
    then some pa else none

/-- The state once an access of a context has marked its frame referenced and its core's key cache holds the frame's key-store
byte (R319, R325); the index of the device's free choices moves on. -/
def State.touched (s : State) (c : Cid) (pa : Nat) : State := { s.markRef (coreIdx c) pa none false with free := s.free + 1 }

/-- The state once the addressing mode has updated its base, where it does (R131, R132). -/
def State.withBase (s : State) (c : Cid) (ab : RegNo) (u : Option Word) : State :=
  match u with
  | some v => s.setA c ab v
  | none => s

/-- The state with a store of the context behind those its core has buffered (R252). -/
def State.withStore (s : State) (c : Cid) (pa : Nat) (bs : List Byte) : State :=
  s.pushStore { cid := c, pl := srPL (s.cx c).sr, addr := pa, data := bs, dev := false }

/-- No operand of the string group, an address and a length each, lies in device memory (R203). -/
def State.noDevice (s : State) (c : Cid) (ops : List (Nat × Nat)) : Bool :=
  ops.all (fun o => (devByte c s (o.2 / 4096 + 2) o.1 o.2).isNone)

/-- The state once an interruptible instruction has begun (R199): its owner, its registers, and what ESW would show. -/
def State.begins (s : State) (c : Cid) (owner : Byte) (rs : List RegNo) (esw : Nat) : State :=
  s.modCx c (fun x => { x with strOp := some {
    owner := owner, r1 := rs.getD 0 0, r2 := rs.getD 1 0, r3 := rs.getD 2 0, r4 := rs.getD 3 0, r5 := rs.getD 4 0
    r6 := rs.getD 5 0, live := BitVec.ofNat 40 (owner.toNat + esw), begun := false } })

/-! ### Exception entry -/

/-- The physical address of the frame that an exception entry of the context pushes (R267, R269), where SPS is aligned, leaves
room, and the frame lies in plain memory at the handler's privilege; the rescue area is not in use. -/
def State.framePa (s : State) (c : Cid) : Option Nat :=
  let sps := (s.cx c).sps.toNat
  let f := frameSize (s.wide c)
  if sps % 8 = 0 ∧ f ≤ sps ∧ s.flag (F.CORE.CTX_CFG.RBUSY (s.corePage c) (ctxNo c)) = false then
    (s.withSr c (putF (s.cx c).sr 17 2 (if isWardenCid c then 3 else 1))).plainSpan c (BitVec.ofNat 40 (sps - f)) f true
  else none

/-- An entry for a vector can be taken: no lazy area is pending, no double fault arises (R94, R282), and the handler is not the
boot ROM's own table (R669). -/
def State.entryClear (s : State) (c : Cid) (vec : Nat) : Bool :=
  let x := s.cx c
  !srLZ x.sr && !(x.vbr == 0xFFFFF00000#40) && !((vec == 12 || vec == 13) && (srFB x.sr || x.depthOpen != 0))

/-- What an exception entry leaves (R267–R270): the frame's base at `pa` with the saved PC, SR, FSR, KRR, CAUSE, the fault
address, STAG and the tag, no other byte of memory changed; SPS at the frame, the running SR as R268 says, the PC at the
vector, every A and D register, X register and key as before. -/
def State.entered (s t : State) (c : Cid) (pa : Nat) (pc : Word) (vec info synd : Nat) (fault : Word) : Prop :=
  let x := s.cx c
  let y := t.cx c
  let w := s.wide c
  let fr := x.sps - BitVec.ofNat 40 (frameSize w)
  let fast := vec == 12 || vec == 13 || vec == 48
  let tag := vec + 64 * b2n w + 1024 * b2n fast + 4096 * c.toNat + 2 ^ 24 * 0x7E10
  (y.pc = x.vbr + BitVec.ofNat 40 (64 * vec) ∧ y.sps = fr ∧ y.a = x.a ∧ y.d = x.d ∧ y.win = x.win ∧ y.x = x.x ∧ y.krr = x.krr ∧
    y.stag = x.stag ∧ y.vbr = x.vbr) ∧
  ((srPL y.sr).toNat = (if isWardenCid c then 3 else 1) ∧ srFB y.sr = (srFB x.sr || (fast && !isWardenCid c)) ∧
    srLZ y.sr = true ∧ srES y.sr = false ∧ srRP y.sr = false ∧ srLD y.sr = 0 ∧ srCT y.sr = false ∧ srDVT y.sr = false ∧
    srIPL y.sr = (if 32 ≤ vec ∧ vec ≤ 47 then vec - 32 else srIPL x.sr) ∧
    y.sr &&& 0x887FF07FFF#40 ||| 0x80000#40 = x.sr &&& 0x887FF07FFF#40 ||| 0x80000#40) ∧
  ((List.range 8).map (fun i => leVal (t.bytes (pa + 5 * i) 5)) =
    [pc.toNat, x.sr.toNat, x.fsr.toNat, (krrRead x.krr (srPL x.sr)).toNat, vec + 64 * info + 65536 * synd, fault.toNat,
      x.stag.toNat, tag] ∧
    (∀ a, a < pa ∨ pa + 40 ≤ a → t.byte a = s.byte a))

/-! ### Flags by their meanings -/

/-- Does a value lie in the two's-complement range of `w` bits? -/
def inRange (w : Nat) (i : Int) : Bool := decide (-(2 ^ (w - 1) : Nat) ≤ i) && decide (i < (2 ^ (w - 1) : Nat))

/-- SR after an add of `w`-bit values (R145): the carry out, a true signed sum out of range, a zero result, its top bit. -/
def addSr (w : Nat) (sr : Word) (a b cin : Nat) : Word :=
  let r := (a + b + cin) % 2 ^ w
  setCVZN sr (decide (2 ^ w ≤ a + b + cin)) (!inRange w (sint w a + sint w b + cin)) (r == 0) (decide (2 ^ (w - 1) ≤ r))

/-- SR after a subtract of `w`-bit values, as a + NOT b + carry-in (R145): no borrow, a true signed difference out of
range, a zero result, its top bit. -/
def subSr (w : Nat) (sr : Word) (a b cin : Nat) : Word :=
  let r := (a + (2 ^ w - 1 - b) + cin) % 2 ^ w
  setCVZN sr (decide (b + 1 ≤ a + cin)) (!inRange w (sint w a - sint w b - 1 + cin)) (r == 0) (decide (2 ^ (w - 1) ≤ r))

/-- SR after a logical operation or a move of bits (R150, R152, R153): Z and N of the result. -/
def znSr (w : Nat) (sr : Word) (r : Nat) : Word := setZN sr (r == 0) (decide (2 ^ (w - 1) ≤ r))

/-- SR after a decimal operation (R146): Z and N of the result, DC and DV. -/
def decSr (n : Nat) (sr : Word) (r : Nat) (dc dv : Bool) : Word :=
  setBit (setBit (setZN sr (bcdVal n r == 0) (decide (5 ≤ r / 16 ^ (n - 1) % 16))) 4 dc) 5 dv

/-! ### Writes of registers -/

/-- A requester's access reaches the register at an address: the address is aligned, and a context's older stores are performed
(R33), it reaches control space and its key has the right (R31, R329). -/
def State.reaches (s : State) (r : Requester) (a : Nat) : Bool :=
  s.canReach r && decide (a % 8 = 0) && decide (s.inOrder r = s) &&
    (match r with
      | .ctx c pl => s.regionOf c a != .unassigned && (s.regFault c pl a true).isNone
      | _ => true)

/-- A requester's write of a control register beyond the header passes every test of R727: it reaches control space, the page
exists, its domain is on, its key and its lock allow the write, the register exists; and no restart of DBG waits. -/
def State.writable (s : State) (r : Requester) (a : Nat) : Bool :=
  s.reaches r a && !inWindow a && !s.dbgDue && decide (0x40 ≤ a % 4096) &&
    (match pageOf a with
      | some k => s.powered (domainOf (pageBase a)) && s.gate r k a true == .pass && (rowOf k (a % 4096)).isSome
      | none => false)

/-- The same for a header register of a page, at its base and an offset. -/
def State.headWritable (s : State) (r : Requester) (p off : Nat) : Bool :=
  s.reaches r (p + off) && decide (off < 0x40) &&
    (match pageOf (p + off) with
      | some k => decide (pageBase (p + off) = p) && !inWindow (p + off) && s.powered (domainOf p) &&
          s.gate r k (p + off) true == .pass && (rowOf k off).isSome
      | none => false)

/-- A register of the queue window can be written: control space is reached and the queue manager's domain is on. -/
def State.winWritable (s : State) (r : Requester) (a : Nat) : Bool := s.reaches r a && inWindow a && s.powered 12

/-- The page has recorded an error with a code (R41): ERR is 1, and where it was 0 the code stands in the syndrome. -/
def State.pageErrs (s t : State) (p code : Nat) : Prop :=
  t.flag (F.HDR.PG_INT_STATUS.ERR p) = true ∧
  (s.flag (F.HDR.PG_INT_STATUS.ERR p) = false → t.get (F.HDR.PG_ERR_SYNDROME.CODE p) = code)

/-- A command has its effect on a state: it answers a next state of which `P` holds. -/
def Does (i : Instr) (s : State) (P : State → Prop) : Prop := ∃ t, exec i s = .next t ∧ P t

end Sys2Proof.Machine
end

