-- ==== Sys2Proof/Certificates/Slice0/Obligations.lean ====
section
/-! DEFINITION. The statements for the provers: what the rules of the spec say of the commands and of the machine. -/

open Sys2Proof Sys2Proof.Machine

/-! ### Instructions: moves, addresses, control flow -/

/-- R131, R136–R138: LEA in the modes that leave the base alone, the register moves, and the constants, MOVH2 and MOVH3 in Conjunction;
address arithmetic modulo 2^40, whose compares write C, V, Z and N as a 40-bit binary compare does. Each writes the one register it names,
or flags, and completes in sequence. -/
def Obligations.MovesAndAddresses : Prop :=
  ∀ (s : State) (c : Cid) (rd ra rb ax : RegNo) (sc : BitVec 2) (d : BitVec 22) (e : BitVec 16) (aux : Byte) (imm : BitVec 20),
    s.poised c = true →
    let a := s.av c ra
    let b := s.av c rb
    let i := imm.signExtend 40
    let cmp (x y : Word) : State := (s.withSr c (subSr 40 (s.cx c).sr x.toNat y.toNat 1)).retire c
    exec (.lea c rd ra (.disp d)) s = .next ((s.setA c rd (s.av c ra + d.signExtend 40)).retire c) ∧
    exec (.lea c rd ra (.indexed ax sc e)) s =
      .next ((s.setA c rd (s.av c ra + s.av c ax * BitVec.ofNat 40 ([1, 5, 8, 64].getD sc.toNat 0) + e.signExtend 40)).retire c) ∧
    exec (.mova c rd ra) s = .next ((s.setA c rd (s.av c ra)).retire c) ∧
    exec (.movia c rd imm) s = .next ((s.setA c rd (imm.signExtend 40)).retire c) ∧
    exec (.movhia c rd imm) s = .next ((s.setA c rd (imm ++ (s.av c rd).extractLsb' 0 20)).retire c) ∧
    (s.dOpen c [rd] = true →
      exec (.movda c rd ra) s = .next ((s.setD c rd (s.av c ra).toNat).retire c) ∧
      exec (.movi c rd imm) s = .next ((s.setD c rd (imm.signExtend 80).toNat).retire c) ∧
      exec (.movhi c rd imm) s = .next ((s.setD c rd
        (s.dv c rd % 2 ^ 20 + imm.toNat * 2 ^ 20 + s.dv c rd / 2 ^ 40 * 2 ^ 40)).retire c) ∧
      (s.wide c = true →
        exec (.movh2 c rd imm) s = .next ((s.setD c rd
          (s.dv c rd % 2 ^ 40 + imm.toNat * 2 ^ 40 + s.dv c rd / 2 ^ 60 * 2 ^ 60)).retire c) ∧
        exec (.movh3 c rd imm) s = .next ((s.setD c rd (s.dv c rd % 2 ^ 60 + imm.toNat * 2 ^ 60)).retire c))) ∧
    (s.dOpen c [ra] = true → exec (.movad c rd ra) s = .next ((s.setA c rd (BitVec.ofNat 40 (s.dv c ra))).retire c)) ∧
    (s.dOpen c [rd, ra] = true → exec (.movd c rd ra) s = .next ((s.setD c rd (s.dv c ra)).retire c)) ∧
    exec (.aadd c rd ra rb) s = .next ((s.setA c rd (a + b)).retire c) ∧
    exec (.asub c rd ra rb) s = .next ((s.setA c rd (a - b)).retire c) ∧
    exec (.aaddi c rd ra imm) s = .next ((s.setA c rd (a + i)).retire c) ∧
    exec (.acmp c ra rb) s = .next (cmp a b) ∧
    exec (.acmpi c ra imm) s = .next (cmp a i) ∧
    (aux.toNat < 7 → exec (.asca c rd ra rb aux) s =
      .next ((s.setA c rd (a + b * BitVec.ofNat 40 ([1, 2, 4, 5, 8, 16, 64].getD aux.toNat 0))).retire c)) ∧
    (aux.toNat < 40 →
      exec (.ashl c rd ra aux) s = .next ((s.setA c rd (a <<< aux.toNat)).retire c) ∧
      exec (.ashr c rd ra aux) s = .next ((s.setA c rd (a >>> aux.toNat)).retire c))

/-- R89, R123, R126, R127, R139–R143: branches, jumps, calls, returns, LAC and NOP. A taken branch goes to the slot its displacement counts
from its own; one that is not taken completes in sequence. DBNZ writes its decremented A register either way; the decimal tests need valid
digits. A call writes the next slot's address to A14; the W forms step the window: WD and CWP up on a call while a window is left, down on
a return while one is open. A register target must be a valid code address. -/
def Obligations.BranchesAndCalls : Prop :=
  ∀ (s : State) (c : Cid) (cond ra : RegNo) (disp : BitVec 24), s.poised c = true →
    let go (u : State) (taken : Bool) : State :=
      if taken then u.jumped c (codeTarget (s.cx c).pc disp.toInt) else u.retire c
    let v := s.dv c ra
    let bd (n : RegNo) (taken : Bool) : Prop := s.dOpen c [ra] = true → exec (.bd c n ra disp) s = .next (go s taken)
    let a := s.av c ra - 1
    let pc := (s.cx c).pc
    let sr := (s.cx c).sr
    let link (u : State) (t : Word) : State := (u.setA c 14 (codeNext pc)).jumped c t
    let down : State := s.withSr c (putF (putF sr 22 3 (srWD sr + 1)) 20 2 (srCWP sr + 1))
    let up : State := s.withSr c (putF (putF sr 22 3 (srWD sr - 1)) 20 2 (srCWP sr + 3))
    exec (.bc c cond disp) s = .next (go s (condHolds (s.cx c).sr cond)) ∧
    exec (.baz c ra disp) s = .next (go s (s.av c ra == 0)) ∧
    exec (.banz c ra disp) s = .next (go s (s.av c ra != 0)) ∧
    exec (.dbnz c ra disp) s = .next (go (s.setA c ra a) (a != 0)) ∧
    bd 0 (v == 0) ∧ bd 1 (v != 0) ∧ bd 2 (v.testBit (s.width c - 1)) ∧ bd 3 (!v.testBit (s.width c - 1)) ∧
    (bcdOk (s.digits c) v = true → bd 4 (decide (decVal (s.digits c) v < 0)) ∧ bd 5 (decide (0 ≤ decVal (s.digits c) v))) ∧
    exec (.nop c) s = .next (s.retire c) ∧
    exec (.lac c ra disp) s = .next ((s.setA c ra (codeTarget pc disp.toInt)).retire c) ∧
    exec (.call c disp) s = .next (link s (codeTarget pc disp.toInt)) ∧
    (srWD sr ≠ 4 → exec (.callw c disp) s = .next (link down (codeTarget pc disp.toInt))) ∧
    (codeOk (s.av c ra) = true →
      exec (.jmp c ra) s = .next (s.jumped c (s.av c ra)) ∧
      exec (.callr c ra) s = .next (link s (s.av c ra)) ∧
      (srWD sr ≠ 4 → exec (.callwr c ra) s = .next (link down (s.av c ra)))) ∧
    (codeOk (s.av c 14) = true →
      exec (.ret c) s = .next (s.jumped c (s.av c 14)) ∧
      (srWD sr ≠ 0 → exec (.retw c) s = .next (up.jumped c (s.av c 14))))

/-- R139, R145, R147: after CMP, the conditions of BC read as the comparisons of the two registers: HI and LS unsigned, GE, LT, GT and
LE signed, EQ and NE equality. DCMP and DCMPI of valid digits compare the signed decimal values: they write C, V, Z and N, leave DC and DV
as they were, and all six conditions give the signed decimal comparison. -/
def Obligations.CompareThenBranch : Prop :=
  ∀ (s : State) (c : Cid) (ra rb : RegNo) (imm : BitVec 20), s.poised c = true → s.dOpen c [ra, rb] = true →
    let w := s.width c
    let a := s.dv c ra % 2 ^ w
    let b := s.dv c rb % 2 ^ w
    let n := s.digits c
    let va := decVal n (s.dv c ra)
    let holds (t : State) (k : RegNo) : Bool := condHolds (t.cx c).sr k
    let decimal (x y : Int) (t : State) : Prop :=
      let sr := (t.cx c).sr
      srZ sr = decide (x = y) ∧ srN sr = decide (x < y) ∧ srV sr = false ∧ srC sr = decide (y ≤ x) ∧
      srDC sr = srDC (s.cx c).sr ∧ srDV sr = srDV (s.cx c).sr ∧
      holds t 9 = decide (y < x) ∧ holds t 10 = decide (x ≤ y) ∧ holds t 11 = decide (y ≤ x) ∧ holds t 12 = decide (x < y) ∧
      holds t 13 = decide (y < x) ∧ holds t 14 = decide (x ≤ y)
    Does (.cmp c ra rb) s (fun t =>
      holds t 1 = decide (a = b) ∧ holds t 2 = decide (a ≠ b) ∧ holds t 9 = decide (b < a) ∧ holds t 10 = decide (a ≤ b) ∧
      holds t 11 = decide (sint w b ≤ sint w a) ∧ holds t 12 = decide (sint w a < sint w b) ∧
      holds t 13 = decide (sint w b < sint w a) ∧ holds t 14 = decide (sint w a ≤ sint w b)) ∧
    (bcdOk n (s.dv c ra) = true →
      (bcdOk n (s.dv c rb) = true → Does (.dcmp c ra rb) s (decimal va (decVal n (s.dv c rb)))) ∧
      (bcdOk 5 imm.toNat = true → Does (.dcmpi c ra imm) s (decimal va (decVal 5 imm.toNat))))

/-! ### Instructions: binary, decimal and floating-point arithmetic -/

/-- R145, R150, R151: the binary adds and subtracts. The result is the sum modulo 2^W; C is the carry out, or no borrow; V says
that the true signed result lies out of range; Z and N describe the result. CMP and CMPI write no register. -/
def Obligations.BinaryAddSubtract : Prop :=
  ∀ (s : State) (c : Cid) (rd ra rb : RegNo) (imm : BitVec 20), s.poised c = true →
    let w := s.width c
    let a := s.dv c ra % 2 ^ w
    let b := s.dv c rb % 2 ^ w
    let i := (imm.signExtend w).toNat
    let sr := (s.cx c).sr
    let cin := b2n (srC sr)
    let add (u : State) (x y k : Nat) : State := (u.withSr c (addSr w sr x y k)).retire c
    let sub (u : State) (x y k : Nat) : State := (u.withSr c (subSr w sr x y k)).retire c
    let neg (x y k : Nat) : Nat := (x + (2 ^ w - 1 - y) + k) % 2 ^ w
    (s.dOpen c [rd, ra, rb] = true →
      exec (.add c rd ra rb) s = .next (add (s.setD c rd (a + b)) a b 0) ∧
      exec (.addc c rd ra rb) s = .next (add (s.setD c rd (a + b + cin)) a b cin) ∧
      exec (.sub c rd ra rb) s = .next (sub (s.setD c rd (neg a b 1)) a b 1) ∧
      exec (.subc c rd ra rb) s = .next (sub (s.setD c rd (neg a b cin)) a b cin)) ∧
    (s.dOpen c [ra, rb] = true → exec (.cmp c ra rb) s = .next (sub s a b 1)) ∧
    (s.dOpen c [rd, ra] = true →
      exec (.neg c rd ra) s = .next (sub (s.setD c rd (2 ^ w - a)) 0 a 1) ∧
      exec (.addi c rd ra imm) s = .next (add (s.setD c rd (a + i)) a i 0)) ∧
    (s.dOpen c [ra] = true → exec (.cmpi c ra imm) s = .next (sub s a i 1))

/-- R150, R151, R153: the logical operations and the bit operations write Z and N of their result and no other flag; TST and
TSTI write no register. An immediate is zero-extended. -/
def Obligations.LogicAndBits : Prop :=
  ∀ (s : State) (c : Cid) (rd ra rb : RegNo) (imm : BitVec 20) (aux : Byte), s.poised c = true →
    let w := s.width c
    let a := s.dv c ra % 2 ^ w
    let b := s.dv c rb % 2 ^ w
    let res (r : Nat) : State := ((s.setD c rd r).withSr c (znSr w (s.cx c).sr r)).retire c
    let test (r : Nat) : State := (s.withSr c (znSr w (s.cx c).sr r)).retire c
    (s.dOpen c [rd, ra, rb] = true →
      exec (.and c rd ra rb) s = .next (res (a &&& b)) ∧
      exec (.or c rd ra rb) s = .next (res (a ||| b)) ∧
      exec (.xor c rd ra rb) s = .next (res (a ^^^ b)) ∧
      exec (.andn c rd ra rb) s = .next (res (a &&& (2 ^ w - 1 - b)))) ∧
    (s.dOpen c [ra, rb] = true → exec (.tst c ra rb) s = .next (test (a &&& b))) ∧
    (s.dOpen c [rd, ra] = true →
      exec (.andi c rd ra imm) s = .next (res (a &&& imm.toNat)) ∧
      exec (.ori c rd ra imm) s = .next (res (a ||| imm.toNat)) ∧
      exec (.xori c rd ra imm) s = .next (res (a ^^^ imm.toNat)) ∧
      exec (.popc c rd ra) s = .next (res ((List.range w).filter (fun k => a.testBit k)).length) ∧
      exec (.clz c rd ra) s = .next (res (if a = 0 then w else w - 1 - a.log2)) ∧
      exec (.ctz c rd ra) s = .next (res ((List.range w).takeWhile (fun k => !a.testBit k)).length) ∧
      (aux.toNat + 2 ≤ w →
        exec (.zext c rd ra aux) s = .next (res (a % 2 ^ (aux.toNat + 1))) ∧
        exec (.sext c rd ra aux) s = .next (res
          (a % 2 ^ (aux.toNat + 1) + if a.testBit aux.toNat then 2 ^ w - 2 ^ (aux.toNat + 1) else 0)))) ∧
    (s.dOpen c [ra] = true → exec (.tsti c ra imm) s = .next (test (a &&& imm.toNat)))

/-- R152: the shifts and rotates, with an immediate count below W or with the count in the low byte of a D register. Z and N
describe the result; C is unchanged for a count of 0 and else the last bit moved out, 0 for a logical shift by more than W. -/
def Obligations.ShiftsAndRotates : Prop :=
  ∀ (s : State) (c : Cid) (rd ra rb : RegNo) (aux : Byte) (byReg : Bool), s.poised c = true → s.dOpen c [rd, ra, rb] = true →
    (byReg = true ∨ aux.toNat < s.width c) →
    let w := s.width c
    let a := s.dv c ra % 2 ^ w
    let n := if byReg then s.dv c rb % 256 else aux.toNat
    let cnt : ShiftCount := if byReg then .reg rb else .imm aux
    let sr := (s.cx c).sr
    let top := a.testBit (w - 1)
    let res (r : Nat) (out : Bool) : State :=
      ((s.setD c rd r).withSr c (znSr w (if n = 0 then sr else setBit sr 0 out) r)).retire c
    let fill := if top then 2 ^ w - 1 else 0
    let k := n % w
    exec (.shl c rd ra cnt) s = .next (res (a * 2 ^ n % 2 ^ w) (n ≤ w && a.testBit (w - n))) ∧
    exec (.shr c rd ra cnt) s = .next (res (a / 2 ^ n) (a.testBit (n - 1))) ∧
    exec (.sar c rd ra cnt) s =
      .next (res (((a + fill * 2 ^ w) / 2 ^ (min n w)) % 2 ^ w) (if n < w then a.testBit (n - 1) else top)) ∧
    exec (.rol c rd ra cnt) s =
      .next (res (a * 2 ^ k % 2 ^ w + a / 2 ^ (w - k)) (if k = 0 then a.testBit 0 else a.testBit (w - k))) ∧
    exec (.ror c rd ra cnt) s =
      .next (res (a / 2 ^ k + a % 2 ^ k * 2 ^ (w - k)) (if k = 0 then top else a.testBit (k - 1)))

/-- R146, R147, R155, R156, R157: decimal adds, subtracts and compares of registers with valid digits, with DVT off. DC is the
carry, or no borrow, of the digits; DV says that the true signed result does not fit, and is 0 with U set. -/
def Obligations.DecimalAddSubtract : Prop :=
  ∀ (s : State) (c : Cid) (rd ra rb : RegNo) (u : Bool) (imm : BitVec 20), s.poised c = true →
    s.dOpen c [rd, ra, rb] = true → srDVT (s.cx c).sr = false →
    bcdOk (s.digits c) (s.dv c ra) = true → bcdOk (s.digits c) (s.dv c rb) = true →
    let n := s.digits c
    let a := bcdVal n (s.dv c ra)
    let b := bcdVal n (s.dv c rb)
    let va := decVal n (s.dv c ra)
    let vb := decVal n (s.dv c rb)
    let vi := decVal 5 imm.toNat
    let i := (vi % (10 ^ n : Nat)).toNat
    let sr := (s.cx c).sr
    let cin := b2n (srDC sr)
    let res (r : Nat) (dc : Bool) (dv : Bool) : State :=
      let d := toBcd n r
      ((s.setD c rd d).withDec c (decSr n sr d dc dv) dv).retire c
    let off (v : Int) : Bool := !decFits n v
    let neg : State := res (10 ^ n - a) (decide (a = 0)) (off (-va))
    let cmp (x y : Int) : State :=
      (s.withSr c (setCVZN sr (decide (y ≤ x)) false (decide (x = y)) (decide (x < y)))).retire c
    exec (.dadd c rd ra rb u) s = .next (res (a + b) (decide (10 ^ n ≤ a + b)) (!u && off (va + vb))) ∧
    exec (.dadc c rd ra rb u) s = .next (res (a + b + cin) (decide (10 ^ n ≤ a + b + cin)) (!u && off (va + vb + cin))) ∧
    exec (.dsub c rd ra rb u) s = .next (res (a + 10 ^ n - b) (decide (b ≤ a)) (!u && off (va - vb))) ∧
    exec (.dsbc c rd ra rb u) s =
      .next (res (a + 10 ^ n - b - (1 - cin)) (decide (b + 1 ≤ a + cin)) (!u && off (va - vb - (1 - cin)))) ∧
    exec (.dcmp c ra rb) s = .next (cmp va vb) ∧
    exec (.dneg c rd ra) s = .next neg ∧
    exec (.dabs c rd ra) s = .next (if va < 0 then neg else res a false false) ∧
    (bcdOk 5 imm.toNat = true →
      exec (.daddi c rd ra imm) s = .next (res (a + i) (decide (10 ^ n ≤ a + i)) (off (va + vi))) ∧
      exec (.dcmpi c ra imm) s = .next (cmp va vi))

/-- R158, R159, R160: the digit shifts and the conversions between decimal and binary, with DVT off. DSHL and DTB leave DC
alone; DSHR rounds by the mode of RC, DC saying that a dropped digit was not zero; DCHK tests the digits and never faults. With
the reserved RMD 7 the spec gives no mode, and the model takes an open one of the seven (log 109). -/
def Obligations.DecimalShiftsAndConversions : Prop :=
  ∀ (s : State) (c : Cid) (rd ra rm : RegNo) (aux : Byte), s.poised c = true → s.dOpen c [rd, ra] = true →
    srDVT (s.cx c).sr = false →
    let n := s.digits c
    let w := s.width c
    let a := s.dv c ra
    let v := decVal n a
    let sr := (s.cx c).sr
    let res (t : Int) (dc : Bool) : State :=
      let d := decOf n t
      ((s.setD c rd d).withDec c (decSr n sr d dc (!decFits n t)) (!decFits n t)).retire c
    let bin := (v % (2 ^ w : Nat)).toNat
    let shifts (mode : Nat) (u : State → State) : Prop := exec (.dshr c rd ra rm aux) s =
      .next (u (res (roundShift v aux.toNat mode).1 (roundShift v aux.toNat mode).2))
    exec (.btd c rd ra) s = .next (res (sint w a) false) ∧
    exec (.dchk c ra) s = .next ((s.withSr c (setBit sr 2 (bcdOk n a))).retire c) ∧
    (bcdOk n a = true →
      exec (.dtb c rd ra) s = .next (((s.setD c rd bin).withSr c (znSr w sr bin)).retire c) ∧
      (aux.toNat ≤ n →
        exec (.dshl c rd ra aux) s = .next (res (v * (10 ^ aux.toNat : Nat)) (srDC sr)) ∧
        (rm = 0 → srRMD sr < 7 → shifts (srRMD sr) id) ∧ (rm ≠ 0 → rm.val < 8 → shifts (rm.val - 1) id) ∧
        (rm = 0 → srRMD sr = 7 → ∃ m, m < 7 ∧ shifts m (fun t => { t with free := s.free + 1 }))))

/-- R164, R165, R168, R171: the binary multiplies, PSRA and DSTEP. A product of MUL, MULU or DSTEP is under way until it lands
in PH:PL; MULW and MULWU write an even pair of D registers. PSRA reads PH:PL, DSTEP divides it by one bit. -/
def Obligations.BinaryProducts : Prop :=
  ∀ (s : State) (c : Cid) (rd ra rb : RegNo) (aux : Byte), s.poised c = true →
    s.dOpen c [rd, rd + 1, ra, rb] = true →
    let w := s.width c
    let a := s.dv c ra % 2 ^ w
    let b := s.dv c rb % 2 ^ w
    let sr := (s.cx c).sr
    let u := s.settled c
    let hi (p : Int) : Nat := (p % (2 ^ (2 * w) : Nat)).toNat / 2 ^ w
    let lo (p : Int) : Nat := (p % (2 ^ (2 * w) : Nat)).toNat % 2 ^ w
    let start (p : Int) : State := (u.withProduct c (hi p) (lo p)).retire c
    let pair (p : Int) : State := ((u.setD c rd (hi p)).setD c (rd + 1) (lo p)).retire c
    let pp := (u.cx c).ph.toNat * 2 ^ w + (u.cx c).pl.toNat
    let r := sint (2 * w) pp / (2 ^ aux.toNat : Nat)
    let d := (r % (2 ^ w : Nat)).toNat
    let t := 2 * pp
    let q := decide (s.dv c ra ≤ t / 2 ^ w)
    let rest := if q then t / 2 ^ w - s.dv c ra else t / 2 ^ w
    exec (.mul c ra rb) s = .next (start (sint w a * sint w b)) ∧
    exec (.mulu c ra rb) s = .next (start ((a : Int) * b)) ∧
    (rd.val % 2 = 0 →
      exec (.mulw c rd ra rb) s = .next (pair (sint w a * sint w b)) ∧
      exec (.mulwu c rd ra rb) s = .next (pair ((a : Int) * b))) ∧
    (aux.toNat < 2 * w → exec (.psra c rd aux) s = .next (((u.setD c rd d).withSr c
      (setCVZN sr (aux ≠ 0 && pp.testBit (aux.toNat - 1)) (!inRange w r) (d == 0) (decide (2 ^ (w - 1) ≤ d)))).retire c)) ∧
    exec (.dstep c ra) s = .next (((u.withProduct c rest (t % 2 ^ w + b2n q)).withSr c
      (setBit (setBit sr 0 q) 1 (decide (s.dv c ra ≤ rest)))).retire c)

/-- R158, R164, R168, R172: the decimal multiply, DPRS and DDSTEP on valid digits, with DVT off. DPRS with RC 0 and the reserved
RMD 7 takes an open mode (log 109). -/
def Obligations.DecimalProducts : Prop :=
  ∀ (s : State) (c : Cid) (rd ra rb rm : RegNo) (aux : Byte), s.poised c = true → s.dOpen c [rd, ra, rb] = true →
    srDVT (s.cx c).sr = false → bcdOk (s.digits c) (s.dv c ra) = true → bcdOk (s.digits c) (s.dv c rb) = true →
    let w := s.width c
    let n := s.digits c
    let sr := (s.cx c).sr
    let u := s.settled c
    let p := decOf (2 * n) (decVal n (s.dv c ra) * decVal n (s.dv c rb))
    let ph := (u.cx c).ph.toNat
    let pl := (u.cx c).pl.toNat
    let rounds (mode : Nat) (f : State → State) : Prop :=
      let q := roundShift (decVal (2 * n) (ph * 2 ^ w + pl)) aux.toNat mode
      let d := decOf n q.1
      exec (.dprs c rd rm aux) s =
        .next (f (((u.setD c rd d).withDec c (decSr n sr d q.2 (!decFits n q.1)) (!decFits n q.1)).retire c))
    let div := bcdVal n (s.dv c ra)
    let t := 10 * (bcdVal n ph * 10 ^ n + bcdVal n pl)
    let k := if div = 0 then 9 else min (t / 10 ^ n / div) 9
    let rest := t / 10 ^ n - k * div
    let dv := decide (div ≤ rest)
    exec (.dmul c ra rb) s = .next ((u.withProduct c (p / 2 ^ w) (p % 2 ^ w)).retire c) ∧
    (bcdOk (2 * n) (ph * 2 ^ w + pl) = true → aux.toNat ≤ 2 * n →
      (rm = 0 → srRMD sr < 7 → rounds (srRMD sr) id) ∧ (rm ≠ 0 → rm.val < 8 → rounds (rm.val - 1) id) ∧
      (rm = 0 → srRMD sr = 7 → ∃ m, m < 7 ∧ rounds m (fun t => { t with free := s.free + 1 }))) ∧
    (bcdOk n ph = true → bcdOk n pl = true → exec (.ddstep c ra) s =
      .next (((u.withP c (toBcd n rest) (toBcd n (t % 10 ^ n + k))).withDec c (setBit sr 5 dv) dv).retire c))

/-- R158, R169: the accumulators. MACB and MSBB work modulo 2^88 (2^176 in Conjunction) and write V; MACD and MSBD, on valid
digits, modulo 10^22 (10^44) and write DV; XGET and XPUT move one piece of W bits; XRD rounds into a D register, with an open
mode where RC 0 meets the reserved RMD 7 (log 109). -/
def Obligations.Accumulators : Prop :=
  ∀ (s : State) (c : Cid) (x : Fin 4) (rd ra rb rm : RegNo) (aux : Byte), s.poised c = true →
    s.dOpen c [rd, ra, rb] = true → srDVT (s.cx c).sr = false →
    let xr : RegNo := ⟨x.val, by omega⟩
    let w := s.width c
    let n := s.digits c
    let xw := s.xWidth c
    let xn := s.xDigits c
    let a := s.dv c ra
    let b := s.dv c rb
    let v := s.xv c x
    let sr := (s.cx c).sr
    let u := s.settled c
    let bin (t : Int) : State := ((u.withX c x (t % (2 ^ xw : Nat)).toNat).withSr c (setBit sr 1 (!inRange xw t))).retire c
    let dec (t : Int) : State :=
      ((u.withX c x (decOf xn t)).withDec c (setBit sr 5 (!decFits xn t)) (!decFits xn t)).retire c
    let rounds (mode : Nat) (f : State → State) : Prop :=
      let q := roundShift (decVal xn v) aux.toNat mode
      let d := decOf n q.1
      exec (.xrd c rd xr rm aux) s =
        .next (f (((s.setD c rd d).withDec c (decSr n sr d q.2 (!decFits n q.1)) (!decFits n q.1)).retire c))
    let piece := 2 ^ (w * aux.toNat)
    exec (.macb c xr ra rb) s = .next (bin (sint xw v + sint w a * sint w b)) ∧
    exec (.msbb c xr ra rb) s = .next (bin (sint xw v - sint w a * sint w b)) ∧
    exec (.xclr c xr) s = .next ((s.withX c x 0).retire c) ∧
    exec (.xldb c xr ra) s = .next ((s.withX c x (sint w a % (2 ^ xw : Nat)).toNat).retire c) ∧
    (aux.toNat ≤ 2 →
      exec (.xget c rd xr aux) s = .next ((s.setD c rd (v / piece)).retire c) ∧
      exec (.xput c xr ra aux) s = .next ((s.withX c x
        (v % piece + a % 2 ^ w * piece + v / (piece * 2 ^ w) * (piece * 2 ^ w))).retire c)) ∧
    (bcdOk n a = true → exec (.xldd c xr ra) s = .next ((s.withX c x (decOf xn (decVal n a))).retire c)) ∧
    (bcdOk xn v = true →
      (bcdOk n a = true → bcdOk n b = true →
        exec (.macd c xr ra rb) s = .next (dec (decVal xn v + decVal n a * decVal n b)) ∧
        exec (.msbd c xr ra rb) s = .next (dec (decVal xn v - decVal n a * decVal n b))) ∧
      (aux.toNat ≤ xn →
        (rm = 0 → srRMD sr < 7 → rounds (srRMD sr) id) ∧ (rm ≠ 0 → rm.val < 8 → rounds (rm.val - 1) id) ∧
        (rm = 0 → srRMD sr = 7 → ∃ m, m < 7 ∧ rounds m (fun t => { t with free := s.free + 1 }))))

/-- R179, R180, R182, R185, R187, R188, R190: the binary32 instructions in a direction that RC or SR.FRM selects; with a reserved
FRM the spec gives none, and the model takes an open one of the five (log 109). Each writes its D register and ORs its flags
into FSR; a compare writes SR.C, V, Z and N by the relation, and no register. -/
def Obligations.Binary32 : Prop :=
  ∀ (s : State) (c : Cid) (rd ra rb rm : RegNo), s.poised c = true → s.dOpen c [rd, ra, rb] = true → rm.val < 6 →
    let a := b32Dec (s.dv c ra)
    let b := b32Dec (s.dv c rb)
    let frm := srFRM (s.cx c).sr
    let res (r : Nat × FFlags) : State := ((s.setD c rd r.1).withFsr c (r.2.fsr false)).retire c
    let rel (sig : Bool) : State :=
      let sr := (s.cx c).sr
      let sr' := match fCompare 2 a b with
        | some .gt => setCVZN sr true false false false
        | some .eq => setCVZN sr true false true false
        | some .lt => setCVZN sr false false false true
        | none => setCVZN sr false true false false
      let iv := fIsSig a || fIsSig b || (sig && (fIsNan a || fIsNan b))
      ((s.withSr c sr').withFsr c (BitVec.ofNat 11 (b2n iv))).retire c
    let rounds (dir : Nat) (u : State → State) : Prop :=
      exec (.fadd c rd ra rb rm) s = .next (u (res (b32Add dir a b))) ∧
      exec (.fsub c rd ra rb rm) s = .next (u (res (b32Add dir a (fNegate b)))) ∧
      exec (.fmul c rd ra rb rm) s = .next (u (res (b32Mul dir a b))) ∧
      exec (.fdiv c rd ra rb rm) s = .next (u (res (b32Div dir a b))) ∧
      exec (.fsqrt c rd ra rm) s = .next (u (res (b32Sqrt dir a))) ∧
      exec (.ftoi c rd ra rm) s = .next (u (res (b32ToInt (s.width c) dir a))) ∧
      exec (.itof c rd ra rm) s = .next (u (res (b32OfInt (s.width c) dir (s.dv c ra))))
    (rm ≠ 0 → rounds (rm.val - 1) id) ∧ (rm = 0 → frm < 5 → rounds frm id) ∧
    (rm = 0 → 5 ≤ frm → ∃ dir, dir < 5 ∧ rounds dir (fun t => { t with free := s.free + 1 })) ∧
    exec (.fneg c rd ra) s = .next (res ((s.dv c ra % 2 ^ 32) ^^^ 2 ^ 31, .none)) ∧
    exec (.fabs c rd ra) s = .next (res (s.dv c ra % 2 ^ 31, .none)) ∧
    exec (.fcmp c ra rb) s = .next (rel false) ∧
    exec (.fcmps c ra rb) s = .next (rel true)

/-- R181, R182, R185, R187, R189, R190: the decimal64 instructions. DFTOD and DDTF convert with a D register; DDTF is exact on
valid digits whose value has at most 16 of them beside trailing zeros. With a reserved FRM the direction is an open one, and the
exponent of the zero that DFDIV gives for a finite value by infinity is open (log 109). -/
def Obligations.Decimal64 : Prop :=
  ∀ (s : State) (c : Cid) (rd ra rb rm : RegNo) (aux : Byte), s.poised c = true →
    s.pairNamed c rd = true → s.pairNamed c ra = true → s.pairNamed c rb = true → rm.val < 6 →
    let a := d64Dec (s.pv c ra)
    let b := d64Dec (s.pv c rb)
    let n := s.digits c
    let frm := srFRM (s.cx c).sr
    let put (w : State) (r : Nat × FFlags) : State := ((w.withPair c rd r.1).withFsr c (r.2.fsr true)).retire c
    let res := put s
    let one (r : Nat × FFlags) : State := ((s.setD c rd r.1).withFsr c (r.2.fsr true)).retire c
    let v := decVal n (s.dv c ra)
    let rel (sig : Bool) : State :=
      let sr := (s.cx c).sr
      let sr' := match fCompare 10 a b with
        | some .gt => setCVZN sr true false false false
        | some .eq => setCVZN sr true false true false
        | some .lt => setCVZN sr false false false true
        | none => setCVZN sr false true false false
      let iv := fIsSig a || fIsSig b || (sig && (fIsNan a || fIsNan b))
      ((s.withSr c sr').withFsr c (BitVec.ofNat 11 (32 * b2n iv))).retire c
    let rounds (dir : Nat) (u : State → State) : Prop :=
      exec (.dfadd c rd ra rb rm) s = .next (u (res (d64Add dir a b))) ∧
      exec (.dfsub c rd ra rb rm) s = .next (u (res (d64Add dir a (fNegate b)))) ∧
      exec (.dfmul c rd ra rb rm) s = .next (u (put (s.settled c) (d64Mul dir a b))) ∧
      exec (.dfsqrt c rd ra rm) s = .next (u (put (s.settled c) (d64Sqrt dir a))) ∧
      exec (.dfqua c rd ra rb rm) s = .next (u (res (d64Quantize dir a b))) ∧
      (aux.toNat ≤ 20 → exec (.dftod c rd ra rm aux) s = .next (u (one (d64ToDec n dir aux.toNat a))))
    let divides (dir k : Nat) : Prop := ∃ z : Int, -398 ≤ z ∧ z ≤ 369 ∧
      exec (.dfdiv c rd ra rb rm) s = .next { put (s.settled c) (d64Div z dir a b) with free := s.free + k }
    (rm ≠ 0 → rounds (rm.val - 1) id ∧ divides (rm.val - 1) 1) ∧ (rm = 0 → frm < 5 → rounds frm id ∧ divides frm 1) ∧
    (rm = 0 → 5 ≤ frm → (∃ dir, dir < 5 ∧ rounds dir (fun t => { t with free := s.free + 1 })) ∧ ∃ dir, dir < 5 ∧ divides dir 2) ∧
    exec (.dfneg c rd ra) s = .next (res (d64Sign not a, .none)) ∧
    exec (.dfabs c rd ra) s = .next (res (d64Sign (fun _ => false) a, .none)) ∧
    exec (.dfcmp c ra rb) s = .next (rel false) ∧
    exec (.dfcmps c ra rb) s = .next (rel true) ∧
    (aux.toNat ≤ 20 → bcdOk n (s.dv c ra) = true → ∀ m k : Nat, v.natAbs = m * 10 ^ k → m < 10 ^ 16 → (k = 0 ∨ 10 ^ 15 ≤ m) →
      exec (.ddtf c rd ra aux) s = .next ((s.withPair c rd (d64Bits (decide (v < 0)) m ((k : Int) - aux.toNat))).retire c))

/-! ### Instructions: memory -/

/-- R131, R132, R134: the loads from plain memory. Each reads its bytes little-endian, extends them to the register's width,
writes the one register (LDP its decimal64 registers), updates the base where the mode does, and marks the frame
referenced; memory keeps every byte. -/
def Obligations.Loads : Prop :=
  ∀ (s : State) (c : Cid) (rt ab : RegNo) (m : AMode) (miss : Bool), s.poised c = true →
    (miss && srSOM (s.cx c).sr) = false →
    let ea := (s.effAddr c ab m).1
    let up (t : State) : State := (t.withBase c ab (s.effAddr c ab m).2).retire c
    let ld (n : Nat) (i : Instr) (f : State → Nat → State) : Prop :=
      ∀ pa, s.plainAt c ea n false = some pa → exec i s = .next (up (f (s.touched c pa) (leVal (s.bytes pa n))))
    let zx (t : State) (v : Nat) : State := t.setD c rt v
    let sx (k : Nat) (t : State) (v : Nat) : State := t.setD c rt (v + if v.testBit (k - 1) then 2 ^ 80 - 2 ^ k else 0)
    (s.dOpen c [rt] = true →
      ld 1 (.ldb c rt ab m miss) zx ∧ ld 1 (.ldbs c rt ab m miss) (sx 8) ∧
      ld 2 (.ldh c rt ab m miss) zx ∧ ld 2 (.ldhs c rt ab m miss) (sx 16) ∧
      ld 4 (.ldt c rt ab m miss) zx ∧ ld 4 (.ldts c rt ab m miss) (sx 32) ∧
      ld (s.width c / 8) (.ldw c rt ab m miss) zx) ∧
    (s.pairNamed c rt = true → ld 8 (.ldp c rt ab m miss) (fun t v => t.withPair c rt v)) ∧
    ((modeUpdates m && rt == ab) = false → ld 5 (.ldwa c rt ab m miss) (fun t v => t.setA c rt (BitVec.ofNat 40 v)))

/-- R131, R132, R134, R252: the stores to plain memory. Each puts its bytes, little-endian, with the value its register had
before the base update, behind the stores its core has buffered; no byte of memory changes before the store drains. -/
def Obligations.Stores : Prop :=
  ∀ (s : State) (c : Cid) (rt ab : RegNo) (m : AMode), s.poised c = true →
    let ea := (s.effAddr c ab m).1
    let st (n : Nat) (i : Instr) (v : Nat) : Prop := ∀ pa, s.plainAt c ea n true = some pa →
      exec i s = .next ((((s.touched c pa).withStore c pa (leBytes n v)).withBase c ab (s.effAddr c ab m).2).retire c)
    (s.dOpen c [rt] = true →
      st 1 (.stb c rt ab m) (s.dv c rt) ∧ st 2 (.sth c rt ab m) (s.dv c rt) ∧ st 4 (.stt c rt ab m) (s.dv c rt) ∧
      st (s.width c / 8) (.stw c rt ab m) (s.dv c rt)) ∧
    (s.pairNamed c rt = true → st 8 (.stp c rt ab m) (s.pv c rt)) ∧
    st 5 (.stwa c rt ab m) (s.av c rt).toNat

/-- R57–R59, R161, R162: LDPK of a field with valid nibbles and STPK of a register with valid digits, in plain memory, with DVT
off. -/
def Obligations.PackedFields : Prop :=
  ∀ (s : State) (c : Cid) (rd ra : RegNo) (aux : Byte) (miss : Bool), s.poised c = true → s.dOpen c [rd] = true →
    (miss && srSOM (s.cx c).sr) = false → srDVT (s.cx c).sr = false → 1 ≤ aux.toNat → aux.toNat ≤ 16 →
    let l := aux.toNat
    let n := s.digits c
    let sr := (s.cx c).sr
    let ea := s.av c ra
    (∀ pa, s.plainAt c ea l false = some pa → ∀ v, packedVal (s.bytes pa l) = some v →
      let d := decOf n v
      exec (.ldpk c rd ra aux miss) s = .next (((s.touched c pa).setD c rd d).withDec c
        (decSr n sr d false (!decFits n v)) (!decFits n v) |>.retire c)) ∧
    (bcdOk n (s.dv c rd) = true → ∀ pa, s.plainAt c ea l true = some pa →
      let v := decVal n (s.dv c rd)
      let m := v.natAbs % 10 ^ (2 * l - 1)
      let dv := decide (10 ^ (2 * l - 1) ≤ v.natAbs)
      let field := (leBytes l (16 * toBcd (2 * l - 1) m + if v < 0 ∧ m ≠ 0 then 0xD else 0xC)).reverse
      exec (.stpk c ra rd aux) s = .next ((((s.touched c pa).withStore c pa field).withDec c
        (setBit (setZN sr (v == 0) (decide (v < 0))) 5 dv) dv).retire c))

/-- R135, R341: CASW and SWPW on a word of plain memory. The word is read and, by SWPW always and by CASW when it equals D[RT],
written at once with the frame marked changed; D[RT] receives the word read, and CASW sets Z by the comparison. -/
def Obligations.Atomics : Prop :=
  ∀ (s : State) (c : Cid) (rt ab : RegNo) (d : BitVec 22) (pa : Nat), s.poised c = true →
    s.plainAt c (s.av c ab + d.signExtend 40) (s.width c / 8) true = some pa →
    s.wpHits c (s.av c ab + d.signExtend 40) (s.width c / 8) false = [] →
    let n := s.width c / 8
    let w := leVal (s.bytes pa n)
    let read (t : State) (P : State → Prop) : Prop := t.dv c rt = w ∧ (t.cx c).pc = codeNext (s.cx c).pc ∧
      (∀ a, a % 2 ^ 40 < pa ∨ pa + n ≤ a % 2 ^ 40 → t.byte (a % 2 ^ 40) = s.byte (a % 2 ^ 40)) ∧ P t
    (s.dOpen c [rt] = true → Does (.swpw c rt ab (.disp d)) s (fun t => read t (fun t =>
      leVal (t.bytes pa n) = s.dv c rt % 2 ^ s.width c ∧ (t.cx c).sr = (s.cx c).sr ∧
      (t.keyByte (pa / 4096)).getLsbD 5 = true))) ∧
    (s.dOpen c [rt, rt + 1] = true → rt.val % 2 = 0 → Does (.casw c rt ab (.disp d)) s (fun t => read t (fun t =>
      (t.cx c).sr = setBit (s.cx c).sr 2 (w == s.dv c rt) ∧
      leVal (t.bytes pa n) = if w = s.dv c rt then s.dv c (rt + 1) % 2 ^ s.width c else w)))

/-- R252, R321, R325: the oldest store a core has buffered drains: its bytes stand in memory, no other byte changes, and its
frame is marked changed, unless the core's cached key-store byte is an old one that shows the mark already (R335). -/
def Obligations.StoreBufferDrains : Prop :=
  ∀ (s : State) (k : Fin 68) (e : SbEntry) (es : List SbEntry), s.coreLive k = true → (s.core_ k).sb = e :: es →
    (s.regionOf e.cid e.addr = .dram ∨ s.regionOf e.cid e.addr = .sram) → e.addr + e.data.length ≤ 2 ^ 40 →
    e.addr % 64 + e.data.length ≤ 64 →
    let f := e.addr / 4096
    let old := ((s.core_ (coreIdx e.cid)).keys.find? (fun q => q.1 == f)).any (fun q => q.2.getLsbD 5 && !(s.keyByte f).getLsbD 5)
    Does (.storeBufferDrain k) s (fun t =>
      (t.core_ k).sb = es ∧ t.bytes e.addr e.data.length = e.data ∧ t.creg = s.creg ∧ t.ctx = s.ctx ∧
      (∀ a, a < e.addr ∨ e.addr + e.data.length ≤ a → t.byte a = s.byte a) ∧
      (s.keyed e.addr = true → old = false → (t.keyByte f).getLsbD 5 = true))


/-! ### Instructions: strings and storage-to-storage decimal -/

/-- R199, R200, R203, R204, R213, R214: an interruptible string instruction issued afresh with distinct registers, operands in
range and none of them in device memory begins: its units follow, its registers still as they were. An edit notes the sign
and the zero of its source, DMLS that its fields are valid. -/
def Obligations.StringsBegin : Prop :=
  ∀ (s : State) (c : Cid) (r1 r2 r3 r4 r5 r6 : RegNo), s.poised c = true →
    let a (n : RegNo) : Nat := (s.av c n).toNat
    let d (n : RegNo) : Nat := s.dv c n % 2 ^ 40
    let fits (as ds : List RegNo) (ops : List (Nat × Nat)) : Prop :=
      as.Nodup ∧ ds.Nodup ∧ s.dOpen c ds = true ∧ s.noDevice c ops = true
    let pl := bitsOf (d r3) 0 13
    let sl := bitsOf (d r3) 16 5
    let fl := bitsOf (d r3) 32 4
    let signs (pa : Nat) : Nat := match packedVal (s.bytes pa sl) with
      | some v => 512 * b2n (decide (v < 0)) + 1024 * b2n (v == 0)
      | none => 0
    let edits : Prop := bitsOf (d r3) 13 3 = 0 ∧ bitsOf (d r3) 21 3 = 0 ∧ bitsOf (d r3) 36 4 = 0 ∧ 1 ≤ pl ∧ pl ≤ 4096 ∧ 1 ≤ sl ∧
      sl ≤ 16
    let len (n : RegNo) : Prop := d n ≤ 2 ^ 24
    let field (n : RegNo) : Prop := 1 ≤ d n ∧ d n ≤ 16
    (len r3 → fits [r1, r2] [r3] [(a r1, d r3), (a r2, d r3)] →
      exec (.mvs c r1 r2 r3) s = .next (s.begins c 0x80 [r1, r2, r3] 0) ∧
      exec (.cms c r1 r2 r3) s = .next (s.begins c 0x82 [r1, r2, r3] 0)) ∧
    (len r3 → len r4 → fits [r1, r2] [r3, r4, r5] [(a r1, d r3), (a r2, d r4)] →
      exec (.mvsp c r1 r2 r3 r4 r5) s = .next (s.begins c 0x81 [r1, r2, r3, r4, r5] 0)) ∧
    (len r3 → fits [r1, r2, r4] [r3] [(a r1, d r3), (a r2, d r3), (a r4, 256)] →
      exec (.trs c r1 r2 r3 r4) s = .next (s.begins c 0x83 [r1, r2, r3, r4] 0)) ∧
    (len r3 → fits [r1, r2] [r3, r4] [(a r1, d r3), (a r2, 32)] →
      exec (.scn c r1 r2 r3 r4) s = .next (s.begins c 0x84 [r1, r2, r3, r4] 0)) ∧
    (edits → ∀ pa, s.plainAt c (s.av c r4) sl false = some pa → (packedVal (s.bytes pa sl)).isSome = true →
      (fl = 0 → fits [r1, r2, r4] [r3] [(a r1, pl), (a r2, pl), (a r4, sl)] →
        exec (.edt c r1 r2 r3 r4) s = .next ((s.touched c pa).begins c 0x90 [r1, r2, r3, r4] (signs pa))) ∧
      (fits [r1, r2, r4, r5, r6] [r3] [(a r1, pl + fl), (a r2, pl), (a r4, sl), (a r6, fl)] →
        exec (.edm c r1 r2 r3 r4 r5 r6) s = .next ((s.touched c pa).begins c 0x91 [r1, r2, r3, r4, r5, r6] (signs pa)))) ∧
    (field r2 → field r4 → field r6 → fits [r1, r3, r5] [r2, r4, r6] [(a r1, d r2), (a r3, d r4), (a r5, d r6)] →
      ∀ pm, s.plainAt c (s.av c r3) (d r4) false = some pm → ∀ pq, s.plainAt c (s.av c r5) (d r6) false = some pq →
      ∀ pp, s.plainAt c (s.av c r1) (d r2) true = some pp →
      overlaps (a r1) (d r2) (a r3) (d r4) = false → overlaps (a r1) (d r2) (a r5) (d r6) = false →
      (packedVal (s.bytes pm (d r4))).isSome = true → (packedVal (s.bytes pq (d r6))).isSome = true →
      exec (.dmls c r1 r2 r3 r4 r5 r6) s =
        .next ((((s.touched c pm).touched c pq).touched c pp).begins c 0xB5 [r1, r2, r3, r4, r5, r6] 0))

/-- R204, R205: the units of MVS, MVSP, CMS and SCN in plain memory, each of up to 64 bytes of the rest of the length. The moves
run byte by byte in ascending order, so that a destination a little above the source repeats the bytes between; MVSP pads.
CMS and SCN stop at the first byte that differs or is in the set, with SR.CT 0. The last unit completes the instruction. -/
def Obligations.StringUnits : Prop :=
  ∀ (s : State) (c : Cid) (r1 r2 r3 r4 r5 : RegNo) (p1 p2 : Nat) (miss : Bool), s.canRun c = true → s.haltDue c = false →
    srRP (s.cx c).sr = false → srLD (s.cx c).sr = 0 → srCT (s.cx c).sr = false → (miss && srSOM (s.cx c).sr) = false →
    let n := s.dv c r3 % 2 ^ 40
    let k := min n 64
    0 < k → s.plainAt c (s.av c r2) k false = some p2 →
    let under (owner : Byte) : Prop := (s.cx c).strOp =
      some { owner := owner, r1 := r1, r2 := r2, r3 := r3, r4 := r4, r5 := r5, r6 := 0, live := owner.setWidth 40, begun := false }
    let adv (t : State) (r : RegNo) (k : Nat) : State := t.setA c r (t.av c r + BitVec.ofNat 40 k)
    let out (n : Nat) : List Byte :=
      (List.range n).map (fun i => s.byte (p2 + if p2 < p1 ∧ p1 < p2 + n then i % (p1 - p2) else i))
    let ends (t : State) (last : Bool) : Host.Outcome State Fault Refusal := .next (
      if last then (t.modCx c (fun x => { x with strOp := none, esw := 0, sr := setBit x.sr 36 false })).retire c
      else t.modCx c (fun x => { x with strOp := x.strOp.map (fun o => { o with begun := true }) }))
    let flags (t : State) (cf z nf : Bool) : State := t.modCx c (fun x => { x with sr := setCVZN x.sr cf false z nf })
    (under 0x80 → s.plainAt c (s.av c r1) k true = some p1 → exec (.stringUnit c miss) s =
      ends ((adv (adv ((((s.touched c p1).touched c p2).withStore c p1 (out k))) r1 k) r2 k).setD c r3 (n - k)) (n ≤ k)) ∧
    (under 0x81 → s.plainAt c (s.av c r1) k true = some p1 →
      let l := s.dv c r4 % 2 ^ 40
      k ≤ l → exec (.stringUnit c miss) s =
        let t := ((adv (adv ((((s.touched c p1).touched c p2).withStore c p1 (out k))) r1 k) r2 k).setD c r3 (n - k)).setD c r4 (l - k)
        ends (if n ≤ k then flags t (decide (n < l)) (n == l) false else t) (n ≤ k)) ∧
    (under 0x82 → s.plainAt c (s.av c r1) k false = some p1 → exec (.stringUnit c miss) s =
      let t := (s.touched c p1).touched c p2
      match (List.range k).find? (fun i => s.byte (p1 + i) != s.byte (p2 + i)) with
      | some i =>
        let lt := decide ((s.byte (p1 + i)).toNat < (s.byte (p2 + i)).toNat)
        ends (flags ((adv (adv t r1 i) r2 i).setD c r3 (n - i)) (!lt) false lt) true
      | none =>
        let u := (adv (adv t r1 k) r2 k).setD c r3 (n - k)
        ends (if n ≤ k then flags u true true false else u) (n ≤ k)) ∧
    (under 0x84 → s.plainAt c (s.av c r1) k false = some p1 → ∀ q, s.plainAt c (s.av c r2) 32 false = some q →
      exec (.stringUnit c miss) s =
        let t := (s.touched c p1).touched c q
        match (List.range k).find? (fun i => (leVal (s.bytes q 32)).testBit (s.byte (p1 + i)).toNat) with
        | some i =>
          ends (flags (((adv t r1 i).setD c r3 (n - i)).setD c r4 (s.byte (p1 + i)).toNat) true false false) true
        | none =>
          let u := (adv t r1 k).setD c r3 (n - k)
          ends (if n ≤ k then flags u false true false else u) (n ≤ k))

/-- R57–R59, R202, R209, R211: the storage-to-storage decimal instructions on valid fields of plain memory, with DVT off: the
true result goes to the first field as far as its digits reach, DV says that it does not fit, Z and N are of the true
result. Fields that overlap are identical. -/
def Obligations.StorageDecimal : Prop :=
  ∀ (s : State) (c : Cid) (r1 r2 r3 r4 : RegNo) (miss : Bool) (p1 p2 : Nat) (v1 v2 : Int), s.poised c = true →
    (miss && srSOM (s.cx c).sr) = false → srDVT (s.cx c).sr = false → r1 ≠ r3 → r2 ≠ r4 → s.dOpen c [r2, r4] = true →
    let l1 := s.dv c r2 % 2 ^ 40
    let l2 := s.dv c r4 % 2 ^ 40
    let a1 := (s.av c r1).toNat
    let a2 := (s.av c r3).toNat
    1 ≤ l1 → l1 ≤ 16 → 1 ≤ l2 → l2 ≤ 16 → s.noDevice c [(a1, l1), (a2, l2)] = true →
    (overlaps a1 l1 a2 l2 = false ∨ a1 = a2 ∧ l1 = l2) →
    s.plainAt c (s.av c r3) l2 false = some p2 → packedVal (s.bytes p2 l2) = some v2 →
    let sr := (s.cx c).sr
    let put (t : State) (v : Int) : State :=
      let dv := decide (10 ^ (2 * l1 - 1) ≤ v.natAbs)
      (((t.touched c p1).withStore c p1 (packedOf l1 v)).withDec c (setBit (setZN sr (v == 0) (decide (v < 0))) 5 dv) dv).retire c
    (s.plainAt c (s.av c r1) l1 true = some p1 → exec (.dzms c r1 r2 r3 r4 miss) s = .next (put (s.touched c p2) v2)) ∧
    (s.plainAt c (s.av c r1) l1 false = some p1 → packedVal (s.bytes p1 l1) = some v1 →
      exec (.dcps c r1 r2 r3 r4 miss) s = .next ((((s.touched c p1).touched c p2).withSr c
        (setCVZN sr (decide (v2 ≤ v1)) false (decide (v1 = v2)) (decide (v1 < v2)))).retire c) ∧
      (s.plainAt c (s.av c r1) l1 true = some p1 →
        exec (.dads c r1 r2 r3 r4 miss) s = .next (put ((s.touched c p1).touched c p2) (v1 + v2)) ∧
        exec (.dsbs c r1 r2 r3 r4 miss) s = .next (put ((s.touched c p1).touched c p2) (v1 - v2))))

/-- R59–R62, R206, R207, R210: PKZ, UPK, CVBD, CVDB and DSHS on valid fields of plain memory, with DVT off. -/
def Obligations.FieldConversions : Prop :=
  ∀ (s : State) (c : Cid) (r1 r2 r3 : RegNo) (miss : Bool) (p1 p2 : Nat) (v : Int), s.poised c = true →
    (miss && srSOM (s.cx c).sr) = false → srDVT (s.cx c).sr = false →
    let sr := (s.cx c).sr
    let zn (t : State) (v : Int) (dv : Bool) : State :=
      (t.withDec c (setBit (setZN (t.cx c).sr (v == 0) (decide (v < 0))) 5 dv) dv).retire c
    let long (n : Nat) (v : Int) : Bool := decide (10 ^ n ≤ v.natAbs)
    let a (n : RegNo) : Nat := (s.av c n).toNat
    let d (n : RegNo) : Nat := s.dv c n % 2 ^ 40
    let z := d r3
    let pl := bitsOf z 0 5
    let zd := bitsOf z 8 5
    let form := bitsOf z 16 2
    let zl := if form = 1 then zd + 1 else zd
    let two (t : State) : State := (t.touched c p2).touched c p1
    (r1 ≠ r2 → s.dOpen c [r3] = true → bitsOf z 5 3 = 0 → bitsOf z 13 3 = 0 → bitsOf z 18 22 = 0 → 1 ≤ pl → pl ≤ 16 → 1 ≤ zd →
      form ≠ 3 →
      (s.noDevice c [(a r2, zl), (a r1, pl)] = true → s.plainAt c (s.av c r2) zl false = some p2 →
        s.plainAt c (s.av c r1) pl true = some p1 → zonedVal form (s.bytes p2 zl) = some v →
        exec (.pkz c r1 r2 r3 miss) s = .next (zn ((two s).withStore c p1 (packedOf pl v)) v (long (2 * pl - 1) v))) ∧
      (s.noDevice c [(a r2, pl), (a r1, zl)] = true → s.plainAt c (s.av c r2) pl false = some p2 →
        s.plainAt c (s.av c r1) zl true = some p1 → packedVal (s.bytes p2 pl) = some v →
        exec (.upk c r1 r2 r3 miss) s = .next (zn ((two s).withStore c p1 (zonedOf zd form v)) v (long zd v)))) ∧
    (r2 ≠ r3 → s.dOpen c [r2, r3] = true → 1 ≤ z → z ≤ 16 → s.noDevice c [(a r1, z)] = true →
      s.plainAt c (s.av c r1) z true = some p1 →
      let b := sint (s.width c) (s.dv c r2)
      exec (.cvbd c r1 r2 r3) s = .next (zn ((s.touched c p1).withStore c p1 (packedOf z b)) b (long (2 * z - 1) b))) ∧
    (r1 ≠ r3 → s.dOpen c [r1, r3] = true → 1 ≤ z → z ≤ 16 → s.noDevice c [(a r2, z)] = true →
      s.plainAt c (s.av c r2) z false = some p2 → packedVal (s.bytes p2 z) = some v →
      let w := s.width c
      let m := (v % (2 ^ w : Nat)).toNat
      exec (.cvdb c r1 r2 r3 miss) s = .next ((((s.touched c p2).setD c r1 m).withSr c
        (setBit (setZN sr (v == 0) (decide (v < 0))) 1 (!inRange w v))).retire c)) ∧
    (r2 ≠ r3 → s.dOpen c [r2, r3] = true →
      let l := d r2
      let n := sint 8 (bitsOf z 0 8)
      let m := bitsOf z 8 4
      1 ≤ l → l ≤ 16 → bitsOf z 12 28 = 0 → -31 ≤ n → n ≤ 31 → m < 8 → (m = 0 → srRMD sr < 7) → s.noDevice c [(a r1, l)] = true →
      s.plainAt c (s.av c r1) l false = some p1 → s.plainAt c (s.av c r1) l true = some p1 → packedVal (s.bytes p1 l) = some v →
      let mode := if m = 0 then srRMD sr else m - 1
      let q : Int × Bool := if 0 ≤ n then (v * (10 ^ n.toNat : Nat), false) else roundShift v n.natAbs mode
      exec (.dshs c r1 r2 r3 miss) s = .next (zn ((((s.touched c p1).touched c p1).withStore c p1 (packedOf l q.1)).modCx c
        (fun x => { x with sr := setBit x.sr 4 q.2 })) q.1 (long (2 * l - 1) q.1)))

/-! ### Instructions: loops, special registers, contexts, translation, order -/

/-- R224–R226, R229: LOOP opens a level or, with a count of 0, passes its body; REP latches its count into RC and holds the next
instruction, or passes it; LPOP closes the innermost level. At the end of a level an instruction that completes goes back
while the count lasts, and a repeated one runs again while RC does. -/
def Obligations.LoopsAndRepeat : Prop :=
  ∀ (s : State) (c : Cid) (rs : RegNo) (byReg : Bool) (k : BitVec 12) (span : BitVec 11) (d : Nat), s.poised c = true →
    s.dOpen c [rs] = true → d ≤ 4 →
    let x := s.cx c
    let n := if byReg then s.dv c rs % 2 ^ 40 else k.toNat
    let src : CountSrc := if byReg then .reg rs else .imm k
    let next := codeNext x.pc
    let inLoop := s.withSr c (putF x.sr 27 3 d)
    let move (u : State) (f : Ctx → Ctx) (tgt : Word) (enters : Bool) : State := (u.modCx c (fun y => (f y).goto tgt enters)).counted c
    (span.toNat ≠ 0 → exec (.loop c src span) s = .next (
      if n = 0 then s.jumped c (codeTarget x.pc (span.toNat + 1))
      else move s (fun y => { y with ls := y.ls.set 0 (codeTarget x.pc 1), le := y.le.set 0 (codeTarget x.pc span.toNat)
                                     lc := y.lc.set 0 (BitVec.ofNat 40 n), sr := putF y.sr 27 3 1 }) next false)) ∧
    (((slotWord c next s).map repForbids).getD false = false → Does (.rep c src) s (fun t =>
      (t.cx c).rc.toNat = n ∧ (t.cx c).pc = (if n = 0 then codeNext next else next) ∧
      (t.cx c).sr = (if n = 0 then x.sr else setBit x.sr 37 true) ∧ t.mem = s.mem ∧ (t.cx c).d = x.d ∧ (t.cx c).a = x.a)) ∧
    ((∀ i : Fin 4, x.le[i] ≠ x.pc) → 1 ≤ d → exec (.lpop c) inLoop = .next ((inLoop.withSr c (putF
      (inLoop.cx c).sr 27 3 (d - 1))).retire c)) ∧
    (∀ i : Fin 4, d = i.val + 1 → x.le[i] = x.pc → codeOk x.ls[i] = true → 1 < x.lc[i].toNat →
      exec (.nop c) inLoop = .next (move inLoop (fun y => { y with lc := y.lc.set i (x.lc[i] - 1) }) x.ls[i] true)) ∧
    (1 < x.rc.toNat → Does (.nop c) (s.withSr c (setBit x.sr 37 true)) (fun t =>
      (t.cx c).pc = x.pc ∧ (t.cx c).rc = x.rc - 1 ∧ srRP (t.cx c).sr = true)) ∧
    (x.rc = 1 → Does (.nop c) (s.withSr c (setBit x.sr 37 true)) (fun t =>
      (t.cx c).pc = next ∧ (t.cx c).rc = 0 ∧ srRP (t.cx c).sr = false))

/-- R96–R103, R107, R327: MFS reads each special register that the privilege reaches, MTS writes each that it may, only the
fields of SR that it may; SETKR writes KRR without exceeding the rights a user has, SETROLE counts ROLE up. -/
def Obligations.SpecialRegisters : Prop :=
  ∀ (s : State) (c : Cid) (r : RegNo) (aux : Byte), s.poised c = true → s.dOpen c [r] = true →
    let x := s.cx c
    let user := srPL x.sr == 0#2
    let n := aux.toNat
    let v := s.dv c r
    let a := BitVec.ofNat 40 v
    let krr := (BitVec.ofNat 32 v &&& 0xFFFFFFFC#32) ||| (x.krr &&& 3#32)
    let wr (f : Ctx → Ctx) : Prop := exec (.mts c r aux) s = .next ((s.modCx c f).retire c)
    let vals : List Nat := [x.sr.toNat, x.fsr.toNat, x.ph.toNat, x.pl.toNat] ++ x.ls.toList.map (·.toNat) ++
      x.le.toList.map (·.toNat) ++ x.lc.toList.map (·.toNat) ++ [x.rc.toNat, x.esw.toNat, (krrRead x.krr (srPL x.sr)).toNat,
        x.stag.toNat, x.vbr.toNat, c.toNat, x.role.toNat, x.tkt.toNat, (s.cyc (coreIdx c)).toNat,
        s.tbNs % 2 ^ 32 + 2 ^ 32 * (s.tbSec % 256), x.spu.toNat, x.sps.toNat]
    (n < 28 → (user = true → n ≠ 20 ∧ n < 26) → exec (.mfs c r aux) s = .next ((s.setD c r (vals.getD n 0)).retire c)) ∧
    (n = 0 → srRMD a ≠ 7 → srFRM a < 5 → (user = false → if isWardenCid c then srPL a = 3#2 else (srPL a).toNat < 2) →
      let m : Word := if user then 0x1BF3F else 0xFC007BF3F
      wr (fun y => { y with sr := (y.sr &&& ~~~m) ||| (a &&& m) })) ∧
    (n = 1 → wr (fun y => { y with fsr := BitVec.ofNat 11 v })) ∧
    (∀ i : Fin 4, (n = 4 + i.val → wr (fun y => { y with ls := y.ls.set i a })) ∧
      (n = 8 + i.val → wr (fun y => { y with le := y.le.set i a })) ∧ (n = 12 + i.val → wr (fun y => { y with lc := y.lc.set i a }))) ∧
    (n = 2 → Does (.mts c r aux) s (fun t => (t.cx c).ph.toNat = v % 2 ^ s.width c ∧ (t.cx c).pl = x.pl ∧ (t.cx c).sr = x.sr)) ∧
    (n = 3 → Does (.mts c r aux) s (fun t => (t.cx c).pl.toNat = v % 2 ^ s.width c ∧ (t.cx c).ph = x.ph ∧ (t.cx c).sr = x.sr)) ∧
    (n = 16 → wr (fun y => { y with rc := a })) ∧ (n = 17 → wr (fun y => { y with esw := a })) ∧
    (user = false → (n = 18 → wr (fun y => { y with krr := krr })) ∧ (n = 19 → wr (fun y => { y with stag := BitVec.ofNat 12 v })) ∧
      (n = 20 → wr (fun y => { y with vbr := a &&& 0xFFFFFFF000#40 })) ∧
      (n = 26 → wr (fun y => { y with spu := a })) ∧ (n = 27 → wr (fun y => { y with sps := a })) ∧
      exec (.setrole c) s = .next ((s.modCx c (fun y => { y with role := y.role + 1 })).retire c)) ∧
    ((user = true → ∀ i : Fin 15, bitsOf v (2 * i.val + 2) 2 ≤ bitsOf x.krr.toNat (2 * i.val + 2) 2) →
      exec (.setkr c r) s = .next ((s.modCx c (fun y => { y with krr := krr })).retire c))

/-- R267–R270, R276: EXCEPTION_ENTRY and INTERRUPT_ENTRY at a boundary of a running context, and TRAP, take their vector: the
frame goes to the supervisor stack, and the context goes on at its vector. -/
def Obligations.ExceptionEntry : Prop :=
  ∀ (s : State) (c : Cid) (vec : BitVec 6) (fault : Word) (info : BitVec 10) (synd : BitVec 24) (aux : Byte),
    (s.cx c).late = none →
    let u := s.stopStr c
    ∀ pa, u.framePa c = some pa →
    (s.canRun c = true → takenVector vec.toNat = true → u.entryClear c vec.toNat = true →
      Does (.exceptionEntry c vec fault info synd) s
        (fun t => u.entered t c pa (s.cx c).pc vec.toNat info.toNat synd.toNat fault ∧ (t.cx c).strOp = none)) ∧
    (s.canRun c = true → ∀ n, s.pendingInt c = some n →
      let v := if (s.irtOf n).urgent then 48 else 32 + (s.irtOf n).level
      (s.irtOf n).level < 16 → n < 1024 → u.entryClear c v = true →
      Does (.interruptEntry c) s (fun t => u.entered t c pa (s.cx c).pc v n 0 0)) ∧
    (s.poised c = true → aux.toNat < 16 → s.entryClear c 18 = true →
      Does (.trap c aux) s (fun t => s.entered t c pa (codeNext (s.cx c).pc) 18 aux.toNat 0 (s.cx c).pc))

/-- R83, R265: a privileged instruction that a user context executes takes vector 3, the frame's PC at the instruction, and has
none of its effect. -/
def Obligations.PrivilegedInUserMode : Prop :=
  ∀ (s : State) (c : Cid) (ra rb : RegNo) (i : Instr) (pa : Nat), s.poised c = true → s.dOpen c [ra, rb] = true →
    srPL (s.cx c).sr = 0#2 → s.framePa c = some pa → s.entryClear c 3 = true →
    i ∈ [Instr.rte c, .setrole c, .mtbtr c ra 0, .mfbtr c ra 0, .setfk c ra rb 1, .getfk c ra rb, .clrfr c ra rb 0,
      .tlbiVa c ra rb, .tlbiS c rb, .tlbiAll c, .walkiVa c ra rb, .walkiS c rb, .walkiAll c, .svctxL c ra, .svctxU c ra, .rsctxL c ra,
      .rsctxU c ra, .mfs c ra 20, .mts c ra 26] →
    Does i s (fun t => s.entered t c pa (s.cx c).pc 3 0 0 (s.cx c).pc)

/-- R274: RTE of a frame in plain memory whose words are as an entry leaves them: PC, SR, FSR, KRR and STAG are restored, SPS
steps past the frame or takes the saved value of a rescue frame, and a filled lazy area restores the lazy state. -/
def Obligations.ReturnFromException : Prop :=
  ∀ (s : State) (c : Cid) (pa : Nat), s.poised c = true → srPL (s.cx c).sr ≠ 0#2 → (s.cx c).sps.toNat % 8 = 0 →
    let x := s.cx c
    let w := s.wide c
    let f := frameSize w
    s.plainSpan c x.sps f false = some pa →
    let fw (i : Nat) : Nat := leVal (s.bytes (pa + 5 * i) 5)
    let sr := BitVec.ofNat 40 (fw 1)
    let tag := fw 7
    bitsOf tag 24 16 = 0x7E10 → bitsOf tag 12 12 = c.toNat → bitsOf tag 6 2 = b2n w →
    (if isWardenCid c then srPL sr = 3#2 ∧ srFB sr = false else (srPL sr).toNat < 2) → srWD sr ≤ 4 → srLD sr ≤ 4 →
    sr &&& 0xC0060040C0#40 = 0 → codeOk (BitVec.ofNat 40 (fw 0)) = true →
    let o := if w then 100 else 60
    let xw := if w then 25 else 15
    let dw := if w then 10 else 5
    let la (off n : Nat) : Nat := leVal (s.bytes (pa + 40 + off) n)
    Does (.rte c) s (fun t =>
      let y := t.cx c
      (y.pc = BitVec.ofNat 40 (fw 0) ∧ y.sr = sr ∧ y.fsr = BitVec.ofNat 11 (fw 2) ∧ y.krr = BitVec.ofNat 32 (fw 3) ∧
        y.stag = BitVec.ofNat 12 (fw 6) ∧ y.sps = (if tag.testBit 9 then BitVec.ofNat 40 (fw 5) else x.sps + BitVec.ofNat 40 f)) ∧
      (y.a = x.a ∧ y.d = x.d ∧ y.win = x.win ∧ y.spu = x.spu ∧ y.vbr = x.vbr ∧ y.role = x.role ∧ y.tkt = x.tkt ∧ t.mem = s.mem) ∧
      (tag.testBit 8 = false → y.x = x.x ∧ y.ls = x.ls ∧ y.le = x.le ∧ y.lc = x.lc ∧ y.ph = x.ph ∧ y.pl = x.pl ∧ y.rc = x.rc ∧
        y.esw = x.esw) ∧
      (tag.testBit 8 = true → ∀ i : Fin 4, y.x[i] = BitVec.ofNat 176 (la (xw * i.val) xw % 2 ^ s.xWidth c) ∧
        y.ls[i].toNat = la (o + 5 * i.val) 5 ∧ y.le[i].toNat = la (o + 20 + 5 * i.val) 5 ∧
        y.lc[i].toNat = la (o + 40 + 5 * i.val) 5 ∧ y.ph.toNat = la (o + 60) dw ∧ y.pl.toNat = la (o + 60 + dw) dw ∧
        y.rc.toNat = la (o + 60 + 2 * dw) 5 ∧ y.esw.toNat = la (o + 65 + 2 * dw) 5))

/-- R296–R298: the save areas in plain memory, by a supervisor or warden off the fast bank. SVCTX.L stores A0–A7, D0–D7, SR with
Z 0 and the next PC behind the link word, and sets Z; RSCTX.L restores them; SVCTX.U and RSCTX.U do the upper area that the
link word names. YIELD gives its core to a ready context of its priority. -/
def Obligations.ContextAreas : Prop :=
  ∀ (s : State) (c : Cid) (ra : RegNo) (pa pu : Nat), s.poised c = true → srPL (s.cx c).sr ≠ 0#2 → srFB (s.cx c).sr = false →
    let x := s.cx c
    let w := s.wide c
    let dw := s.width c / 8
    let a := s.av c ra
    let u := BitVec.ofNat 40 (leVal (s.bytes pa 5))
    let ln := 50 + 8 * dw
    let un := if w then 580 else 370
    let stored (t : State) (pa : Nat) (bs : List Byte) : Prop :=
      (t.core_ (coreIdx c)).sb.flatMap (·.data) = bs ∧ t.mem = s.mem ∧
      (t.core_ (coreIdx c)).sb.flatMap (fun e => (List.range e.data.length).map (e.addr + ·)) = (List.range bs.length).map (pa + ·)
    let lw (i : Nat) : Nat := leVal (s.bytes (pa + 5 * i) 5)
    let sr := BitVec.ofNat 40 (leVal (s.bytes (pa + 40 + 8 * dw) 5))
    let pc := BitVec.ofNat 40 (leVal (s.bytes (pa + 45 + 8 * dw) 5))
    let uw (off n : Nat) : Nat := leVal (s.bytes (pu + off) n)
    (a.toNat % 8 = 0 →
      (s.plainSpan c (a + 5) ln true = some pa → Does (.svctxL c ra) s (fun t =>
        stored t pa (((x.a.toList.take 8).flatMap (fun v => leBytes 5 v.toNat)) ++ (x.d.toList.flatMap (fun v => leBytes dw v.toNat)) ++
          leBytes 5 (setBit x.sr 2 false).toNat ++ leBytes 5 (codeNext x.pc).toNat) ∧
        (t.cx c).sr = setBit x.sr 2 true ∧ (t.cx c).pc = codeNext x.pc ∧ (t.cx c).a = x.a ∧ (t.cx c).d = x.d)) ∧
      (s.plainSpan c (a + 5) ln false = some pa →
        (if isWardenCid c then srPL sr = 3#2 else (srPL sr).toNat < 2) → srFB sr = false → srWD sr ≤ 4 → srLD sr ≤ 4 →
        sr &&& 0xC0060040C0#40 = 0 → codeOk pc = true →
        Does (.rsctxL c ra) s (fun t => (t.cx c).pc = pc ∧ (t.cx c).sr = sr ∧ t.mem = s.mem ∧ (t.cx c).win = x.win ∧
          (∀ i : Fin 8, (t.cx c).a[i.val].toNat = lw i.val ∧ (t.cx c).d[i.val].toNat = leVal (s.bytes (pa + 40 + dw * i.val) dw)) ∧
          (∀ i : Fin 7, (t.cx c).a[i.val + 8] = x.a[i.val + 8]))) ∧
      (s.plainSpan c a 5 false = some pa → u.toNat % 8 = 0 →
        (s.plainSpan c u un true = some pu → Does (.svctxU c ra) s (fun t => stored t pu (upperImage w x) ∧
          (upperImage w x).length = un ∧ (t.cx c).pc = codeNext x.pc ∧ (t.cx c).sr = x.sr)) ∧
        (s.plainSpan c u un false = some pu → uw 0 5 = b2n w → Does (.rsctxU c ra) s (fun t =>
          let y := t.cx c
          let o := 50 + 32 * dw
          let e := o + if w then 190 else 140
          (y.pc = codeNext x.pc ∧ y.sr = x.sr ∧ y.d = x.d ∧ t.mem = s.mem ∧ y.spu.toNat = uw 40 5 ∧ y.sps.toNat = uw 45 5 ∧
            y.fsr.toNat = uw e 5 % 2048 ∧ y.krr.toNat = uw (e + 5) 5 % 2 ^ 32 ∧ y.stag.toNat = uw (e + 10) 5 % 4096 ∧
            y.vbr.toNat = uw (e + 15) 5 / 4096 * 4096) ∧
          (∀ i : Fin 7, y.a[i.val + 8].toNat = uw (5 + 5 * i.val) 5) ∧
          (∀ (i : Fin 4) (j : Fin 8), (y.win[i])[j].toNat = uw (50 + 8 * dw * i.val + dw * j.val) dw) ∧
          (∀ i : Fin 4, y.x[i].toNat = uw (o + (if w then 25 else 15) * i.val) (if w then 25 else 15) % 2 ^ s.xWidth c))))) ∧
    (s.samePrio c = none → exec (.yield c) s = .next (s.retire c)) ∧
    (∀ d, s.samePrio c = some d → Does (.yield c) s (fun t => (t.cx c).run = .ready ∧ (t.cx d).run = .running ∧
      (t.cx c).pc = codeNext x.pc ∧ t.mem = s.mem))

/-- R310, R311, R323, R326–R328: the translation registers and the frame keys, at supervisor or warden privilege. A BTR word that
is written keeps the other words; a key-store byte of DRAM takes the bits its mask names; SETFK says in Z whether the frame
has one, GETFK and CLRFR answer the byte. -/
def Obligations.TranslationAndKeys : Prop :=
  ∀ (s : State) (c : Cid) (rd ra rb : RegNo) (aux : Byte), s.poised c = true → srPL (s.cx c).sr ≠ 0#2 →
    s.dOpen c [rd, rb] = true →
    let x := s.cx c
    let pa := (s.av c ra).toNat
    let f := pa / 4096
    let rg := s.regionOf c pa
    let has := rg.hasKey
    let old := s.keyByte f
    let same (t : State) : Prop := (t.cx c).pc = codeNext x.pc ∧ t.mem = s.mem ∧ ∀ g, g ≠ f → t.keyByte g = s.keyByte g
    (∀ (n : Fin 8) (w : Fin 4), aux.toNat = n.val + 8 * w.val →
      let b := x.btr[n]
      let words : List Word := [b.vbase, b.size, b.pbase, b.attr]
      let v := BitVec.ofNat 40 (s.dv c rb)
      exec (.mfbtr c rd aux) s = .next ((s.setD c rd (words.getD w.val 0).toNat).retire c) ∧
      (v &&& ([0xFFFF, 0xFFFF000000, 0xFFF, 0xFFFFFFFF80] : List Word).getD w.val 0 = 0 → (w.val = 3 → getF v 2 2 ≠ 3) →
        Does (.mtbtr c rb aux) s (fun t =>
          let nb := (t.cx c).btr[n]
          [nb.vbase, nb.size, nb.pbase, nb.attr] = words.set w.val v ∧ (∀ m : Fin 8, m ≠ n → (t.cx c).btr[m] = x.btr[m]) ∧
          (t.cx c).pc = codeNext x.pc ∧ (t.cx c).sr = x.sr))) ∧
    exec (.getfk c rd ra) s = .next ((s.setD c rd (if has then old.toNat else 0)).retire c) ∧
    ((rg = .codeStore ∨ rg = .sram → isWardenCid c = true) →
      (aux.toNat ≠ 0 → aux.toNat < 8 → s.dv c rb % 2 ^ 40 < 64 →
        let m : Byte := (if aux.toNat.testBit 0 then 0x0F#8 else 0) ||| (if aux.toNat.testBit 1 then 0x10#8 else 0) |||
          (if aux.toNat.testBit 2 then 0x20#8 else 0)
        Does (.setfk c ra rb aux) s (fun t => same t ∧ (t.cx c).sr = setBit x.sr 2 has ∧
          t.keyByte f = if has then (old &&& ~~~m) ||| (BitVec.ofNat 8 (s.dv c rb) &&& m) else old)) ∧
      (aux.toNat < 2 → Does (.clrfr c rd ra aux) s (fun t => same t ∧ t.dv c rd = (if has then old.toNat else 0) ∧
        t.keyByte f = if has then old &&& (if aux = 1#8 then 0xCF#8 else 0xEF#8) else old)))

/-- R333–R337, R340–R344: an invalidation is issued at once and takes effect, on every core, when it is applied; a cluster in
partial eclipse records it. The barriers perform every store of the context that its core has buffered; SYNC.D also waits for
stores into Ixlink windows, SYNC.P for postings that have not entered the tally engine; SYNC.T performs its invalidations and
every core's buffered stores, ISYNC empties the line buffer. -/
def Obligations.InvalidationAndOrder : Prop :=
  ∀ (s : State) (c : Cid) (ra rb : RegNo) (g : BitVec 12) (p : Nat), s.poised c = true → s.dOpen c [rb] = true →
    let st := BitVec.ofNat 12 (s.dv c rb)
    let a := (s.av c ra).toNat
    let issues (i : Instr) (v : Inval) : Prop := exec i s = .next (({ s with inval := s.inval ++ [(c, v)] } : State).retire c)
    let applies (v : Inval) (tlb walk : TlbEntry → Bool) : Prop := s.inval.head? = some (c, v) →
      Does .invalidationApplied s (fun t => t.inval = s.inval.tail ∧ t.mem = s.mem ∧ t.ctx = s.ctx ∧
        (s.eclPart.isSome = true → t.eclInv = (s.eclInv ++ [v]).take 257) ∧
        ∀ k, if s.coreEclipsed k then t.core_ k = s.core_ k
          else (t.core_ k).tlb = (s.core_ k).tlb.filter tlb ∧ (t.core_ k).walk = (s.core_ k).walk.filter walk)
    let all (_ : TlbEntry) : Bool := true
    let toDram : Prop := ∀ e ∈ (s.core_ (coreIdx c)).sb, e.cid = c ∧ s.regionOf c e.addr = .dram ∧
        e.data.length ≤ 4096 ∧ e.addr + e.data.length ≤ s.dramEnd
    let drains (i : Instr) : Prop := toDram →
      Does i s (fun t => (t.core_ (coreIdx c)).sb = [] ∧ (t.cx c).pc = codeNext (s.cx c).pc ∧ (t.cx c).d = (s.cx c).d ∧
        ∀ b, t.byte b = ((s.core_ (coreIdx c)).sb.foldl
          (fun v e => if e.addr ≤ b ∧ b < e.addr + e.data.length then e.data.getD (b - e.addr) 0 else v) (s.byte b)))
    (srPL (s.cx c).sr ≠ 0#2 →
      issues (.tlbiVa c ra rb) (.tlbVa st (a / 4096)) ∧ issues (.tlbiS c rb) (.tlbS st) ∧ issues (.tlbiAll c) .tlbAll ∧
      issues (.walkiVa c ra rb) (.walkVa st (a / 65536)) ∧ issues (.walkiS c rb) (.walkS st) ∧ issues (.walkiAll c) .walkAll) ∧
    (applies (.tlbVa g p) (fun e => !(e.stag == g && e.page == p)) all ∧ applies (.tlbS g) (fun e => e.stag != g) all ∧
      applies .tlbAll (fun _ => false) all ∧ applies (.walkS g) all (fun e => e.stag != g) ∧ applies .walkAll all (fun _ => false) ∧
      applies (.walkVa g p) all (fun e => !(e.stag == g && decide (e.page ≤ p) && decide (p < e.page + 32)))) ∧
    drains (.sync c) ∧ drains (.isync c) ∧
    (s.remoteStores = false → drains (.syncD c)) ∧ (s.remoteStores = true → toDram → exec (.syncD c) s = .next s) ∧
    (s.postsWaiting c = false → drains (.syncP c)) ∧ (s.postsWaiting c = true → exec (.syncP c) s = .next s) ∧
    Does (.isync c) s (fun t => (s.core_ (coreIdx c)).sb = [] → (t.core_ (coreIdx c)).lines = []) ∧
    ((∀ k, ∀ e ∈ (s.core_ k).sb, s.regionOf e.cid e.addr = .dram) → Does (.syncT c) s (fun t =>
      (∀ p ∈ t.inval, p.1 ≠ c) ∧ (t.cx c).pc = codeNext (s.cx c).pc ∧ (∀ k, (t.core_ k).sb = []) ∧
      ((∀ k, (s.core_ k).sb = []) → t.mem = s.mem)))

/-- R93, R124, R165, R238, R254, R255, R292, R346: what the pipeline does on its own. A line that arrives enters the line buffer,
in the version that the buffer holds while the context may still execute it, its slot unchanged, or raises vector 4 for a bad trailer and vector 1 for a word that is no instruction; the oldest product
lands; a data line readies the context that missed; an idle core runs its scheduler's choice, and one that R292 prefers
replaces the running context; a prefetch changes nothing. -/
def Obligations.PipelineEvents : Prop :=
  ∀ (s : State) (c : Cid) (k : Fin 68) (a : Word) (h l : DWord),
    let x := s.cx c
    exec (.hwPrefetch k a) s = .next s ∧
    (x.prods.head? = some (h, l) →
      exec (.longOpLands c) s = .next (s.modCx c (fun y => { y with ph := h, pl := l, prods := x.prods.tail }))) ∧
    (s.coreLive k = true → s.running k = none → ∀ d, s.choice k = some d →
      Does (.contextSwitch k) s (fun t => (t.cx d).run = .running ∧ t.mem = s.mem ∧ (t.core_ (coreIdx d)).lines = [])) ∧
    (s.coreLive k = true → ∀ d, s.choice k = some d → ∀ r, s.running k = some r → s.prio r < s.prio d → s.pendingInt r = none →
      s.pendingInt d = none → srFB (s.cx r).sr = false → (s.cx r).atEngine = false → s.haltDue r = false → d ≠ r →
      Does (.contextSwitch k) s (fun t => (t.cx d).run = .running ∧ (t.cx r).run = .ready)) ∧
    (x.run = .waiting → x.wait = some .line → Does (.dataLineArrival c) s (fun t =>
      ((t.cx c).run = .ready ∨ (t.cx c).run = .running) ∧ (t.cx c).pc = x.pc ∧ t.mem = s.mem)) ∧
    (s.canIssue c = true → x.onVector = false → ∀ pa, s.fetchPa c = some pa →
      let held := (s.core_ (coreIdx c)).lineOf pa x.linesIn
      let line := (held.map (fun e => e.data)).getD (s.bytes pa 64)
      let word := BitVec.ofNat 40 (leVal ((line.drop (5 * (x.pc.toNat % 16))).take 5))
      let good := leVal ((line.drop 60).take 4) < 2048
      x.pc.toNat % 64 < 12 →
      (good → (decodeWord c word).isSome = true → Does (.fetchLineArrival c) s (fun t =>
        t.cx c = s.cx c ∧ t.mem = s.mem ∧ held.getD { addr := pa, data := line, seen := x.linesIn } ∈ (t.core_ (coreIdx c)).lines)) ∧
      (∀ fr, s.framePa c = some fr →
        (¬ good → s.entryClear c 4 = true → Does (.fetchLineArrival c) s (fun t =>
          s.entered t c fr x.pc 4 0 0 (x.pc &&& 0xFFFFFFFFC0#40))) ∧
        (good → (decodeWord c word).isNone = true → s.entryClear c 1 = true → Does (.fetchLineArrival c) s (fun t =>
          s.entered t c fr x.pc 1 0 0 x.pc))))

/-! ### The tally engine -/

/-- R352–R357, R360, R362, R365, R370, R376, R380: a posting, a PSET, a PCUT or a PREL that passes every check enters its context's
intake port with its operands extended to 22 digits or 88 bits; a form with a ticket writes the handle of a new pending
ticket to D[RD] and TKT, a form without one leaves every register. -/
def Obligations.TallyPostings : Prop :=
  ∀ (s : State) (c : Cid) (rd ra rb rc rf : RegNo) (x : Fin 4) (b : Bool), s.poised c = true →
    s.dOpen c [rd, ra, rb, rc, rf] = true → s.enabled pgTLY = true → (s.tports[tallyPort c]).length < 64 →
    let n := s.dv c ra % 2 ^ 40
    let w := s.width c
    let v := s.dv c rb
    let val (w v : Nat) : Int := if b then sint w v else decVal (w / 4) v
    let pw := if s.wide c then v else s.dv c rb % 2 ^ 40 * 2 ^ 40 + s.dv c (rb + 1) % 2 ^ 40
    let sends (i : Instr) (rd? : Option RegNo) (P : TOp → Prop) : Prop :=
      (rd?.isSome = true → s.ticketFree c = true) → Does i s (fun t => (t.cx c).pc = codeNext (s.cx c).pc ∧ t.mem = s.mem ∧
        t.acct = s.acct ∧ ∃ o ∈ (t.tports[tallyPort c]).getLast?, t.tports[tallyPort c] = s.tports[tallyPort c] ++ [o] ∧
          o.cid = c ∧ o.origin = none ∧ P o ∧
          (rd? = none → o.ticket = none ∧ (t.cx c).d = (s.cx c).d ∧ (t.cx c).tkt = (s.cx c).tkt) ∧
          (∀ r, rd? = some r → ∃ k ∈ o.ticket,
            let tk := t.ticket k
            let h := k + 2 ^ 15 + 2 ^ 16 * tk.gen.toNat + 2 ^ 24 * c.toNat
            tk.held = true ∧ tk.done = false ∧ tk.cid = c ∧ t.dv c r = h ∧ (t.cx c).tkt.toNat = h))
    let posts (k : TKind) (w v : Nat) (o : TOp) : Prop := o.kind = k ∧ o.acct.toNat = n ∧ o.b = b ∧ o.count = BitVec.ofNat 40 (s.dv c rc) ∧
      acctVal b o.amount = val w v
    (n < 2 ^ 21 → n / 2 ^ 18 = s.selfId → 2 ≤ keyRight (s.cx c).krr (srPL (s.cx c).sr) (s.acctKey (n % 2 ^ 18)) →
      ((b = false → bcdOk (w / 4) v = true) →
        sends (.post c ra rb rc b) none (posts .post w v) ∧ sends (.postT c rd ra rb rc b) (some rd) (posts .post w v) ∧
        ((b = false → bcdOk (w / 4) (s.dv c rf) = true) → sends (.postl c rd ra rb rc rf b) (some rd) (fun o =>
          posts .postl w v o ∧ acctVal b o.floor = val w (s.dv c rf)))) ∧
      ((s.wide c = false → rb.val % 2 = 0) → s.dOpen c [rb + 1] = true → (b = false → bcdOk 20 pw = true) →
        sends (.postW c ra rb rc b) none (posts .post 80 pw) ∧ sends (.postWt c rd ra rb rc b) (some rd) (posts .post 80 pw)) ∧
      (srPL (s.cx c).sr ≠ 0#2 → (b = false → bcdOk 22 (s.xv c x % 2 ^ 88) = true) →
        sends (.pset c rd ra (x.castAdd 12) rc b) (some rd) (fun o => o.kind = .pset ∧ o.acct.toNat = n ∧ o.b = b ∧
          o.amount.toNat = s.xv c x % 2 ^ 88 ∧ o.count = BitVec.ofNat 40 (s.dv c rc)))) ∧
    (srPL (s.cx c).sr ≠ 0#2 → sends (.pcut c rd) (some rd) (fun o => o.kind = .pcut) ∧
      sends (.prel c rd) (some rd) (fun o => o.kind = .prel))

/-- R247, R357, R363, R366, R367, R379, R390: PREAD and PREADC of a local account enter the intake, their registers and flags
pending, and once SEEDED the check of the account too (log 103); WAITT and WAITTA go on once their tickets are complete and wait until then; TKRD answers a ticket's word and
releases it once it is complete. -/
def Obligations.TallyReadsAndTickets : Prop :=
  ∀ (s : State) (c : Cid) (rd ra : RegNo) (x : Fin 4) (p : Bool), s.poised c = true → s.dOpen c [rd, rd + 1, ra] = true →
    s.enabled pgTLY = true →
    let n := s.dv c ra % 2 ^ 40
    let pc := (s.cx c).pc
    let reads (i : Instr) (k : TKind) (l : Bool) : Prop := Does i s (fun t => (t.cx c).pc = codeNext pc ∧ t.mem = s.mem ∧
      (t.cx c).pend = [.x x, .d (s.dLoc c rd), .flags] ++ (if s.flag F.TLY.SEEDED then [.check] else []) ∧ (t.cx c).atEngine = false ∧
      ∃ o ∈ (t.tports[tallyPort c]).getLast?, t.tports[tallyPort c] = s.tports[tallyPort c] ++ [o] ∧ o.kind = k ∧ o.acct.toNat = n ∧
        o.lpsn = l ∧ o.xreg = x ∧ o.dloc = s.dLoc c rd ∧ o.pc = pc ∧ o.cid = c ∧ o.origin = none)
    let i := n % 2 ^ 15
    let k := s.ticket i
    let ok := k.done && (s.ticketsOf c).all (fun u => u.done || decide (k.stamp ≤ u.stamp))
    let waits (j : Instr) (done : Bool) (on : WaitCond) : Prop := srFB (s.cx c).sr = false →
      if done then exec j s = .next (s.retire c)
      else Does j s (fun t => (t.cx c).run = .waiting ∧ (t.cx c).wait = some on ∧ (t.cx c).pc = pc ∧ t.mem = s.mem)
    (n < 2 ^ 21 → n / 2 ^ 18 = s.selfId → 1 ≤ keyRight (s.cx c).krr (srPL (s.cx c).sr) (s.acctKey (n % 2 ^ 18)) →
      (s.tports[tallyPort c]).length < 64 →
      reads (.pread c (x.castAdd 12) rd ra p) .pread p ∧
      (s.flag F.TLY.CUT_STATUS.HELD = true → reads (.preadc c (x.castAdd 12) rd ra) .preadc false)) ∧
    waits (.waitta c) ((s.ticketsOf c).all (fun u => u.flushed || (u.done &&
      (s.ticketsOf c).all (fun v => v.done || decide (u.stamp ≤ v.stamp))))) .allTickets ∧
    (n / 2 ^ 15 % 2 = 1 → n / 2 ^ 16 % 256 = k.gen.toNat → n / 2 ^ 24 % 2 ^ 12 = c.toNat → k.held = true → k.flushed = false → k.cid = c →
      waits (.waitt c ra) ok (.ticket i) ∧
      ((s.wide c = false → rd.val % 2 = 0) → Does (.tkrd c rd ra) s (fun t => (t.cx c).pc = codeNext pc ∧ t.mem = s.mem ∧
        srC (t.cx c).sr = ok ∧ (t.ticket i).held = !ok ∧ t.dv c (rd + 1) = (if ok then k.psn.toNat else 0) ∧
        srZ (t.cx c).sr = (ok && k.status == 0) ∧
        (ok = false → t.dv c rd % 32 = 5 ∧ t.dv c rd / 256 = k.op % 2 ^ 32) ∧
        (ok = true → k.status < 16 → k.device < 8 → k.op < 8 → t.dv c rd = k.status + 16 + 32 * k.device + 256 * k.op))))

/-- R349, R359, R360, R371, R377–R380, R384, R385, R389, R392: the engine's own steps. A grant gives a posting the next PSN and
its bank; a bank adds it to its account, keeps the cut value first, sets OVF and changes nothing else where the sum leaves
the range, and lands a read in its registers and flags; a cut becomes ready, a release ends, formats are stamped and the cold clear
zeroes every account; replay takes a record; the scrub marks an account BAD; a lost answer lands zero with C 1. -/
def Obligations.TallyEngine : Prop :=
  ∀ (s : State) (p : Fin 11) (o : TOp) (a : BitVec 18) (tag : BitVec 16) (c : Cid),
    let ac := acctOf o.acct
    let bk := bankOf ac
    let r := s.account ac
    let f := s.fmt ac
    let r1 : Account := if r.ce == s.flag F.TLY.CUT_STATUS.EPOCH then r else
      { r with cv := r.v, cn := r.n, ce := s.flag F.TLY.CUT_STATUS.EPOCH }
    let plain : Prop := o.origin = none ∧ s.flag F.TLY.ECC_INJECT.GO = false
    (s.tallyRuns = true → s.flag F.TLY.SEEDED = true → s.cutAt = none → s.ixIn = [] → (∀ q : Fin 11, s.tports[q] = if q = p then [o] else []) →
      o.kind = .post → devOf o.acct = s.selfId → (s.banks[bk]).length < 64 → Does .grantCycle s (fun t =>
        t.tptr = (p.val + 1) % 11 ∧ t.get F.TLY.PSN_NEXT.PSN = (s.get F.TLY.PSN_NEXT.PSN + 1) % 2 ^ 40 ∧
        t.tports[p] = [] ∧ t.banks[bk] = s.banks[bk] ++ [{ o with psn := BitVec.ofNat 40 (s.get F.TLY.PSN_NEXT.PSN) }])) ∧
    (s.banksRun = true → plain → s.banks[bk] = [o] → r.bad = false →
      (o.kind = .post → o.ticket = none → o.b = f →
        let v := acctVal f r.v + acctVal f o.amount
        let n := sint 40 r.n.toNat + sint 40 o.count.toNat
        Does (.bankApply bk .none) s (fun t => t.banks[bk] = [] ∧ t.mem = s.mem ∧ (∀ j, j ≠ ac → t.account j = s.account j) ∧
          t.account ac = if acctFits f v && countFits n
            then { r1 with v := acctOfVal f v, n := BitVec.ofInt 40 n, lpsn := o.psn } else { r1 with ovf := true })) ∧
      (o.kind = .pset → o.ticket = none → o.b = f → Does (.bankApply bk .none) s (fun t =>
        t.account ac = { r1 with v := o.amount, n := o.count, ovf := false, bad := false } ∧ t.banks[bk] = [])) ∧
      (o.kind = .pread → Does (.bankApply bk .none) s (fun t =>
        let y := t.cx o.cid
        let n := (if o.lpsn then r.lpsn else r.n).toNat
        let w := s.wide o.cid
        (y.x[o.xreg]).toNat = (if w then (if f then sext 88 176 r.v.toNat else decOf 44 (decVal 22 r.v.toNat)) % 2 ^ 176
          else r.v.toNat) ∧
        (t.atLoc o.cid o.dloc).toNat = (if w then sext 40 80 n else n) ∧
        y.pend = ((((s.cx o.cid).pend.erase (.x o.xreg)).erase (.d o.dloc)).erase .flags).erase .check ∧ t.acct = (s.copyCut ac).acct ∧
        srC y.sr = false ∧ srV y.sr = r.ovf ∧ srZ y.sr = (acctVal f r.v == 0) ∧ srN y.sr = decide (acctVal f r.v < 0)))) ∧
    (s.banksRun = true → (∀ i, o.ticket = some i → (s.ticket i).flushed = false ∧ (s.cx (s.ticket i).cid).wait = none) → o.origin = none →
      let done (t : State) : Prop := ∀ i, o.ticket = some i → (t.ticket i).done = true ∧ (t.ticket i).status = 0
      (s.cutOp = some o → (∀ q : Fin 8, ∀ u ∈ s.banks[q], u.kind ≠ .pcut) → s.flag F.TLY.CUT_STATUS.HELD = true →
        Does .cutReady s (fun t => t.flag F.TLY.CUT_STATUS.READY = true ∧ t.cutOp = none ∧ t.acct = s.acct ∧ done t ∧
          (t.reg (R.HDR.PG_INT_STATUS pgTLY)).getLsbD 1 = true)) ∧
      (s.prelOp = some o → s.cutOp = none → (∀ q : Fin 8, ∀ u ∈ s.banks[q], u.kind ≠ .preadc) → s.flag F.TLY.ECC_INJECT.GO = false →
        Does .prelSweepEnd s (fun t => t.flag F.TLY.CUT_STATUS.RELEASING = false ∧ t.prelOp = none ∧ done t ∧
          ∀ j, t.account j = { s.account j with ce := s.cutEpoch }))) ∧
    (s.banksRun = true → s.flag F.TLY.STAMPING = true → Does .stampingDone s (fun t => t.flag F.TLY.STAMPING = false ∧
      t.fmtRanges = s.rangesNow ∧ ∀ j, t.account j = if fmtIn s.fmtRanges j = fmtIn s.rangesNow j then s.account j else
        { v := 0, n := 0, lpsn := (s.account j).lpsn, ovf := false, ce := (s.account j).ce, bad := false, cv := 0, cn := 0 })) ∧
    (s.coldClear = true → Does .coldClearDone s (fun t => t.coldClear = false ∧
      ∀ j, t.account j = { v := 0, n := 0, lpsn := 0, ovf := false, ce := false, bad := false, cv := 0, cn := 0 })) ∧
    (s.get F.TLY.REPLAY_STATUS.STATE = 1 → s.powered 11 = true → s.frozen none = false → s.replayEntries = [] →
      s.flag F.TLY.REPLAY_CTRL.FINISH = false →
      let ra := s.get F.TLY.REPLAY_ADDR.ADDR
      let n := leVal (s.bytes (ra + 2) 2)
      let len := s.get F.TLY.REPLAY_LEN.LEN
      s.byte (ra % 2 ^ 40) ≠ 1#8 → 16 + n ≤ len → Does .replayRecord s (fun t => t.mem = s.mem ∧ t.acct = s.acct ∧
        t.get F.TLY.REPLAY_ADDR.ADDR = (ra + 16 + n) % 2 ^ 40 ∧ t.get F.TLY.REPLAY_LEN.LEN = len - 16 - n ∧
        t.get F.TLY.REPLAY_STATUS.STATE = (if len = 16 + n then 2 else 1))) ∧
    (s.banksRun = true → s.flag F.TLY.ECC_INJECT.GO = false →
      exec (.tallyScrub a .none) s = .next s ∧
      Does (.tallyScrub a .uncorrectable) s (fun t =>
        (t.account a.toNat).bad = true ∧ (t.account a.toNat).v = (s.account a.toNat).v ∧
        (t.reg (R.HDR.PG_INT_STATUS pgTLY)).getLsbD 4 = true)) ∧
    (s.remoteOps.head? = some o → o.tag = tag.toNat → o.kind = .pread → Does (.remoteReadTimeout tag) s (fun t =>
      t.remoteOps = s.remoteOps.tail ∧ srC (t.cx o.cid).sr = true ∧ ((t.cx o.cid).x[o.xreg]).toNat = 0 ∧
      (t.atLoc o.cid o.dloc).toNat = 0)) ∧
    ((s.cx c).run = .waiting → (s.cx c).wait = some .freeTicket → s.ticketFree c = true →
      Does (.ticketWaitReady c) s (fun t => ((t.cx c).run = .ready ∨ (t.cx c).run = .running) ∧ (t.cx c).pc = (s.cx c).pc))

/-- R6, R351, R369, R382, R383, R386, R398: the engine's controls, written by a warden context whose access the page's tests pass.
Each refusal leaves the register and records its code. -/
def Obligations.TallyControl : Prop :=
  ∀ (s : State) (c u : Cid) (v : Word) (a : BitVec 18) (dbl : Bool),
    let w := Requester.ctx c 3
    let seeded := s.flag F.TLY.SEEDED
    (s.headWritable w pgTLY 0x10 = true → s.enabled pgTLY = false → s.flag (F.HDR.PG_CTRL.BLOCK_RESET pgTLY) = false →
      Does (.tallyEnable w) s (fun t => t.enabled pgTLY = true ∧ t.flag F.TLY.STAMPING = true ∧ t.acct = s.acct)) ∧
    (s.writable w R.TLY.PSN_NEXT = true → Does (.psnNextSeed w v) s (fun t =>
      if seeded then t.get F.TLY.PSN_NEXT.PSN = s.get F.TLY.PSN_NEXT.PSN ∧ s.pageErrs t pgTLY 0x11
      else t.get F.TLY.PSN_NEXT.PSN = v.toNat ∧ t.flag F.TLY.SEEDED = true)) ∧
    (s.writable w R.TLY.REPLAY_CTRL = true → s.flag F.TLY.REPLAY_CTRL.FINISH = false →
      let run := s.get F.TLY.REPLAY_STATUS.STATE == 1
      let ok := !run && s.enabled pgTLY && s.inDram (s.get F.TLY.REPLAY_ADDR.ADDR) (s.get F.TLY.REPLAY_LEN.LEN)
      Does (.replayStart w) s (fun t => if ok then t.get F.TLY.REPLAY_STATUS.STATE = 1 else
        t.get F.TLY.REPLAY_STATUS.STATE = s.get F.TLY.REPLAY_STATUS.STATE ∧ s.pageErrs t pgTLY 0x12) ∧
      (run = false → s.flag F.TLY.REPLAY_CTRL.START = false → s.flag F.TLY.REPLAY_OPEN = true →
        Does (.replayFinish w) s (fun t => t.flag F.TLY.REPLAY_OPEN = false))) ∧
    (s.writable w R.TLY.TKT_FLUSH = true → (s.tickets.map (·.1)).Nodup → Does (.tktFlush w u) s (fun t =>
      ∀ i, let k := s.ticket i
        if k.held = true ∧ k.cid = u then (if s.tktComplete k then (t.ticket i).held = false else (t.ticket i).flushed = true)
        else t.ticket i = k)) ∧
    (s.writable w R.TLY.ECC_INJECT = true → Does (.eccInject w a dbl) s (fun t =>
      if s.flag F.TLY.ECC_INJECT.GO then t.reg R.TLY.ECC_INJECT = s.reg R.TLY.ECC_INJECT
      else t.flag F.TLY.ECC_INJECT.GO = true ∧ t.get F.TLY.ECC_INJECT.ACCOUNT = a.toNat ∧ t.flag F.TLY.ECC_INJECT.DOUBLE = dbl))

/-! ### The queue manager -/

/-- R404, R405, R411–R415, R421, R422: ENQ and DEQ that pass their checks send a transfer, the context issuing nothing until it
ends, and stall while no transfer tag is free; QCNT answers a queue's status word; WAITQ answers the queue it selects, one bound to the context that holds elements, or
waits, and does so again when it is woken. -/
def Obligations.QueueInstructions : Prop :=
  ∀ (s : State) (c : Cid) (rd ra rb : RegNo) (pa : Nat), s.dOpen c [rd, ra] = true →
    let x := s.cx c
    let n := s.dv c ra % 2 ^ 40
    let q := s.queue n
    let right := keyRight x.krr (srPL x.sr) q.key
    let el (i k : Nat) : Nat := leVal (s.bytes (pa + i) k)
    let sent (t : State) (P : QOp → Prop) : Prop := (t.cx c).pc = codeNext x.pc ∧ (t.cx c).atEngine = true ∧ t.mem = s.mem ∧
      (t.cx c).d = x.d ∧ (t.cx c).sr = x.sr ∧ ∃ o ∈ (t.qports[queuePort c]).getLast?,
        t.qports[queuePort c] = s.qports[queuePort c] ++ [o] ∧ o.queue = n ∧ o.warden = isWardenCid c ∧
        o.origin = .ctx c (s.dLoc c rd) ∧ P o
    let free := decide (s.qtags.length < 2048)
    let sends (i : Instr) (P : QOp → Prop) : Prop := if free then Does i s (fun t => sent t P) else exec i s = .next s
    let chose (t : State) : Prop := (t.cx c).pc = codeNext x.pc ∧
      (let k := t.dv c rd
       let p := s.queue k
       p.bound = true ∧ p.cid = c ∧ p.wake = true ∧ p.valid = true ∧ p.head ≠ p.tail)
    (s.poised c = true → n < 8192 →
      (2 ≤ right → q.pmode = false → (s.av c rb).toNat % 64 = 0 → s.plainAt c (s.av c rb) 64 false = some pa →
        sends (.enq c rd ra rb) (fun o => o.take = false ∧ o.src = c.toNat ∧ o.type = el 4 1 ∧ o.len = el 5 1 ∧
          o.payload = s.bytes (pa + 8) 56)) ∧
      ((isWardenCid c = true ∨ q.ckind = 0 ∧ q.bound = true ∧ q.cid = c) → (s.av c rb).toNat % 64 = 0 →
        s.plainAt c (s.av c rb) 64 true = some pa → sends (.deq c rd ra rb) (fun o => o.take = true ∧ o.dest = pa)) ∧
      (1 ≤ right ∨ q.mine c = true →
        let st := if s.enabled pgQMG && q.valid then 0 else 6
        exec (.qcnt c rd ra) s = .next (((s.setD c rd (st + 16 * (q.tail - q.head).toNat)).withSr c
          (setBit x.sr 2 (st == 0))).retire c))) ∧
    (s.poised c = true → srFB x.sr = false → s.handsOver c = false → (s.queues.any (fun p => p.2.mine c && p.2.wake)) = true →
      if s.restarting pgQMG then exec (.waitq c rd) s = .next s
      else Does (.waitq c rd) s (fun t => if (s.select c).1.isSome then chose t else
        (t.cx c).run = .waiting ∧ (t.cx c).wait = some (.queues rd) ∧ (t.cx c).pc = x.pc)) ∧
    (x.run = .waiting → x.moving = false → x.wait = some (.queues rd) → s.queueRuns = true → srRP x.sr = false → srLD x.sr = 0 →
      (s.select c).1.isSome = true →
      Does (.waitqWake c) s (fun t => chose t ∧ ((t.cx c).run = .ready ∨ (t.cx c).run = .running)))

/-- R401, R402, R404–R409, R425, R426, R430: writes of a queue's registers by a requester that its WLOCK does not stop: what each
sets, and the code of each that is refused. -/
def Obligations.QueueControl : Prop :=
  ∀ (s : State) (r : Requester) (n : BitVec 13) (v : Word) (i : BitVec 17),
    (∀ o ∈ [0, 0x08, 0x10, 0x30], s.winWritable r (qwBase + 64 * n.toNat + o) = true) →
    let q := s.queue n.toNat
    let isNext (t : State) (u : Queue) : Prop := t.queue n.toNat = u ∧ t.mem = s.mem ∧ ∀ m, m ≠ n.toNat → t.queue m = s.queue m
    let no (t : State) (code : Nat) : Prop := isNext t q ∧ s.pageErrs t pgQMG code
    let depth := getF v 0 5
    let valid := v.getLsbD 5
    let ckind := getF v 7 3
    let base := q.base.toNat
    let used := (q.tail - q.head).toNat
    let drop : Queue := { q with head := q.tail, orphan := false, discarded := min (q.discarded + used) (2 ^ 20 - 1) }
    let free := q.wlock == false || reqWarden r
    Does (.qbaseWrite r n v) s (fun t => if !free then no t 0x11 else
      if q.valid = true ∧ v &&& 0xFFFFFFFFC0#40 ≠ q.base then no t 0x10 else isNext t { q with base := v &&& 0xFFFFFFFFC0#40 }) ∧
    Does (.qbindWrite r n v) s (fun t => if !free then no t 0x11 else
      if q.ckind ≠ 0 then isNext t q else
      if v.getLsbD 24 = false then isNext t { q with cid := v.extractLsb' 0 12, bound := false, orphan := false } else
      if validCid (v.extractLsb' 0 12) = false then no t 0x13 else
        isNext t { q with cid := v.extractLsb' 0 12, epoch := (s.cx (v.extractLsb' 0 12)).role, bound := true, orphan := false }) ∧
    Does (.qcfgWrite r n v) s (fun t =>
      if (q.wlock || v.getLsbD 18 != q.wlock) && !reqWarden r then no t 0x11 else
      if depth < 4 ∨ 16 < depth ∨ 5 < ckind then no t 0x14 else
      if q.valid = true ∧ depth ≠ q.depth then no t 0x10 else
      if valid && !q.valid && (base % (64 * 2 ^ depth) != 0 || decide (s.dramEnd < base + 64 * 2 ^ depth)) then no t 0x12 else
        let set (u : Queue) : Queue := { u with depth := depth, valid := valid, pmode := v.getLsbD 6, ckind := ckind, key := getF v 10 4,
                                                prio := getF v 14 3, wake := v.getLsbD 17, wlock := v.getLsbD 18 }
        isNext t (if q.valid && !valid then set drop
          else if valid && !q.valid then set { q with head := 0, tail := 0, orphan := false }
          else set { q with orphan := q.orphan && ckind == 0 })) ∧
    Does (.discard r n) s (fun t => if !free then no t 0x11 else isNext t drop) ∧
    Does (.tailDoorbell r n i) s (fun t => if !free then no t 0x11 else
      if q.valid && q.pmode && i != q.tail && decide (used < (i - q.head).toNat) && decide ((i - q.head).toNat ≤ 2 ^ q.depth)
      then isNext t { q with tail := i } else no t 0x15) ∧
    Does (.headDoorbell r n i) s (fun t => if !free then no t 0x11 else
      if q.valid && q.ckind == 5 && i != q.head && decide ((q.tail - i).toNat < used)
      then t.mem = s.mem ∧ (t.queue n.toNat).head = i ∧ (t.queue n.toNat).tail = q.tail ∧ (t.queue n.toNat).age = 0
      else no t 0x15)

/-- R71, R402, R414, R415, R417, R419, R420, R421, R427: the queue manager's own steps, a transfer tag being free. A grant of ENQ writes the element at the tail with
the queue's number and epoch, a grant of DEQ copies the head element out, each answering its status word and SR.Z; a held
orphan notice is sent; an age step raises the age of the queues that were passed over. -/
def Obligations.QueueEngine : Prop :=
  ∀ (s : State) (p : Fin 15) (o : QOp) (c : Cid) (k : Fin 8) (note : List Byte),
    let n := o.queue
    let q := s.queue n
    let used := (q.tail - q.head).toNat
    let slot (i : BitVec 17) : Nat := q.base.toNat + 64 * (i.toNat % 2 ^ q.depth)
    let head := s.bytes (slot q.head) 64
    let answer (t : State) (st : Nat) (used : Nat) : Prop := ((t.cx c).d[k]).toNat = st + 16 * used ∧
      srZ (t.cx c).sr = decide (st = 0) ∧ (t.cx c).atEngine = false ∧ t.qports[p] = [] ∧ t.qptr = (p.val + 1) % 15 ∧
      t.get F.QMG.TAGS.IN_USE = t.qtags.length
    (s.queueRuns = true → s.qtags.length < 2048 → (∀ j : Fin 15, s.qports[j] = if j = p then [o] else []) → o.origin = .ctx c (.own k) →
      (o.take = false → 0x40 ≤ o.type → o.type < 256 → o.len ≤ 56 → s.inDram (slot q.tail) 64 = true →
        Does .qmgGrantCycle s (fun t =>
          if s.enabled pgQMG = false ∨ q.valid = false then answer t 6 used ∧ t.mem = s.mem
          else if 2 ^ q.depth ≤ used then answer t 1 used ∧ t.mem = s.mem ∧ (t.queue n).fulls = satInc 20 q.fulls
          else answer t 0 (used + 1) ∧ (t.queue n).tail = q.tail + 1 ∧ (t.queue n).head = q.head ∧
            t.bytes (slot q.tail) 64 = leBytes 2 n ++ leBytes 2 (if q.ckind = 0 then q.epoch.toNat else 0) ++ leBytes 1 o.type ++
              leBytes 1 o.len ++ leBytes 2 o.src ++ ((o.payload.take o.len) ++ List.replicate 56 0#8).take 56)) ∧
      (o.take = true → o.warden = false → s.enabled pgQMG = true → q.valid = true → q.bound = true → q.cid = c → q.ckind = 0 →
        q.orphan = false → s.headBad n = false → s.regionOf c o.dest = .dram → o.dest % 64 = 0 →
        (used = 0 → Does .qmgGrantCycle s (fun t => answer t 2 0 ∧ t.mem = s.mem)) ∧
        (used ≠ 0 → leVal ((head.drop 2).take 2) = q.epoch.toNat → q.epoch = (s.cx c).role → Does .qmgGrantCycle s (fun t =>
          answer t 0 (used - 1) ∧ t.bytes o.dest 64 = head ∧ (t.queue n).head = q.head + 1 ∧ (t.queue n).tail = q.tail ∧
          (t.queue n).age = 0)))) ∧
    (let u := s.get F.QMG.ORPHAN_QUEUE.QUEUE
     let e := s.queue u
     s.orphans.head? = some note → note.length = 14 → s.flag F.QMG.ORPHAN_QUEUE.VALID = true → s.enabled pgQMG = true → e.valid = true →
      e.pmode = false → (e.tail - e.head).toNat < 2 ^ e.depth → s.live pgQMG = true → s.tagFree true = true →
      s.inDram (e.base.toNat + 64 * (e.tail.toNat % 2 ^ e.depth)) 64 = true → Does .orphanNoticeSend s (fun t =>
        t.orphans = s.orphans.tail ∧ (t.queue u).tail = e.tail + 1 ∧
        (t.bytes (e.base.toNat + 64 * (e.tail.toNat % 2 ^ e.depth) + 8) 14) = note)) ∧
    (s.live pgQMG = true → s.flowMode = 1 → (s.queues.map (·.1)).Nodup → Does .ageStep s (fun t => t.mem = s.mem ∧
      ∀ m, let e := s.queue m
        t.queue m = { e with passed := false, age := if e.passed && e.valid && e.head != e.tail && decide (e.age < 9) then e.age + 1
                                                     else e.age }))

/-! ### Control pages, contexts, routing and Conjunction -/

/-- R5, R32, R37, R40, R41, R44–R47, R727: accesses to control space. A write that its block gives no
effect of its own sets its rw bits, clears its wc bits and sets its ws bits, from the host only the bits that the access covers; the header
registers, the grants and the restart of a block do as their rules say. -/
def Obligations.ControlPages : Prop :=
  ∀ (s : State) (r : Requester) (a v : Word) (p : BitVec 10) (on : Bool) (off : BitVec 24) (bs : List Byte) (k kp : PageKind)
    (row : RegRow) (blk : Fin 25),
    let pg := 0xFFF0000000 + 4096 * p.toNat
    let h := 0xFFF0000000 + off.toNat
    let masked (row : RegRow) (old v : Word) : Word :=
      ((old &&& ~~~BitVec.ofNat 40 row.rw) ||| (v &&& BitVec.ofNat 40 row.rw)) &&& ~~~(v &&& BitVec.ofNat 40 row.wc) |||
        (v &&& BitVec.ofNat 40 row.ws)
    (a.toNat % 8 = 0 → s.writable r a.toNat = true → pageOf a.toNat = some k → rowOf k (a.toNat % 4096) = some row →
      s.blockWrite drainCore r k a.toNat v = none →
      exec (.registerWrite r a v) s = .next (s.setReg a.toNat (masked row (s.reg a.toNat) v))) ∧
    (pageOf a.toNat = none → inWindow a.toNat = false → inControl a.toNat = true → a.toNat % 8 = 0 → s.canReach r = true →
      s.inOrder r = s →
      Does (.registerWrite r a v) s (fun t => s.pageErrs t pgSYS 7)) ∧
    (h % 8 = 0 → s.writable .host h = true → pageOf h = some k → rowOf k (h % 4096) = some row →
      (let low := BitVec.ofNat 40 (leVal bs) ||| (s.reg h &&& 0xFF00000000#40 &&& BitVec.ofNat 40 row.rw)
       bs.length = 4 → row.touches 0xFFFFFFFF#40 = true → s.blockWrite drainCore .host k h low = none →
        exec (.hostAccess off 0 (some bs)) s = .next (s.setReg h (masked row (s.reg h) low))) ∧
      (s.readEffect .host k h = (s.reg h, s) →
        Does (.hostAccess off 8 none) s (fun t => t.hostCpl = some (leBytes 8 (s.reg h).toNat) ∧ t.creg = s.creg) ∧
        Does (.hostAccess off 4 none) s (fun t => t.hostCpl = some (leBytes 4 ((s.reg h).toNat % 2 ^ 32)) ∧ t.creg = s.creg)) ∧
      (bs.length ≠ 4 → bs.length ≠ 8 → Does (.hostAccess off 0 (some bs)) s (fun t => s.pageErrs t (pageBase h) 5 ∧
        t.reg h = s.reg h))) ∧
    (s.headWritable r pg 0x20 = true → Does (.pgIntStatusClear r p v) s (fun t =>
      t.reg (R.HDR.PG_INT_STATUS pg) = s.reg (R.HDR.PG_INT_STATUS pg) &&& ~~~(v &&& 0xFFFFFFFF#40) ∧
      t.get (F.HDR.PG_ERR_SYNDROME.OVF pg) = if v.getLsbD 0 then 0 else s.get (F.HDR.PG_ERR_SYNDROME.OVF pg))) ∧
    (s.headWritable r pg 0x10 = true → pageOf pg = some kp → s.flag (F.HDR.PG_CTRL.BLOCK_RESET pg) = false →
      s.flag (F.HDR.PG_CTRL.ENABLE pg) = true →
      Does (.expertSet r p on) s (fun t => t.enabled pg = true ∧
        if on = false then t.flag (F.HDR.PG_CTRL.EXPERT pg) = false
        else if s.flag (F.HDR.PG_CTRL.EXPERT pg) || s.mayExpert r kp pg then t.flag (F.HDR.PG_CTRL.EXPERT pg) = true
        else t.flag (F.HDR.PG_CTRL.EXPERT pg) = false ∧ s.pageErrs t pg 3) ∧
      (restartPresent kp = true → kp ≠ .dbg → Does (.blockReset r p) s (fun t => t.flag (F.HDR.PG_CTRL.BLOCK_RESET pg) = true))) ∧
    (s.headWritable r pg 0x38 = true → Does (.pgLockWrite r p v) s (fun t =>
      t.flag (F.HDR.PG_LOCK.LOCK pg) = (if tabGet false s.lockSet pg then s.flag (F.HDR.PG_LOCK.LOCK pg) else v.getLsbD 8) ∧
      tabGet false t.lockSet pg = true ∧
      if reqWarden r then t.get (F.HDR.PG_LOCK.KEY pg) = getF v 0 4
      else t.get (F.HDR.PG_LOCK.KEY pg) = s.get (F.HDR.PG_LOCK.KEY pg) ∧ s.pageErrs t pg 9)) ∧
    (let new := v &&& 0x3FFFFF#40
     let withdrawn (t : State) (new : Word) : Prop := t.reg R.SYS.EXPERT_GRANT = new ∧
       ∀ b : Fin 22, (s.reg R.SYS.EXPERT_GRANT).getLsbD b.val = true → new.getLsbD b.val = false →
         ∀ q ∈ groupPages b.val, t.flag (F.HDR.PG_CTRL.EXPERT q) = false
     (s.writable r R.SYS.EXPERT_GRANT = true → reqWarden r = true → Does (.expertGrantWrite r v) s (fun t => withdrawn t new)) ∧
     (s.live pgWRD = true → s.get F.WRD.GRANT_EXPIRE.LEFT ≠ 0 → Does .grantExpiry s (fun t => withdrawn t 0))) ∧
    (s.flag (F.HDR.PG_CTRL.BLOCK_RESET (0xFFF0000000 + 0x10000 * blk.val)) = true → s.restartMayEnd blk.val = true →
      Does (.blockRestartDone blk) s (fun t => t.flag (F.HDR.PG_CTRL.BLOCK_RESET (0xFFF0000000 + 0x10000 * blk.val)) = false))

/-- R107, R284–R290, R301–R305: a context is started, halted and given its next role epoch through its core page; the messages of
its halts, its interrupt sources and their routing. -/
def Obligations.ContextControl : Prop :=
  ∀ (s : State) (r : Requester) (c : Cid) (v : Word) (n : BitVec 10),
    let x := s.cx c
    let p := s.corePage c
    let k := if isWardenCid c then PageKind.wcore else .core
    let sup := match r with | .ctx _ pl => pl != 0#2 | _ => false
    let hb : Fld := ⟨R.CORE.CTX_CTRL p, 8 + ctxNo c, 1⟩
    let halted (t : State) : Prop := (t.cx c).run = .halted ∧ t.get (F.CORE.CTX_HALT.REASON p (ctxNo c)) = 5 ∧ (t.cx c).pc = x.pc
    let goes (t : State) : Prop := (t.cx c).run = .ready ∨ (t.cx c).run = .running
    let src := getF v 0 10
    (validCid c = true → s.writable r (R.CORE.CTX_CTRL p) = true → s.pageCore k (R.CORE.CTX_CTRL p) = some (coreIdx c) →
      s.flag (F.CORE.CORE_STATUS.MOVING p) = false →
      (sup = true → x.run = .halted → codeOk (s.reg (R.CORE.CTX_PC p (ctxNo c))) = true → s.romStopped = false →
        s.oddJoined (coreIdx c) = false →
        Does (.ctxStart r c) s (fun t => goes t ∧ (t.cx c).pc = s.reg (R.CORE.CTX_PC p (ctxNo c)) ∧ (t.cx c).sr = srReset c)) ∧
      (sup = true → x.run ≠ .halted → x.atEngine = false → Does (.ctxHalt r c) s (fun t =>
        if x.run = .running then t.flag hb = true ∧ (t.cx c).run = .running else halted t)) ∧
      (reqWarden r = true → Does (.roleInc r c) s (fun t => (t.cx c).role = x.role + 1 ∧ (t.cx c).pc = x.pc))) ∧
    (s.flag hb = true → s.canRun c = true → srFB x.sr = false → Does (.haltTakesEffect c) s halted) ∧
    (let q := s.get F.SYS.HALT_QUEUE.QUEUE
     let e := s.queue q
     x.heldMsg.isSome = true → (x.heldMsg.getD []).length = 34 → s.flag F.SYS.HALT_QUEUE.VALID = true → s.enabled pgQMG = true →
      e.valid = true → e.pmode = false → (e.tail - e.head).toNat < 2 ^ e.depth → s.live pgQMG = true → s.tagFree true = true →
      s.inDram (e.base.toNat + 64 * (e.tail.toNat % 2 ^ e.depth)) 64 = true →
      Does (.haltMessageEnqueue c) s (fun t => (t.cx c).heldMsg = none ∧ (t.queue q).tail = e.tail + 1 ∧
        some (t.bytes (e.base.toNat + 64 * (e.tail.toNat % 2 ^ e.depth) + 8) 34) = x.heldMsg)) ∧
    ((s.irtOf n.toNat).target = c → x.run = .waiting → s.takes c n.toNat = true → Does (.sourceAssert n) s goes) ∧
    (s.writable r R.SYS.IRT_WRITE = true → reqWarden r = true → Does (.irtWrite r v) s (fun t =>
      if validCid (v.extractLsb' 10 12) = false ∨ getF v 28 12 ≠ 0 then t.irt = s.irt ∧ s.pageErrs t pgSYS 0x10
      else t.irtOf src = { target := v.extractLsb' 10 12, level := getF v 22 4, urgent := v.getLsbD 26, enable := v.getLsbD 27 } ∧
        ∀ m, m ≠ src → t.irtOf m = s.irtOf m)) ∧
    (s.writable r R.SYS.SWI = true → reqSup r = true → Does (.swi r v) s (fun t =>
      if src < 512 ∨ 768 ≤ src ∨ getF v 11 29 ≠ 0 then t.swi = s.swi ∧ s.pageErrs t pgSYS 0x11
      else t.asserted src = v.getLsbD 10))

/-- R111–R116: a pair of cores is asked to join or to separate; a refusal says why in RESULT; and the transition completes once
no queue transfer of the even core's contexts is under way, an entry unjoined where what R112 asks has come to fail (log 36). -/
def Obligations.Conjunction : Prop :=
  ∀ (s : State) (r : Requester) (clu : Fin 8) (k : Fin 4) (c : Cid),
    let p := pgClu clu.val
    let ctrl : Fld := ⟨R.CLU.CONJ_CTRL p, k.val, 1⟩
    let joined (t : State) : Bool := t.flag (F.CLU.CONJ_STATUS.JOINED p k.val)
    let busy (t : State) : Bool := t.flag (F.CLU.CONJ_STATUS.BUSY p k.val)
    let result (t : State) : Nat := t.get (F.CLU.CONJ_STATUS.RESULT p k.val)
    let odd := coreCids (8 * clu.val + 2 * k.val + 1)
    let even := coreCids (8 * clu.val + 2 * k.val)
    let why := if odd.any (fun d => (s.cx d).run != .halted) then 1
      else if s.queues.any (fun q => q.2.ckind == 0 && q.2.bound && odd.contains q.2.cid) then 2
      else if s.tickets.any (fun t => t.2.held && odd.contains t.2.cid) then 3
      else if s.physOf clu.val (2 * k.val) ≠ 2 * k.val ∨ s.physOf clu.val (2 * k.val + 1) ≠ 2 * k.val + 1 then 4 else 0
    let ends (t : State) (on : Bool) : Prop := joined t = on ∧ busy t = false ∧ result t = 0 ∧
      (c ∈ even → (s.cx c).wait = none → (t.cx c).moving = false ∧ (t.cx c).pc = (s.cx c).pc ∧
        ∀ i : Fin 8, ((t.cx c).d[i]).toNat = ((s.cx c).d[i]).toNat % 2 ^ 40)
    (s.writable r (R.CLU.CONJ_CTRL p) = true → reqSup r = true → s.frozen (some clu.val) = false →
      (s.flag ctrl = false → Does (.conjEntry r clu k) s (fun t =>
        if busy s then result t = 5 ∧ t.flag ctrl = false else if why ≠ 0 then result t = why ∧ busy t = false ∧ t.flag ctrl = false
        else busy t = true ∧ t.flag ctrl = true ∧ (c ∈ even → (t.cx c).moving = true))) ∧
      (s.flag ctrl = true → Does (.conjExit r clu k) s (fun t =>
        if busy s then result t = 5 ∧ t.flag ctrl = true else busy t = true ∧ t.flag ctrl = false ∧ (c ∈ even → (t.cx c).moving = true)))) ∧
    (busy s = true → even.all (fun d => !(s.cx d).atEngine) = true → s.frozen (some clu.val) = false →
      (s.flag ctrl = true → Does (.conjJoin clu k) s (fun t => if why = 0 then ends t true else
        result t = why ∧ busy t = false ∧ t.flag ctrl = false ∧ joined t = joined s)) ∧
      (s.flag ctrl = false → Does (.conjSeparate clu k) s (fun t => ends t false ∧ ∀ d ∈ odd, (t.cx d).run = .halted)))

/-! ### The journal and its cartridges -/

/-- R436–R438, R443, R447–R450, R458, R472, R474: an element taken becomes a record of the open batch under the next JSN, or is rejected
with its reason, and its DONE word tells which; the batch closes, is programmed page by page on each active cartridge, and is
signed where it must be; a page that fails is written anew at a retry point or stops the slot; a read run copies committed
batches to memory. -/
def Obligations.JournalBatches : Prop :=
  ∀ (s : State) (r : Requester) (k : Fin 2) (n i : Nat) (e : List Byte) (b : Batch) (c : Cartridge) (run : RdRun) (im : Image) (v : Word),
    let x := s.jslot k.val
    let got := (s.hwTake n).elementRecord e
    let j := s.get F.JRN.NEXT_JSN.JSN
    let commit := s.get F.JRN.COMMIT_BATCH.BATCH
    let closes (t : State) (how : Nat) : Prop := ∃ b' ∈ t.jr.batch, b'.close = some how ∧ b'.bytes = b.bytes ∧ b'.number = b.number ∧
      b'.trailer.length = 256 ∧ (b'.trailer.drop 80).take 32 = s.jr.prevHash ∧
      (b'.trailer.drop 112).take 32 = sha256 (s.jr.prevHash ++ b.bytes ++ b'.trailer.take 80) ∧ t.jstate = s.jstate
    let stops (t : State) (why : Nat) : Prop := t.jr.rd = none ∧ t.get F.JRN.RD_STATUS.STOP = why ∧ t.flag F.JRN.RD_CTRL.START = false
    (s.intakeOpen = true → s.cascade = false → s.nextQueue = some n → s.hwHead n = (some e, s) →
      Does .journalTake s (fun t => (t.queue n).head = (s.queue n).head + 1 ∧
        if got.1 ≠ 0 then t.jr.batch = s.jr.batch ∧ t.get F.JRN.REJECT_LAST.REASON = got.1 ∧ t.get F.JRN.REJECT_LAST.QUEUE = n ∧
          t.get F.JRN.REJECTS.COUNT = min (s.get F.JRN.REJECTS.COUNT + 1) (2 ^ 40 - 1) ∧ t.get F.JRN.NEXT_JSN.JSN = j ∧
          (got.2.2 ≠ 0 → t.bytes got.2.2 5 = List.replicate 5 0xFF#8)
        else if s.fitsBatch got.2.1 = true then t.get F.JRN.NEXT_JSN.JSN = (if j + 2 < 2 ^ 40 then j + 1 else 1) ∧
          (got.2.2 ≠ 0 → t.bytes got.2.2 5 = leBytes 5 j) ∧
          ∃ b' ∈ t.jr.batch, b'.last = j ∧ b'.bytes = (match s.jr.batch with | some o => o.bytes | none => []) ++
            got.2.1.take 6 ++ leBytes 5 j ++ got.2.1.drop 11
        else t.jr.carry.map (fun w => (w.bytes, w.done)) = some got.2 ∧ t.jr.batch.map (fun o => (o.bytes, o.close)) =
          s.jr.batch.map (fun o => (o.bytes, if o.count = 0 then none else some 0)))) ∧
    (s.jr.batch = some b → b.close = none → 0 < b.count → s.jr.prevHash.length = 32 →
      (s.live pgJRN = true → Does .closeTimer s (fun t => closes t 1)) ∧
      (s.writable r R.JRN.CTRL = true → s.enabled pgJRN = true →
        Does (.close r) s (fun t => closes t 3 ∧ t.flag F.JRN.CTRL.CLOSE = true))) ∧
    (s.jr.batch = some b → s.nextPage k.val = some i → s.journalRuns = true → x.cart = some c →
      (let at_ := place c x.passed x.wstripe x.wpos
       let key := 2048 * x.wstripe + 1024 * at_.1 + at_.2
       let last := b.close.isSome && i + 1 == batchPages b.bytes.length
       let pos := x.wstripe * 2 * c.ppb + x.wpos
       let info := pageInfo s.journalId b.number i last pos
       let page (errs : List Nat) : NandPage := { pos, data := b.page i, info, spare := pageSpare c.spare (b.page i) info, errs }
       let onCart (t : State) (p : NandPage) : Prop := (t.jslot k.val).cart.map (·.pages) = some (tabIns c.pages key p)
       Does (.pageProgramDone k true) s (fun t => onCart t (page (List.replicate 8 0)) ∧
        if last && s.writers.all (fun w => w == k.val || (s.jslot w).done == batchPages b.bytes.length) then
          t.get F.JRN.COMMIT_BATCH.BATCH = b.number % 2 ^ 40 ∧ (t.jslot k.val).done = 0
        else t.jr.batch = s.jr.batch ∧ (t.jslot k.val).done = i + 1) ∧
       Does (.pageProgramDone k false) s (fun t => onCart t (page [73]) ∧ (t.jslot k.val).done = 0 ∧
        (s.jstate ≠ 6 → s.flushing = false →
          if x.fails = 0 ∧ 0 < c.blocks then (t.jslot k.val).fails = 1 else t.crtState k.val = 7)))) ∧
    (s.journalRuns = true → s.jr.batch = some b → b.close.isSome = true → b.sigDue = true → b.sigDone = false → s.canSign = true →
      b.trailer.length = 256 →
      Does .journalSignatureDone s (fun t => ∃ b' ∈ t.jr.batch, b'.sigDone = true ∧ b'.bytes = b.bytes ∧ b'.number = b.number ∧
        ∃ nonce, b'.trailer = b.trailer.take 152 ++
          ecdsaSign (beVal (s.key (s.get F.JRN.CFG.SIGN_KEY))) nonce (sha256 (b.trailer.take 144)) ++ b.trailer.drop 216)) ∧
    (s.writable r R.JRN.RD_CTRL = true → s.jr.rd = none → s.inDram (s.reg R.JRN.RD_ADDR).toNat (s.reg R.JRN.RD_LEN).toNat = true →
      (let at_ := (s.reg R.JRN.RD_BATCH).toNat
       Does (.readStart r) s (fun t => (s.readSlot = none → stops t 6) ∧
        ∀ w ∈ s.readSlot, ∀ d ∈ (s.jslot w).cart,
          let first := if s.flag F.JRN.RD_CTRL.MODE then s.psnBatch d else if s.holdsBatch d at_ then some at_ else none
          (first = none → stops t 6) ∧ ∀ m ∈ first, t.flag F.JRN.RD_CTRL.START = true ∧
            ∃ u ∈ t.jr.rd, u.slot = w ∧ u.next = m ∧ u.prev = none))) ∧
    (s.live pgJRN = true → s.jr.rd = some run → run.slot = k.val →
      (x.cart = none → Does .readBatch s (fun t => stops t 5)) ∧
      (x.cart = some c → commit < run.next → Does .readBatch s (fun t => stops t 2)) ∧
      (x.cart = some c → run.next ≤ commit → c.find s.journalId run.next = some im →
        (let before := run.prev.orElse (fun _ => (c.find s.journalId (run.next - 1)).map Image.hash)
         let out := if s.flag F.JRN.RD_CTRL.RAW then (im.pages.map (·.data)).flatten else im.bytes
         let a := (s.reg R.JRN.RD_ADDR).toNat
         let len := (s.reg R.JRN.RD_LEN).toNat
         Does .readBatch s (fun t =>
          if before.any (fun h => h != im.prev) = true then stops t 4 ∧ t.mem = s.mem
          else if len < out.length then stops t 3 ∧ t.mem = s.mem else
          (if s.inDram a out.length = true then t.bytes a out.length = out else t.mem = s.mem) ∧
          (∀ p, p < a ∨ a + out.length ≤ p → t.byte p = s.byte p) ∧
          t.reg R.JRN.RD_ADDR = BitVec.ofNat 40 (a + out.length) ∧ t.reg R.JRN.RD_LEN = BitVec.ofNat 40 (len - out.length) ∧
          if run.left = 1 then stops t 1 else if run.next = commit then stops t 2 else
            ∃ u ∈ t.jr.rd, u.next = run.next + 1 ∧ u.left = run.left - 1 ∧ u.prev = some im.hash)))) ∧
    (s.writable r R.JRN.ARCHIVED = true → Does (.archivedWrite r v) s (fun t =>
      if v.toNat < s.get F.JRN.ARCHIVED.BATCH then t.reg R.JRN.ARCHIVED = s.reg R.JRN.ARCHIVED ∧ s.pageErrs t pgJRN 0x15
      else t.reg R.JRN.ARCHIVED = v ∧ (s.jstate ≠ 5 → t.jstate = s.jstate)))

/-- R454–R457, R460–R463, R465–R468, R472, R476: a cartridge is found, identified and powered off; a recovery scan ends clean, in BREAK or
in CONFLICT, and intake opens with the journal it found; a rollover goes from the old cartridge to the standby; stripes ahead
of the write point are erased. -/
def Obligations.JournalSlots : Prop :=
  ∀ (s : State) (r : Requester) (k : Fin 2) (c : Cartridge) (cart : Option Cartridge) (how : IdentOutcome) (best : Option Nat)
    (cause st : Nat) (f0 f1 : Bool),
    let x := s.jslot k.val
    let p := pgCrt k
    let o := 1 - k.val
    let cst := s.crtState k.val
    let top := best.bind (fun w => topImage (s.slotImages w))
    (s.live pgJRN = true → s.jstate = 1 → s.jr.scanned = none → s.scanSlots ≠ [] →
      Does .recoveryScan s (fun t => if s.scanSlots.any (fun w => (s.chainBreak w).isSome) then
          t.get F.JRN.SCAN.RESULT = 3 ∧ t.jstate = 3 ∧ t.jr.scanned = none
        else if s.mirror && s.scanSlots.length == 2 && s.mirrorConflict.isSome then
          t.get F.JRN.SCAN.RESULT = 4 ∧ t.jstate = 3 ∧ t.jr.scanned = none
        else t.jstate = 1 ∧ t.jr.scanned = some (s.bestSlot s.scanSlots) ∧
          t.get F.JRN.SCAN.RESULT = if s.scanSlots.any (fun w => (topImage (s.slotImages w)).isSome) then 1 else 2)) ∧
    (s.live pgJRN = true → s.jstate = 1 → s.jr.scanned = some best → s.jr.carry = none →
      Does .scanComplete s (fun t =>
        (s.mirror = true ∧ best.isSome = true ∧ (s.scanOpens best).length = 2 ∧ t.jr.scanned = some best ∧ t.jstate = 5) ∨
        (t.jr.scanned = none ∧ (t.jstate = 2 ∨ t.jstate = 5) ∧
          (top = none → t.jr.prevHash = List.replicate 32 0#8 ∧ t.get F.JRN.COMMIT_BATCH.BATCH = 0 ∧ t.get F.JRN.NEXT_BATCH.BATCH = 1) ∧
          ∀ im, top = some im → t.get F.JRN.COMMIT_BATCH.BATCH = im.number ∧
            t.get F.JRN.NEXT_BATCH.BATCH = (im.number + 1) % 2 ^ 40 ∧ t.jr.prevHash = im.hash ∧
            ∀ d : Fin 8, t.get (F.JRN.PSN_MAX.PSN d.val) = tf im.trailer (37 + 5 * d.val) 5))) ∧
    (s.writable r R.JRN.CTRL = true →
      (reqWarden r = true → s.jstate = 3 → Does (.accept r k) s (fun t => t.jstate = 1 ∧ t.jr.scanned.isSome = true ∧
        ((s.jslot o).cart.isSome = true → t.crtState o = 7) ∧ (t.jslot k.val).cart = x.cart)) ∧
      (s.writers = [k.val] → s.jstate = 2 → s.crtState o = 3 → s.mirror = false → s.jr.roll = none →
        Does (.roll r) s (fun t => t.jr.roll = some (0, k.val) ∧ t.crtState k.val = 5 ∧ t.flag F.JRN.CTRL.ROLL = true ∧
          (∀ b ∈ s.jr.batch, b.close = none → 0 < b.count → t.jr.batch.map (·.close) = some (some 6))))) ∧
    (s.live pgJRN = true → s.jr.roll = some (cause, k.val) → (cause = 0 → s.jr.batch = none) → (cst = 4 ∨ cst = 5) →
      Does .rolloverEnd s (fun t => t.jr.roll = none ∧ t.crtState k.val = 6 ∧ (s.crtState o = 3 → t.crtState o = 4) ∧
        (s.jstate = 2 → s.flushing = false → s.crtState o ∉ [3, 4, 5] → t.jstate = 4))) ∧
    (s.live pgJRN = true → s.jstate ≠ 6 → cst = 4 → x.cart = some c → x.erasing = none → s.pointBlocked k.val = false →
      (let ahead := (if x.wpos = 0 then [x.wstripe] else []) ++ aheadOf c x.passed (s.get F.JRN.ERASE_AHEAD.STRIPES) x.wstripe
       let may (u : Nat) : Bool := (!(c.inStripe u).isEmpty || x.torn == some u) &&
        c.erasable s.journalId (s.get F.JRN.ARCHIVED.BATCH) (s.flag (F.CRT.CTRL.WIPE_OK p)) u
       Does (.stripeErase k) s (fun t => ((t.jslot k.val).erasing.isSome = ahead.any may) ∧
        ∀ u ∈ (t.jslot k.val).erasing, u ∈ ahead ∧ may u = true))) ∧
    (s.stopped = false → x.cart = some c → x.erasing = some st →
      (let n := (goodCs c x.passed st).length
       Does (.eraseDone k f0 f1) s (fun t => (t.jslot k.val).erasing = none ∧
        t.get (F.CRT.ERASES.COUNT p) = ((s.lifeCopy c.id).1 + n) % 2 ^ 40 ∧
        ∃ d ∈ (t.jslot k.val).cart, d.erases = max (c.erases + n) ((s.lifeCopy c.id).1 + n) ∧
          (∀ q ∈ d.pages, q.1 / 2048 ≠ st) ∧ (∀ q ∈ c.pages, q.1 / 2048 ≠ st → q ∈ d.pages)))) ∧
    (s.journalRuns = true → s.flag (F.CRT.STATUS.PRESENT p) = !cart.isSome →
      Does (.presenceDebounced k cart) s (fun t => t.flag (F.CRT.STATUS.PRESENT p) = cart.isSome ∧
        if cart.isSome then t.crtState k.val = 1 ∧ (x.cart = none → (t.jslot k.val).cart = cart)
        else (t.jslot k.val).cart = none ∧ t.flag (F.CRT.CTRL.WIPE_OK p) = false ∧
          t.crtState k.val = if s.flag (F.CRT.STATUS.LATCHED p) then 7 else 0)) ∧
    (s.live pgJRN = true → cst = 1 → x.cart = some c → s.flag F.SEC.RNG_STATUS.READY = true →
      (let why := identReason (s.pubOf 63) c how
       Does (.cartridgeIdentify k how) s (fun t => t.flag (F.CRT.CTRL.IDENTIFY p) = false ∧ t.get (F.CRT.STATUS.REASON p) = why ∧
        if why ≠ 0 then t.crtState k.val = 2 else
        t.get (F.CRT.ID.ID p) = c.id.toNat % 2 ^ 40 ∧ t.get (F.CRT.GEOMETRY.P p) = c.ppb ∧
        if c.closed then t.crtState k.val = 6 else if s.jstate = 4 then (t.crtState k.val = 4 ∨ t.crtState k.val = 5)
        else if s.mirror then (t.crtState k.val = 3 ∨ t.crtState k.val = 4) else t.crtState k.val = 3))) ∧
    (s.writable r (R.CRT.CTRL p) = true →
      (s.flag (F.CRT.CTRL.IDENTIFY p) = false → Does (.identify r k) s (fun t =>
        if cst = 3 ∨ cst = 2 ∨ cst = 6 ∨ cst = 0 ∧ s.flag (F.CRT.STATUS.PRESENT p) = true then
          t.crtState k.val = 1 ∧ t.flag (F.CRT.CTRL.IDENTIFY p) = true
        else t.crtState k.val = cst ∧ s.pageErrs t p 0x10)) ∧
      Does (.powerOff r k) s (fun t => if cst = 3 ∨ cst = 6 ∨ cst = 2 then t.crtState k.val = 0 ∧ t.flag (F.CRT.STATUS.LATCHED p) = false
        else t.crtState k.val = cst ∧ s.pageErrs t p 0x10) ∧
      Does (.wipeOk r k) s (fun t => if reqWarden r then t.flag (F.CRT.CTRL.WIPE_OK p) = true else
        t.flag (F.CRT.CTRL.WIPE_OK p) = s.flag (F.CRT.CTRL.WIPE_OK p) ∧ s.pageErrs t p 0x11))

/-! ### Weigh channels -/

/-- R485, R487–R493, R497, R513: a weighing command acts on a stable weight, waits for one, or ends with the RESULT of its refusal; a check
is armed, cancelled or times out; a channel is enabled once its rate, clock and seal line fit, and disabled. -/
def Obligations.WeighCommands : Prop :=
  ∀ (s : State) (r : Requester) (ch : Fin 64) (v : Word),
    let p := pgCh ch.val
    let w := s.wc ch.val
    let x := s.committed ch.val
    let g := s.grossBin ch.val
    let off := g + s.sreg (R.CH.ZERO_OFF p)
    let e1 := x.e 0
    let max1 := x.max 0
    let stable := s.flag (F.CH.CH_STATUS.STABLE p)
    let preset := (s.reg (R.CH.PRESET_TARE p)).toNat
    let result (t : State) (n : Nat) : Prop := t.get (F.CH.CMD_STATUS.RESULT p) = n
    let ends (t : State) (n : Nat) : Prop := result t n ∧ t.flag (F.CH.CMD_STATUS.BUSY p) = false ∧ (t.wc ch.val).wait = none
    let same (t : State) : Prop := t.grossBin ch.val = g ∧ (t.wc ch.val).tare = w.tare ∧ t.get (F.CH.SEQ.SEQ p) = s.get (F.CH.SEQ.SEQ p)
    let waits (t : State) (c : Nat) : Prop := t.flag (F.CH.CMD_STATUS.BUSY p) = true ∧ (t.wc ch.val).wait = some c ∧ same t
    let made (t : State) (n : Nat) : Prop := t.get (F.CH.SEQ.SEQ p) = (s.get (F.CH.SEQ.SEQ p) + n) % 2 ^ 24
    let taring (t : State) (n : Int) : Prop := (t.wc ch.val).tare = n ∧ t.reg (R.CH.TARE_DISP p) = BitVec.ofNat 40 (decOf 10 n) ∧
      t.flag (F.CH.CH_STATUS.NET p) = (n != 0)
    let past (t : State) (code : Nat) : Prop := (t.wc ch.val).chk = none ∧ t.get (F.CH.CHK_STATUS.STATE p) = 0 ∧
      t.get (F.CH.CHK_STATUS.LAST p) = code ∧ (∀ k ∈ w.chk, t.get (F.CH.CHK_STATUS.LAST_TAG p) = k.tag % 2 ^ 16)
    (s.writable r (R.CH.CMD p) = true →
      (w.wait.isSome = true → Does (.zero r ch) s (fun t => result t 1 ∧ (t.wc ch.val).wait = w.wait ∧ same t)) ∧
      (w.wait = none → s.chState ch.val ≠ 2 → Does (.tare r ch) s (fun t => ends t 6 ∧ same t)) ∧
      (w.wait = none → s.chState ch.val = 2 →
        Does (.zero r ch) s (fun t => if stable = false then waits t 0 else if w.tare ≠ 0 then ends t 4 ∧ same t else
          if 65536 * x.maxTop < 50 * off.natAbs then ends t 3 ∧ same t else
            ends t 0 ∧ made t (1 + b2n w.chk.isSome) ∧ t.grossBin ch.val = 0 ∧ t.reg (R.CH.ZERO_OFF p) = BitVec.ofInt 40 off) ∧
        Does (.tare r ch) s (fun t => if stable = false then waits t 1 else
          if g ≤ 0 ∨ (max1 : Int) < x.rounded g then ends t 3 ∧ same t else ends t 0 ∧ made t 1 ∧ taring t (roundTo e1 g)) ∧
        Does (.snap r ch) s (fun t => if stable = false then waits t 4 else ends t 0 ∧ made t 1 ∧ t.grossBin ch.val = g ∧
          (t.wc ch.val).tare = w.tare) ∧
        Does (.tareClr r ch) s (fun t => ends t 0 ∧ taring t 0 ∧ t.grossBin ch.val = g) ∧
        Does (.tarePreset r ch) s (fun t =>
          if bcdOk 10 preset = true ∧ 0 < decVal 10 preset ∧ decVal 10 preset ≤ (max1 : Int) ∧ (decVal 10 preset).natAbs % e1 = 0 then
            ends t 0 ∧ taring t (decVal 10 preset) ∧ (t.wc ch.val).preset = true
          else ends t 7 ∧ same t))) ∧
    (s.wghRuns = true →
      (w.wait.isSome = true → Does (.cmdWaitExpiry ch) s (fun t => same t ∧
        ends t (if s.flag (F.CH.CH_STATUS.OVERLOAD p) || s.flag (F.CH.CH_STATUS.UNDERLOAD p) then 5 else 2))) ∧
      (w.chk.isSome = true → Does (.checkTimeout ch) s (fun t => past t 3))) ∧
    (s.writable r (R.CH.CHK_CTRL p) = true →
      (getF (s.reg (R.CH.CHK_CTRL p)) 18 12 ≠ 0 → bcdOk 10 (s.reg (R.CH.CHK_EXPECT p)).toNat = true →
        bcdOk 10 (s.reg (R.CH.CHK_TOL p)).toNat = true →
        Does (.arm r ch) s (fun t => if s.chState ch.val ≠ 2 then (t.wc ch.val).chk = none ∧ t.get (F.CH.CHK_STATUS.LAST p) = 4 else
          t.get (F.CH.CHK_STATUS.STATE p) = (if stable then 2 else 1) ∧
          ∃ k ∈ (t.wc ch.val).chk, k.tag = s.get (F.CH.CHK_CTRL.TAG p) ∧ k.expect = decVal 10 (s.reg (R.CH.CHK_EXPECT p)).toNat ∧
            k.tol = decVal 10 (s.reg (R.CH.CHK_TOL p)).toNat ∧ k.ref = if stable then some (x.rounded g) else none)) ∧
      (w.chk.isSome = true → Does (.cancel r ch) s (fun t => past t 5))) ∧
    (s.writable r (R.CH.CH_CTRL p) = true → 1 ≤ getF v 10 6 → getF v 10 6 ≤ 50 →
      (let was := s.flag (F.CH.CH_CTRL.ENABLE p)
       Does (.chEnable r ch v) s (fun t =>
        if v.getLsbD 0 = true ∧ was = false then
          if s.enableOk ch.val = false then s.pageErrs t p 0x12 ∧ t.reg (R.CH.CH_CTRL p) = s.reg (R.CH.CH_CTRL p) else
          if (s.claimLine ch.val).1 = false then s.pageErrs t p 0x14 ∧ t.reg (R.CH.CH_CTRL p) = s.reg (R.CH.CH_CTRL p) else
            t.reg (R.CH.CH_CTRL p) = v &&& 0xFFFF ∧ (t.wc ch.val).tare = 0 ∧
            t.chState ch.val = if s.flag (F.CH.SEAL_STATUS.CAL_VALID p) then 1 else 4
        else t.reg (R.CH.CH_CTRL p) = v &&& 0xFFFF ∧
          if v.getLsbD 0 = false ∧ was = true then t.chState ch.val = 0 ∧ t.reg (R.CH.CH_STATUS p) = 0 else same t))) ∧
    (s.writable r R.WGH.CLK_CFG = true → Does (.clkCfgWrite r v) s (fun t =>
      if s.clkInUse v then t.reg R.WGH.CLK_CFG = s.reg R.WGH.CLK_CFG ∧ s.pageErrs t pgWGH 0x10
      else t.reg R.WGH.CLK_CFG = v &&& 0xFFFFFF#40))

/-- R480, R483, R495, R501–R510: a collector period filters its bits and commits at its end; a seal is opened by a warden and closes by
command, by time and by its line; while it is open the sealed set is staged, calibrated, committed or discarded; the filter governor
and a write change K and MOTION_WIN within their bounds. -/
def Obligations.WeighSeal : Prop :=
  ∀ (s : State) (r : Requester) (ch : Fin 64) (secs : BitVec 12) (n : Fin 192) (reg : Fin 11) (v : Word) (b win : Bool)
    (k mw : Nat),
    let p := pgCh ch.val
    let w := s.wc ch.val
    let x := s.committed ch.val
    let stg := s.stagedSet ch.val
    let isOpen := s.sealOpen ch.val
    let closed (t : State) : Prop := t.sealOpen ch.val = false ∧ t.get (F.CH.SEAL_STATUS.LEFT p) = 0 ∧ (t.wc ch.val).staged = none ∧
      t.committed ch.val = x ∧ t.chState ch.val = if s.chState ch.val = 4 then 0 else s.chState ch.val
    let result (t : State) (q : Nat) : Prop := t.get (F.CH.SEAL_STATUS.RESULT p) = q
    let steady := w.hist.take (s.get (F.CH.MOTION_WIN.MW p))
    let still := decide (steady.length = s.get (F.CH.MOTION_WIN.MW p) ∧ steady ≠ [] ∧ spread (steady.map (·.raw)) ≤ 2 ^ 19)
    let raw := s.reg (R.CH.RAW p)
    let why := if isOpen = false ∨ x.line.getLsbD 9 = true ∧ s.lineAsserted x = false then 1
      else if 2 ^ 24 - 1 ≤ s.get (F.CH.AUDIT.COUNT p) then 2 else if s.protFree = false then 3 else if stg.valuesOk = false then 4
      else if stg.tapsOk = false then 5 else 0
    (s.wghRuns = true → s.weigh = [(ch.val, w)] → w.heldW = none → w.heldV = none → w.fresh = [] →
      (w.commit = false → s.chState ch.val ≠ 0 → s.flag (F.WGH.CLK_CFG.EN (getF x.decim 0 3)) = true →
        s.flag (F.CH.CH_STATUS.MODFAULT p) = false → w.eqRun < 4095 → w.nbits + 1 < x.dec →
        Does (.collectorPeriod [(ch.val, [b])]) s (fun t => t.wgSec = s.tbSec ∧ t.wgNs = s.tbNs ∧
          (let i := (t.wc ch.val).integ
           i[0] = w.integ[0] + (if b then 1 else -1) ∧ i[1] = w.integ[1] + i[0] ∧ i[2] = w.integ[2] + i[1] ∧ i[3] = w.integ[3] + i[2]) ∧
          (t.wc ch.val).nbits = w.nbits + 1 ∧ (t.wc ch.val).comb = w.comb ∧ t.grossBin ch.val = s.grossBin ch.val)) ∧
      (w.commit = true → Does (.collectorPeriod []) s (fun t => result t why ∧ (t.wc ch.val).commit = false ∧
        if why = 0 then t.committed ch.val = stg ∧ (t.wc ch.val).staged = none ∧ t.get (F.CH.AUDIT.COUNT p) = s.get (F.CH.AUDIT.COUNT p) + 1
        else t.committed ch.val = x ∧ t.get (F.CH.AUDIT.COUNT p) = s.get (F.CH.AUDIT.COUNT p)))) ∧
    (s.writable r R.WGH.SEAL_OPEN = true →
      Does (.sealOpen r ch secs) s (fun t => if reqWarden r = false then s.pageErrs t pgWGH 0x11 ∧ t.sealOpen ch.val = isOpen else
        if secs = 0 ∨ 3600 < secs.toNat then s.pageErrs t pgWGH 0x13 ∧ t.sealOpen ch.val = isOpen else
        if (s.claimLine ch.val).1 = false ∨ x.line.getLsbD 9 = true ∧ s.lineAsserted x = false then
          s.pageErrs t pgWGH 0x12 ∧ t.sealOpen ch.val = isOpen
        else t.sealOpen ch.val = true ∧ t.get (F.CH.SEAL_STATUS.LEFT p) = secs.toNat ∧ t.committed ch.val = x) ∧
      (reqWarden r = true → isOpen = true → Does (.sealClose r ch) s closed)) ∧
    (s.wghRuns = true → isOpen = true → Does (.sealWindowExpiry ch) s closed) ∧
    (isOpen = true → (List.range 64).find? (fun d => (s.committed d).line.getLsbD 9 && getF (s.committed d).line 0 8 == n.val) = some ch.val →
      Does (.sealLineDeassert n) s (fun t => t.sealOpen ch.val = false ∧ t.lineAsserted x = false ∧ t.committed ch.val = x)) ∧
    (s.writable r (R.CH.SEAL_CTRL p) = true →
      Does (.commit r ch) s (fun t => t.committed ch.val = x ∧ (t.wc ch.val).commit = (w.commit || why == 0) ∧
        (w.commit = false → (t.wc ch.val).cal = none ∧ (why = 0 → w.cal.isSome = true → result t 7) ∧ (why ≠ 0 → result t why))) ∧
      (isOpen = true → Does (.sealDiscard r ch) s (fun t => t.stagedSet ch.val = x ∧ t.flag (F.CH.SEAL_STATUS.STAGED p) = false)) ∧
      (isOpen = true → w.cal = none →
        Does (.calZero r ch) s (fun t => if still then result t 0 ∧ (t.stagedSet ch.val).regs = stg.regs.set 1 raw
          else (t.wc ch.val).cal = some false ∧ t.flag (F.CH.SEAL_CTRL.CAL_ZERO p) = true ∧ t.stagedSet ch.val = stg) ∧
        Does (.calSpan r ch) s (fun t => if still then
          (let d := (raw.toInt - stg.regs[1].toInt).toNat
           let f := (2 * (getF stg.regs[8] 0 24 * 2 ^ 48) + d) / (2 * d)
           if d = 0 ∨ f = 0 ∨ 2 ^ 40 ≤ f then result t 4 ∧ t.stagedSet ch.val = stg
           else result t 0 ∧ (t.stagedSet ch.val).regs = stg.regs.set 2 (BitVec.ofNat 40 f))
          else (t.wc ch.val).cal = some true ∧ t.flag (F.CH.SEAL_CTRL.CAL_SPAN p) = true ∧ t.stagedSet ch.val = stg))) ∧
    (let held := v &&& match reg.val with | 0 => 0x3FF#40 | 6 => 0x3FFFFFFFF#40 | 7 => 0x3FFFFF#40 | 10 => 0xFFFFFF#40 | _ => 0xFFFFFFFFFF#40
     s.writable r (p + sealedReg reg) = true → Does (.sealedRegisterWrite r ch reg v) s (fun t => t.committed ch.val = x ∧
      if isOpen = false then s.pageErrs t p 0x10 ∧ t.stagedSet ch.val = stg
      else if reg = 8 then t.reg (R.CH.FIR_INDEX p) = v &&& 0x3F#40 ∧ t.stagedSet ch.val = stg
      else if reg = 9 then t.stagedSet ch.val = { stg with taps := stg.taps.setIfInBounds (s.get (F.CH.FIR_INDEX.TAP p)) (v.extractLsb' 0 24) } ∧
        t.get (F.CH.FIR_INDEX.TAP p) = (s.get (F.CH.FIR_INDEX.TAP p) + 1) % 64
      else t.stagedSet ch.val = { stg with regs := stg.regs.setIfInBounds (if reg = 10 then 8 else reg.val) held })) ∧
    (s.wghRuns = true → s.enabled pgGFIL = true → s.filterWish ch.val = some (k, mw) → k < 16 → mw < 256 →
      (let gm := s.get (F.GALL.GCTRL.MODE pgGFIL)
       let here (t : State) (a c : Nat) : Prop := t.get (F.CH.IIR_K.K p) = a ∧ t.get (F.CH.MOTION_WIN.MW p) = c
       Does (.filterAdjust ch) s (fun t => if gm = 1 then here t k mw else
        here t (s.get (F.CH.IIR_K.K p)) (s.get (F.CH.MOTION_WIN.MW p)) ∧
        (gm = 2 → t.reg (R.CH.FGOV_SUGGEST p) = BitVec.ofNat 40 (k + 16 * mw + 4096))))) ∧
    (s.writable r (if win then R.CH.MOTION_WIN p else R.CH.IIR_K p) = true → Does (.iirKWrite r ch win v) s (fun t =>
      let f := if win then getF v 0 8 else getF v 0 4
      let old (q : State) : Nat := if win then q.get (F.CH.MOTION_WIN.MW p) else q.get (F.CH.IIR_K.K p)
      if (if win then x.mwMin else x.kMin) ≤ f ∧ f ≤ (if win then x.mwMax else x.kMax) then old t = f
      else old t = old s ∧ s.pageErrs t p 0x13))

/-! ### Lane I/O -/

/-- R519–R525, R528, R529, R533, R535, R544–R547: claims and releases of lines, timers and quotas; the registers of a port, a profile, an
area, a line and a timer, which only their owner or a warden writes, with the code of each refusal; a line's condition; a timer's
end and its capture. -/
def Obligations.LaneOwners : Prop :=
  ∀ (s : State) (r : Requester) (v : Word) (b : Fin 112) (x : Fin 72) (pf : Fin 64) (ar : Fin 32) (p k : Fin 16) (n : Fin 192) (q : Fin 12)
    (tm : Fin 64) (lvl : Bool) (count : Word),
    let me := ownerId r
    let kind := getF v 0 2
    let i := getF v 2 8
    let units := getF v 11 12
    let o := s.claimOf kind i
    let mine := o.held && o.owner == me
    let exists_ := decide (kind ≠ 3 ∧ i < (if kind = 0 then 192 else if kind = 1 then 64 else 72))
    let claimed (t : State) (st : Nat) (u : OwnRec) : Prop := tabGet 0 t.claimRes me = st ∧ t.claimOf kind i = u ∧
      ∀ d, d ≠ 256 * kind + i → tabGet OwnRec.free t.own d = tabGet OwnRec.free s.own d
    let owns (a kd j : Nat) : Prop := s.writable r a = true ∧
      (reqWarden r = true ∨ (s.claimOf kd j).held = true ∧ (s.claimOf kd j).owner = me)
    let no (t : State) (a code : Nat) : Prop := t.reg a = s.reg a ∧ s.pageErrs t (pageBase a) code
    let en := putF v 13 1 1
    let prof := s.profile (getF v 14 6)
    let quota (j : Nat) := (s.claimOf 2 j).units
    let noArea := v.getLsbD 20 && !s.flag (F.LIO.AREA_BASE.VALID (getF v 21 5))
    (s.writable r R.OWN.CLAIM = true →
      (let st := if exists_ = false then 6 else if o.held = true ∧ mine = false then kind + 1
        else if kind = 2 ∧ (s.freeUnits + o.units < units ∨ units < s.usedUnits i) then 3 else 0
       Does (.claim r v) s (fun t =>
        claimed t st (if st = 0 then { held := true, owner := me, units := if kind = 2 then units else 0 } else o))) ∧
      (let st := if exists_ = false then 6 else if reqWarden r = false ∧ mine = false then 4
        else if kind = 2 ∧ s.portActive i = true then 5 else 0
       Does (.release r v) s (fun t => claimed t st (if st = 0 then OwnRec.free else o)))) ∧
    (let a := bindAddr (256 + b.val)
     let j := bindPort (256 + b.val)
     (s.writable r a = true → reqWarden r = false → (s.claimOf 2 j).owner ≠ me →
      Does (.bindEnable r b v) s (fun t => no t a (if (s.claimOf 2 j).held then 0x10 else 0x11))) ∧
     (owns a 2 j → Does (.bindEnable r b v) s (fun t =>
      if quota j = 0 ∨ b.val < 48 ∧ (1024 * quota j < getF prof.limits 0 13 ∨ getF prof.frame 0 3 = 4) ∨ noArea = true then no t a 0x12
      else t.flag ⟨a, 13, 1⟩ = true ∧ t.get ⟨a, 0, 13⟩ = getF v 0 13 ∧ t.get ⟨a, 14, 6⟩ = getF v 14 6))) ∧
    (let a := txqAddr x.val
     owns a 2 x.val → Does (.txqEnable r x v) s (fun t =>
      if s.txTest (if x.val < 16 then 312 + x.val else 240 + x.val) (getF v 0 13) then t.flag ⟨a, 13, 1⟩ = true ∧ t.get ⟨a, 0, 13⟩ = getF v 0 13
      else no t a 0x14)) ∧
    (let a := R.PROFP.FRAME (pgProf pf.val) (pf.val % 16)
     let old := s.profile pf.val
     s.writable r a = true → Does (.profileValid r pf v) s (fun t =>
      if old.valid = true ∧ v.getLsbD 24 = true then no t a 0x16 else if v.getLsbD 24 = true ∧ ({ old with frame := v } : Prof).ok = false then no t a 0x13
      else (t.profile pf.val).valid = v.getLsbD 24 ∧ (t.profile pf.val).ends = getF v 0 3 ∧ (t.profile pf.val).limits = old.limits)) ∧
    (let a := R.LIO.AREA_BASE ar.val
     let slots := 2 ^ ((s.queue (s.get (F.LIO.AREA_QUEUE.QUEUE ar.val))).depth + 1)
     s.writable r a = true → s.flag (F.LIO.AREA_BASE.VALID ar.val) = false → Does (.areaValid r ar v) s (fun t =>
      if 6 < getF v 0 3 then no t a 0x13 else if s.dramEnd < 4096 * getF v 12 28 + slots * 64 * 2 ^ getF v 0 3 then no t a 0x12
      else t.flag (F.LIO.AREA_BASE.VALID ar.val) = true ∧ t.get (F.LIO.AREA_BASE.BASE ar.val) = getF v 12 28)) ∧
    (let g := pgUsb p.val
     let j := p.val % 4
     let c := 16 * p.val + k.val
     let a := R.USBP.PIPE_BIND g j k.val
     let type := s.get (F.USBP.PIPE_CFG.TYPE g j k.val)
     let load := s.periodic c en
     (owns (R.USBP.PORT_CTRL g j) 2 p.val → Does (.portReset r p) s (fun t => t.flag (F.USBP.PORT_CTRL.RESET g j) = true ∧
      t.flag (F.USBP.PORT_STATUS.ENABLED g j) = false)) ∧
     (owns a 2 p.val → Does (.pipeEnable r p k v) s (fun t =>
      if type = 3 ∨ type = 2 ∧ (6000 < load.1 ∨ 1350 < load.2) then no t a 0x15
      else if s.pipeOut c = true ∧ s.txTest c (getF v 0 13) = false then no t a 0x14
      else if quota p.val = 0 ∨ type ≠ 0 ∧ 1024 * quota p.val < getF prof.limits 0 13 ∨ noArea = true then no t a 0x12
      else t.flag ⟨a, 13, 1⟩ = true ∧ t.get ⟨a, 0, 13⟩ = getF v 0 13 ∧
        (s.flag ⟨a, 13, 1⟩ = false → t.flag ⟨a, 28, 1⟩ = false ∧ tabGet false t.usbTog c = false)))) ∧
    (let a := R.GPIO.GP n.val
     owns a 0 n.val → Does (.gpWrite r n v) s (fun t => if 6 ≤ getF v 0 3 ∨ 6 ≤ getF v 5 3 ∨ getF v 14 2 = 3 then no t a 0x13
      else t.get (F.GPIO.GP.FUNC n.val) = (if s.flag (F.GPIO.GP_BANK.FAULT (n.val / 16)) then 0 else getF v 0 3) ∧
        t.get (F.GPIO.GP.COND n.val) = getF v 5 3)) ∧
    (let a := R.TIMER.TM_CFG tm.val
     let mode := getF v 0 3
     owns a 1 tm.val → Does (.go r tm v) s (fun t => if mode = 7 ∨ 192 ≤ getF v 3 8 then no t a 0x13
      else if mode ≠ 0 ∧ s.timerOk tm.val (putF v 14 1 1) = false then no t a 0x12
      else t.flag (F.TIMER.TM_CFG.GO tm.val) = (mode != 0) ∧ t.get (F.TIMER.TM_CFG.MODE tm.val) = mode ∧
        t.timerOut tm.val = (mode == 1 || mode == 3 && s.get (F.TIMER.TM_MATCH.COUNT tm.val) != 0))) ∧
    (let cond := s.get (F.GPIO.GP.COND n.val)
     s.lioRuns = true → s.get (F.GPIO.GP.FUNC n.val) ≠ 0 → Does (.gpCondition n lvl) s (fun t => t.flag (F.GPIO.GP.IN n.val) = lvl ∧
      t.flag (F.GPIO.GP.FLAG n.val) = (s.flag (F.GPIO.GP.FLAG n.val) || cond == 1 && lvl || cond == 2 && !lvl ||
        s.flag (F.GPIO.GP.IN n.val) != lvl && (cond == 3 && lvl || cond == 4 && !lvl || cond == 5)))) ∧
    Does (.bankSupplyFault q) s (fun t => t.flag (F.GPIO.GP_BANK.FAULT q.val) = true ∧
      (∀ l : Fin 192, t.get (F.GPIO.GP.FUNC l.val) = if l.val / 16 = q.val then 0 else s.get (F.GPIO.GP.FUNC l.val))) ∧
    (s.lioRuns = true → s.flag (F.TIMER.TM_CFG.GO tm.val) = true →
      (let mode := s.get (F.TIMER.TM_CFG.MODE tm.val)
       let raised (t : State) : Prop := t.flag (if tm.val < 40 then ⟨R.TIMER.TM_FLAG0, tm.val, 1⟩ else ⟨R.TIMER.TM_FLAG1, tm.val - 40, 1⟩) = true
       let out (t : State) : Bool := t.timerOut tm.val
       (1 ≤ mode ∧ mode ≤ 3 → Does (.timerWrap tm) s (fun t => raised t ∧ t.flag (F.TIMER.TM_CFG.GO tm.val) = (mode != 1) ∧
        out t = if mode = 1 then false else if mode = 2 then !out s else s.get (F.TIMER.TM_MATCH.COUNT tm.val) != 0)) ∧
       (mode = 6 ∨ mode = (if lvl then 4 else 5) → Does (.timerCapture tm lvl count) s (fun t => raised t ∧
        t.get (F.TIMER.TM_MATCH.COUNT tm.val) = count.toNat % 2 ^ 40))))

/-- R525–R527, R530–R543, R551: a framer takes bytes and ends a frame, whose body is delivered or dropped with its reason; a path takes its
next element when its quota has room and sends the frame its profile makes; USB ports, pipes and control requests, UART breaks and
CTS, and CAN frames and error counts. -/
def Obligations.LaneTraffic : Prop :=
  ∀ (s : State) (b : Fin 304) (y : Byte) (bind : Word) (m : RxMsg) (body suf pl : List Byte) (x : Fin 312) (n : Nat) (e f : List Byte)
    (how : UsbOut) (u : Fin 48) (lvl : Bool) (p k : Fin 16) (speed : BitVec 2) (data : List Byte) (co : CtlOut) (ca : Fin 8) (fr : CanFrame)
    (by8 : Bool) (hit : Fin 8),
    let fm := s.framer b.val
    let reg := s.reg (bindAddr b.val)
    let stat (t : State) (c w : Nat) : Nat := t.get ⟨statsAddr c, 8 * (w - 1), 8⟩
    let dropped (t : State) (c w : Nat) : Prop := stat t c w = (stat s c w + 1) % 256 ∧ t.ready = s.ready
    let fits (c : Word) (l : Nat) : Bool := decide (l ≤ if c.getLsbD 20 then 64 * 2 ^ s.get (F.LIO.AREA_BASE.SIZE (getF c 21 5)) else 56)
    let room (port l : Nat) : Bool := decide (s.usedBytes port + (l + 63) / 64 * 64 ≤ 1024 * (s.claimOf 2 port).units)
    let g := pgUsb p.val
    let j := p.val % 4
    let c := 16 * p.val + k.val
    let pb := bindAddr c
    let halted (t : State) : Prop := t.flag ⟨pb, 28, 1⟩ = true ∧ t.flag ⟨pb, 13, 1⟩ = false
    let tec := s.get (F.CANP.CAN_STATUS.TEC ca.val)
    let rec_ := s.get (F.CANP.CAN_STATUS.REC ca.val)
    let cst (t : State) : Nat := t.get (F.CANP.CAN_STATUS.STATE ca.val)
    (s.portRuns (bindPort b.val) = true →
      (fm.phase = 0 → reg.getLsbD 13 = true → (s.profile (getF reg 14 6)).valid = true → 1 < (s.profile (getF reg 14 6)).prefixBytes.length →
        Does (.rxMessage b [y] .more) s (fun t => (t.framer b.val).phase = if (s.profile (getF reg 14 6)).prefixBytes.head? = some y then 1 else 0)) ∧
      (fm.phase = 2 → fm.dead = false → fm.prof.ends = 2 → fm.len = none → s.usedBytes (bindPort b.val) + 64 ≤ 1024 * (s.claimOf 2 (bindPort b.val)).units →
        Does (.rxMessage b [y] .more) s (fun t => (t.framer b.val).buf = fm.buf ++ [y] ∧ (t.framer b.val).phase = 2 ∧ t.ready = s.ready))) ∧
    (s.lioRuns = true → fm.phase = 2 → fm.dead = false → fm.prof.ends = 2 → fm.prof.ito ≠ 0 → fm.bind = bind →
      fm.buf = body ++ pl ++ suf → suf.length = fm.prof.nsuf → pl.length = fm.prof.checkLen → body ≠ [] → body.length ≤ fm.prof.maxlen →
      fm.prof.cstart ≤ body.length →
      (let out := (if fm.prof.frame.getLsbD 21 then fm.prof.prefixBytes else []) ++ body ++ (if fm.prof.frame.getLsbD 22 then pl else []) ++
        (if fm.prof.frame.getLsbD 23 then suf else [])
       Does (.itoExpiry b) s (fun t => (t.framer b.val).phase = 0 ∧
        if pl ≠ fm.prof.checkBytes body then dropped t b.val 3 else if fits bind out.length = false then dropped t b.val 4
        else t.ready.map (fun z => (z.b, z.bytes)) = s.ready.map (fun z => (z.b, z.bytes)) ++ [(b.val, out)]))) ∧
    (s.lioRuns = true → s.portTagFree = true → s.ready.head? = some m → m.bind.getLsbD 20 = false → Does .messageDeliver s (fun t => t.ready = s.ready.tail ∧ t.mem = s.mem ∧
      (t.qports[9].getLast?.map (fun o => (o.queue, o.type, o.src, o.payload))) = some (getF m.bind 0 13, 1, bindSrc m.b, m.bytes))) ∧
    (s.txQueue x.val = some n → s.portRuns (txPort x.val) = true → s.txProfile x.val = true → s.canSends x.val = true →
      tabGet [] s.txHeld x.val = [] → s.portTagFree = true → s.hwHead n = (some e, s) → s.chosenQueue 2 s.laneServes = some n →
      ((s.txBytes e).bind (s.framed x.val) = none → Does (.txElement x how) s (fun t => (t.queue n).head = (s.queue n).head + 1 ∧
        tabGet [] t.txHeld x.val = [] ∧ t.get ⟨txStats x.val, 32, 8⟩ = (s.get ⟨txStats x.val, 32, 8⟩ + 1) % 256)) ∧
      ((s.txBytes e).bind (s.framed x.val) = some f → f ≠ [] → room (txPort x.val) f.length = true →
        Does (.txElement x how) s (fun t => (t.queue n).head = (s.queue n).head + 1 ∧
          (let sent : Prop := tabGet [] t.wire x.val = f ∧ tabGet [] t.txHeld x.val = []
           let holds : Prop := tabGet [] t.txHeld x.val = f
           let stopped : Prop := t.flag ⟨bindAddr x.val, 28, 1⟩ = true ∧ tabGet [] t.txHeld x.val = []
           let ui := x.val - 256
           if x.val < 256 then (if how = .done then sent else if how = .stall ∨ 2 ≤ tabGet 0 s.usbErr x.val then stopped else
            holds ∧ tabGet 0 t.usbErr x.val = tabGet 0 s.usbErr x.val + 1)
           else if x.val < 304 ∧ (s.flag (F.UARTP.UA_MODE.RTSCTS (pgUart ui) (ui % 16)) = false ∨ s.flag (F.UARTP.UA_STATUS.CTS (pgUart ui) (ui % 16)) = true)
           then sent else holds)))) ∧
    (let uf := tabGet [] s.txHeld (256 + u.val)
     Does (.ctsChange u lvl) s (fun t => t.flag (F.UARTP.UA_STATUS.CTS (pgUart u.val) (u.val % 16)) = lvl ∧
      if s.portRuns (16 + u.val) = true ∧ uf ≠ [] ∧ lvl = true then tabGet [] t.wire (256 + u.val) = uf ∧ tabGet [] t.txHeld (256 + u.val) = []
      else (lvl = false → s.flag (F.UARTP.UA_MODE.RTSCTS (pgUart u.val) (u.val % 16)) = true → tabGet [] t.txHeld (256 + u.val) = uf))) ∧
    (s.portRuns (16 + u.val) = true → Does (.uartBreak u) s (fun t => (s.framer (256 + u.val)).phase = 2 → (t.framer (256 + u.val)).dead = true)) ∧
    (s.flag (F.USBP.PORT_CTRL.RESET g j) = true → Does (.portResetDone p speed) s (fun t =>
      t.flag (F.USBP.PORT_CTRL.RESET g j) = false ∧ t.flag (F.USBP.PORT_STATUS.ENABLED g j) = (s.flag (F.USBP.PORT_STATUS.CONNECT g j) && speed != 0) ∧
      (t.flag (F.USBP.PORT_STATUS.ENABLED g j) = true → t.get (F.USBP.PORT_STATUS.SPEED g j) = speed.toNat))) ∧
    Does (.usbDisconnect p) s (fun t => t.flag (F.USBP.PORT_STATUS.CONNECT g j) = false ∧ t.flag (F.USBP.PORT_STATUS.ENABLED g j) = false ∧
      (s.flag ⟨pb, 13, 1⟩ = true → halted t)) ∧
    (s.live pgLIO = true → s.refClk 3 = true → Does (.usbConnect p) s (fun t => t.flag (F.USBP.PORT_STATUS.CONNECT g j) = true)) ∧
    (s.portRuns p.val = true → s.flag ⟨pb, 13, 1⟩ = true → s.flag (F.USBP.PIPE_CFG.DIR g j k.val) = true →
      (s.get (F.USBP.PIPE_CFG.TYPE g j k.val) = 2 ∨ s.get (F.USBP.PIPE_CFG.TYPE g j k.val) = 1) →
      s.usedBytes p.val + s.get (F.USBP.PIPE_CFG.MPS g j k.val) ≤ 1024 * (s.claimOf 2 p.val).units →
      exec (.usbPoll p k .nak) s = .next s ∧ Does (.usbPoll p k .stall) s halted ∧
      Does (.usbPoll p k .error) s (fun t => if 2 ≤ tabGet 0 s.usbErr c then halted t else tabGet 0 t.usbErr c = tabGet 0 s.usbErr c + 1) ∧
      Does (.usbPoll p k (.data [] false)) s (fun t => tabGet false t.usbTog c = !tabGet false s.usbTog c ∧ tabGet 0 t.usbErr c = 0)) ∧
    (s.portRuns p.val = true → tabGet [] s.ctlReq p.val = pl → pl.head? = some (BitVec.ofNat 8 k.val) → co ≠ .pending → s.reg pb = bind →
      bind.getLsbD 20 = false →
      (let got := match co with
        | .ok d => if (pl.getD 1 0).getLsbD 7 then d.take (leVal ((pl.drop 7).take 2)) else []
        | _ => []
       let out := [BitVec.ofNat 8 k.val, match co with | .ok _ => 0 | .stall => 1 | _ => 2] ++ got
       Does (.controlRequest p co) s (fun t => tabGet [] t.ctlReq p.val = [] ∧
        if 46 < got.length then dropped t c 4
        else if 1024 * (s.claimOf 2 p.val).units < ({ s with ctlReq := tabDel s.ctlReq p.val } : State).usedBytes p.val + poolSize out.length then
          dropped t c 2
        else t.ready.map (fun z => (z.b, z.bytes)) = s.ready.map (fun z => (z.b, z.bytes)) ++ [(c, out)]))) ∧
    (s.portRuns (64 + ca.val) = true →
      Does (.canRxFrame ca (.error by8)) s (fun t => t.get (F.CANP.CAN_STATUS.REC ca.val) = min (rec_ + if by8 then 8 else 1) 255) ∧
      (let cb := 304 + 8 * ca.val + hit.val
       let mm := leBytes 4 (fr.id.toNat + 2 ^ 29 * b2n fr.ide + 2 ^ 30 * b2n fr.fdf + 2 ^ 31 * b2n fr.brs) ++
        leBytes 1 (fr.len.toNat + 128 * b2n fr.esi) ++ leBytes 1 (b2n fr.rtr) ++ [0, 0] ++ (if fr.rtr then [] else fr.data)
       let hits (q : Nat) : Bool := s.flag (F.CANP.FILT_ID.VALID ca.val q) && s.get (F.CANP.FILT_ID.IDE ca.val q) == b2n fr.ide &&
        ((fr.id ^^^ BitVec.ofNat 29 (s.get (F.CANP.FILT_ID.ID ca.val q))) &&& BitVec.ofNat 29 (s.get (F.CANP.FILT_MASK.MASK ca.val q))) == 0
       (fr.fdf = true → s.flag (F.CANP.CAN_CFG.FD ca.val) = true) → (List.range 8).find? hits = some hit.val → (s.reg (bindAddr cb)).getLsbD 13 = true →
        fits (s.reg (bindAddr cb)) mm.length = true → room (64 + ca.val) mm.length = true →
        Does (.canRxFrame ca (.frame fr)) s (fun t =>
          t.ready.map (fun z => (z.b, z.bytes)) = s.ready.map (fun z => (z.b, z.bytes)) ++ [(cb, mm)])) ∧
      (tabGet [] s.txHeld (304 + ca.val) = f → f ≠ [] →
        Does (.canTxFrame ca .sent) s (fun t => tabGet [] t.wire (304 + ca.val) = f ∧ tabGet [] t.txHeld (304 + ca.val) = [] ∧
          t.get (F.CANP.CAN_STATUS.TEC ca.val) = tec - 1) ∧
        exec (.canTxFrame ca .lost) s = .next s ∧
        Does (.canTxFrame ca .error) s (fun t => tabGet [] t.txHeld (304 + ca.val) = f ∧
          if 247 < tec then cst t = 2 else t.get (F.CANP.CAN_STATUS.TEC ca.val) = tec + 8 ∧ cst t = if 119 < tec ∨ 127 < rec_ then 1 else 0))) ∧
    (s.lioRuns = true → s.flag (F.CANP.CAN_CFG.ENABLE ca.val) = true → s.flag (F.CANP.CAN_CFG.AUTO ca.val) = true → cst s = 2 →
      Does (.busOffRecovery ca) s (fun t => cst t = 0 ∧ t.get (F.CANP.CAN_STATUS.TEC ca.val) = 0 ∧ t.get (F.CANP.CAN_STATUS.REC ca.val) = 0))

/-! ### Ethernet, the timebase and PCIe -/

/-- R555–R558, R560, R561, R563–R565, R587: a frame received is filtered, steered and delivered through its area, or dropped with its
reason; a transmit element becomes a frame and a report; PAUSE; the timebase is latched, stepped and set; host accesses to DRAM under
HOST_KRR, and root-port accesses and their failures. -/
def Obligations.NetworkAndHost : Prop :=
  ∀ (s : State) (r : Requester) (p : Fin 18) (f e pl : List Byte) (fcs up : Bool) (ru : Fin 64) (quanta : BitVec 16) (spd gen width : BitVec 2)
    (rp : TxReport) (off a : Word) (n : BitVec 13) (bs : List Byte) (data : BitVec 32) (d : Nat) (cause : Fin 3) (ia : BitVec 64),
    let g := pgNport p.val
    let j := p.val % 16
    let drops (t : State) (w : Nat) : Nat := t.get ⟨R.NPORT.DROPS g j, 8 * (w - 1), 8⟩
    let dropped (t : State) (w : Nat) : Prop := drops t w = (drops s w + 1) % 256 ∧ t.mem = s.mem ∧ t.qports = s.qports
    let paused (t : State) : Bool := t.flag (F.NPORT.PSTATUS.PAUSED g j)
    let area := s.get (F.NET.RULE_ACTION.AREA ru.val)
    let size := 64 * 2 ^ s.get (F.NET.AREA_BASE.SIZE area)
    let aq := s.get (F.NET.AREA_QUEUE.QUEUE area)
    let addr := 4096 * s.get (F.NET.AREA_BASE.BASE area) + s.get (F.NET.AREA_QUEUE.NEXT area) % 2 ^ ((s.queue aq).depth + 1) * size
    let q := s.get (F.NPORT.TXQ.QUEUE g j)
    let tb (t : State) : Int := ((1000000000 * t.tbSec + t.tbNs : Nat) : Int)
    let wraps (v : Int) : Int := v % ((1000000000 * 2 ^ 48 : Nat) : Int)
    let base := 2 ^ 30 * s.get F.PCI.BAR2.BASE + off.toNat
    let allowed (x m : Nat) (write : Bool) : Bool := m != 0 && decide (x + m ≤ s.dramEnd) &&
      (List.range ((x + m - 1) / 4096 - x / 4096 + 1)).all (fun i =>
        decide ((if write then 2 else 1) ≤ getF (s.reg R.PCI.HOST_KRR) (2 * ((s.keyByte (x / 4096 + i)).toNat % 16)) 2))
    let reads (t : State) (x m : Nat) : Prop := t.mem = s.mem ∧ if allowed x m false then t.hostCpl = some (s.bytes x m)
      else t.hostCpl = none ∧ s.pageErrs t pgPCI 0x12
    let writes (t : State) (x : Nat) : Prop := if allowed x bs.length true then t.bytes x bs.length = bs ∧
      ∀ b, b < x ∨ x + bs.length ≤ b → t.byte b = s.byte b else t.mem = s.mem ∧ s.pageErrs t pgPCI 0x12
    let outFails (t : State) (w : Nat) : Prop := t.get F.PCI.ERR_LAST.CAUSE = w ∧ t.mem = s.mem
    let rings (t : State) (x : Nat) : Prop := t.reg R.PCI.MSI_STATUS = s.reg R.PCI.MSI_STATUS ||| (1#40 <<< (x % 64))
    (s.ethUp p.val = true →
      (fcs = false ∨ f.length < 60 ∨ s.get (F.NPORT.PCFG.MAXLEN g j) < f.length + 4 → Does (.ethRxFrame p f fcs) s (fun t => dropped t 1)) ∧
      (fcs = true → 60 ≤ f.length → f.length + 4 ≤ s.get (F.NPORT.PCFG.MAXLEN g j) →
        (s.macAccept p.val f = false → exec (.ethRxFrame p f fcs) s = .next s) ∧
        (s.macAccept p.val f = true → (List.range 64).all (fun k => !s.ruleMatches k p.val f) = true →
          Does (.ethRxFrame p f fcs) s (fun t => dropped t 2)) ∧
        (s.macAccept p.val f = true → (List.range 64).find? (fun k => s.ruleMatches k p.val f) = some ru.val → s.fifo p.val = [] →
          f.length ≤ 9216 → s.netBusy area = false → s.flag (F.NET.AREA_BASE.VALID area) = true → s.portTagFree = true →
          s.inDram addr f.length = true → Does (.ethRxFrame p f fcs) s (fun t =>
            t.get (F.NPORT.RX_FRAMES.COUNT g j) = (s.get (F.NPORT.RX_FRAMES.COUNT g j) + 1) % 2 ^ 40 ∧
            if s.flag (F.NET.RULE_ACTION.DROP ru.val) then dropped t 2 else if size < f.length then dropped t 4 else
              t.bytes addr f.length = f ∧ (∀ b, b < addr ∨ addr + f.length ≤ b → t.byte b = s.byte b) ∧
              t.qports[11].getLast?.map (fun o => (o.queue, o.type, o.src, o.payload.take 7)) =
                some (aq, 4, 0x3000 + p.val, leBytes 5 addr ++ leBytes 2 f.length)))) ∧
      (s.flag (F.NPORT.PCFG.PAUSE_RX g j) = true → Does (.pauseRx p quanta) s (fun t => paused t = (quanta != 0) ∧ t.mem = s.mem)) ∧
      (s.flag (F.NPORT.TXQ.ENABLE g j) = true → paused s = false → s.portTagFree = true → s.hwHead q = (some e, s) →
        s.chosenQueue 3 s.ethServes = some q → Does (.ethTx p) s (fun t =>
        (t.queue q).head = (s.queue q).head + 1 ∧ (s.ethFrame p.val e = none → drops t 5 = (drops s 5 + 1) % 256 ∧ t.wire = s.wire) ∧
        ∀ w, s.ethFrame p.val e = some w → tabGet [] t.wire (512 + p.val) = w ++ List.replicate (60 - w.length) 0 ∧
          t.get (F.NPORT.TX_FRAMES.COUNT g j) = (s.get (F.NPORT.TX_FRAMES.COUNT g j) + 1) % 2 ^ 40 ∧
          t.txReports.length = s.txReports.length + if (e.getD 15 0).getLsbD 0 || (e.getD 15 0).getLsbD 3 then 1 else 0))) ∧
    Does (.pauseQuantaExpiry p) s (fun t => paused t = false) ∧
    (s.netRuns = true → s.flag F.NET.TS_QUEUE.VALID = true → s.txReports.find? (fun x => x.port == p.val) = some rp →
      Does (.txreport p) s (fun t => t.txReports = s.txReports.erase rp ∧ t.qports[11].getLast?.map (fun o => (o.queue, o.type, o.payload)) =
        some (s.get F.NET.TS_QUEUE.QUEUE, 4, leBytes 5 0 ++ leBytes 2 rp.tag ++ leBytes 1 p.val ++ leBytes 1 0 ++ leBytes 1 (128 + 2 * b2n rp.ts) ++
          leBytes 2 0 ++ if rp.ts then leBytes 4 rp.ns ++ leBytes 6 rp.sec else List.replicate 10 0))) ∧
    (s.netRuns = true → up = false ∨ s.flag (F.NPORT.PCFG.ENABLE g j) = true ∧ s.refClk 1 = true → Does (.ethLinkChange p up spd) s (fun t =>
      t.flag (F.NPORT.PSTATUS.LINK g j) = up ∧ t.get (F.NPORT.PSTATUS.SPEED g j) = (if 16 ≤ p.val ∨ up = false then 0 else
        if s.flag (F.NPORT.PCFG.AN g j) then spd.toNat else s.get (F.NPORT.PCFG.SPEED g j)) ∧ (up = false → paused t = false))) ∧
    (s.writable r R.TB.TB_CTRL = true → s.flag F.TB.TB_CTRL.SNAP = false → s.flag F.TB.TB_CTRL.STEP = false → s.flag F.TB.TB_CTRL.SET = false →
      (let follows := s.flag F.TB.TB_CTRL.SOURCE
       let no (t : State) : Prop := tb t = tb s ∧ s.pageErrs t pgTB 0x14
       Does (.tbSnap r) s (fun t => tb t = tb s ∧ t.reg R.TB.TB_NS = BitVec.ofNat 40 s.tbNs ∧ t.reg R.TB.TB_SEC = BitVec.ofNat 40 s.tbSec ∧
        t.reg R.TB.TB_SEC_HI = BitVec.ofNat 40 (s.tbSec / 2 ^ 40)) ∧
       Does (.step r) s (fun t => if follows then no t else tb t = wraps (tb s + (s.reg R.TB.TB_OFFSET).toInt)) ∧
       Does (.set r) s (fun t => if follows then no t else t.tbSec = (s.reg R.TB.TB_SET_SEC).toNat ∧ t.tbNs = 0 ∧ t.tbFrac = 0))) ∧
    (s.live pgPCI = true → s.enabled pgPCI = true → up = false ∨ s.refClk 2 = true → Does (.pcieLinkChange up gen width) s (fun t =>
      t.flag F.PCI.PSTATUS.LINK = up ∧ t.get F.PCI.PSTATUS.GEN = if up then gen.toNat else 0)) ∧
    (s.pciUp = true →
      (s.pciRoot = false →
        (off.toNat + n.toNat ≤ 2 ^ (30 + s.get F.PCI.BAR2.SIZE) → Does (.hostBar2Access off n none) s (fun t => reads t base n.toNat)) ∧
        (off.toNat + bs.length ≤ 2 ^ (30 + s.get F.PCI.BAR2.SIZE) → Does (.hostBar2Access off n (some bs)) s (fun t => writes t base))) ∧
      (s.pciRoot = true →
        Does (.inboundMemoryRequest ia n none) s (fun t => reads t ia.toNat n.toNat) ∧
        (let bell := ia.toNat = R.PCI.MSI_DOORBELL ∧ bs.length = 4
         (¬ bell → Does (.inboundMemoryRequest ia n (some bs)) s (fun t => writes t ia.toNat)) ∧
         (bell → leVal bs % 64 < 40 → Does (.inboundMemoryRequest ia n (some bs)) s (fun t => t.mem = s.mem ∧ rings t (leVal bs)))) ∧
        (data.toNat % 64 < 40 → Does (.inboundMsi data) s (fun t => rings t data.toNat)))) ∧
    (0xC000000000 ≤ a.toNat → a.toNat < 0xE000000000 → s.live pgPCI = true →
      (s.pciRoot = true → s.outAddr a.toNat = some d →
        (s.pciUp = true → Does (.outboundAccess a (n.setWidth 7) (some bs) (.ok pl)) s (fun t => t.pciReq = some (d, some bs) ∧ t.mem = s.mem) ∧
          Does (.outboundAccess a (n.setWidth 7) none (.ok pl)) s (fun t => t.pciReq = some (d, none) ∧ t.creg = s.creg) ∧
          Does (.outboundFail a cause) s (fun t => outFails t (cause.val + 1))) ∧
        (s.pciUp = false → Does (.outboundAccess a (n.setWidth 7) none (.ok pl)) s (fun t => outFails t 5))) ∧
      (s.pciRoot = false ∨ s.outAddr a.toNat = none →
        Does (.outboundAccess a (n.setWidth 7) none (.ok pl)) s (fun t => outFails t 4)))

/-! ### The Ixlink and the cascade -/

/-- R567–R574, R588: a port trains, recovers and goes DOWN; ACK, NAK and CREDIT; a packet received is checked, acknowledged, taken or
forwarded; remote tally operations, queue messages and remote windows. -/
def Obligations.IxlinkPackets : Prop :=
  ∀ (s : State) (r : Requester) (p : Fin 2) (v : Word) (w : BitVec 2) (peer : IxPeer) (k : IxPkt) (crc : Bool) (n : Nat) (e : List Byte) (o : TOp)
    (i : Nat) (tag : BitVec 16) (m : Nat × Nat),
    let g := pgIxp p.val
    let q := s.ix[p]
    let st (t : State) : Nat := t.get (F.IXP.XSTATUS.STATE g)
    let out (t : State) := t.ix[0].txq ++ t.ix[0].replay ++ t.ix[1].txq ++ t.ix[1].replay ++ t.ixHold
    let sends (t : State) (P : IxPkt → Bool) : Prop := (out t).countP P = (out s).countP P + 1
    let link (t : State) (type : Nat) : Option Nat := (t.ixLnk.find? (fun x => x.1 == 4 * p.val + type)).map (fun x => leVal (x.2.args.take 2))
    let arg := BitVec.ofNat 12 (leVal (k.args.take 2))
    let sat (t : State) (f : Fld) : Prop := t.get f = satInc f.len (s.get f)
    let other := pgIxp (1 - p.val)
    let why := if peer.site ≠ s.get F.IXL.SITE.SITE_ID then 1 else if peer.id = s.selfId then 2 else if peer.version ≠ 1 then 3
      else if s.get (F.IXP.XSTATUS.STATE other) = 4 ∧ s.get (F.IXP.XSTATUS.PEER_ID other) = peer.id then 4 else 0
    let base := 2 ^ 30 * s.get F.IXL.INBOUND.BASE + leVal (k.args.take 5)
    let len := (k.args.getD 5 0).toNat % 64 + 1
    let noRemote (t : State) : Prop := t.mem = s.mem ∧ s.pageErrs t pgIXL 0x12
    let up (d : Nat) : Bool := !s.ixIdle (s.ixRoute d)
    (s.writable r (R.IXP.XCTRL g) = true →
      Does (.xctrlEnable r p v) s (fun t => if getF v 2 2 = 3 then s.pageErrs t g 0x13 ∧ st t = st s else
        t.flag (F.IXP.XCTRL.ENABLE g) = true ∧ (s.flag (F.IXP.XCTRL.ENABLE g) = false → st t = 1)) ∧
      (s.flag (F.IXP.XCTRL.ENABLE g) = true → s.get (F.IXP.XCTRL.MAXW g) ≠ 3 → Does (.retrain r p) s (fun t =>
        st t = if st s = 4 then 5 else if st s = 6 then 1 else st s))) ∧
    (s.ixlRuns = true → peer.id < 8 →
      (s.refClk 1 = true → Does (.ixlTrainStep p w peer) s (fun t =>
        (st s = 1 → st t = 2) ∧ (st s = 2 → st t = 3 ∧ t.get (F.IXP.XSTATUS.WIDTH g) = min w.toNat (s.get (F.IXP.XCTRL.MAXW g))) ∧
        (st s = 3 → t.get (F.IXP.XSTATUS.REFUSE g) = why ∧ t.get (F.IXP.XSTATUS.PEER_ID g) = peer.id ∧ st t = if why = 0 then 4 else 6) ∧
        (st s = 5 → st t = 4))) ∧
      (st s = 4 ∨ st s = 5 → Does (.ixlRecovery p) s (fun t => if st s = 4 then st t = 5 ∧ sat t (F.IXP.RECOVERIES.COUNT g) else
        if 2 ≤ q.fails then st t = 7 else st t = 5 ∧ t.ix[p].fails = q.fails + 1)) ∧
      (st s = 7 → s.flag (F.IXP.XCTRL.ENABLE g) = true → Does (.ixlDownWait p) s (fun t => st t = 1))) ∧
    (s.ixlRuns = true → q.txq = [] → s.ixHold = [] →
      (k.type = 1 → Does (.ack p k) s (fun t => t.ix[p].replay = q.replay.filter (fun x => seqBefore arg x.seq) ∧ t.ix[1 - p] = s.ix[1 - p])) ∧
      (k.type = 2 → Does (.nak p k) s (fun t => t.ix[p].replay = q.replay.filter (fun x => seqBefore (arg - 1) x.seq) ∧
        sat t (F.IXP.REPLAYS.COUNT g))) ∧
      (k.type = 3 → Does (.credit p k) s (fun t => ∀ c : Fin 4, t.ix[p].credit[c] = q.credit[c] + leVal ((k.args.drop (2 * c.val)).take 2)))) ∧
    (s.ixlRuns = true → s.ixActive p.val = true → 3 < k.type → Does (.ixlPacketRx p k crc) s (fun t =>
      if crc = false then sat t (F.IXP.CRC_ERRORS.COUNT g) ∧ t.mem = s.mem ∧
        if 7 ≤ q.crcRun then st t = 5 else link t 2 = some q.rxSeq.toNat ∧ t.ix[p].crcRun = q.crcRun + 1
      else if k.seq ≠ q.rxSeq then t.ix = s.ix.set p { q with crcRun := 0 } ∧ t.mem = s.mem ∧ t.creg = s.creg ∧
        if seqBefore k.seq q.rxSeq then link t 1 = some (q.rxSeq - 1).toNat else link t 2 = some q.rxSeq.toNat
      else t.ix[p].rxSeq = q.rxSeq + 1 ∧ link t 1 = some q.rxSeq.toNat ∧
        if ixWellFormed k = false then sat t F.IXL.FORWARD_ERR.COUNT ∧ t.mem = s.mem
        else k.type ≠ 0x80 → k.bcast = false → k.dst ≠ s.selfId → t.mem = s.mem ∧
          if k.hops ≤ 1 then sat t F.IXL.FORWARD_ERR.COUNT ∧ out t = out s
          else if s.ixIdle (1 - p) then out t = out s
          else (out t).countP (fun x => { x with seq := 0 } == { k with seq := 0, hops := k.hops - 1 }) =
            (out s).countP (fun x => { x with seq := 0 } == { k with seq := 0, hops := k.hops - 1 }) + 1)) ∧
    (s.ixlRuns = true →
      (let op := (k.payload.getD 3 0).toNat
       k.type = 0x10 → Does (.postFwd p k) s (fun t => if s.postFull then t.ixIn = s.ixIn ++ [(none, k)] ∧ t.tports = s.tports else
        if 5 < op then sat t F.IXL.FORWARD_ERR.COUNT ∧ t.tports = s.tports else
        ∃ x ∈ t.tports[9].getLast?, t.tports[9] = s.tports[9] ++ [x] ∧ x.acct.toNat = leVal (k.payload.take 3) % 2 ^ 21 ∧
          x.amount.toNat = leVal ((k.payload.drop 5).take 11) ∧ x.origin = some (k.src, k.tag, if op = 0 then 0 else
            BitVec.ofNat 40 (leVal ((k.payload.drop 32).take 5))))) ∧
      (k.type = 0x11 → s.remoteOps.find? (fun x => x.tag == k.tag && devOf x.acct == k.src) = some o → Does (.postDone p k) s (fun t =>
        t.remoteOps = s.remoteOps.erase o ∧ (o.kind = .post → o.ticket = some i → (s.ticket i).flushed = false →
          (t.ticket i).done = true ∧ (t.ticket i).status = (k.payload.getD 5 0).toNat))) ∧
      (k.type = 0x20 → Does (.qmsg p k) s (fun t => t.qports[12].getLast?.map (fun x => (x.queue, x.type, x.src, x.payload)) =
        some (leVal (k.payload.take 2) % 8192, 5, 0x4000 + k.src, [k.payload.getD 2 0] ++ (k.payload.drop 4).take 2 ++
          (k.payload.drop 6).take (min (k.payload.getD 3 0).toNat 53)))) ∧
      (s.chosenQueue 4 (fun m => (s.hwHead m).1.isSome) = some n → s.hwHead n = (some e, s) →
        ((s.ix[0].txq ++ s.ix[1].txq ++ s.ixHold).any (fun x => x.vc == 2)) = false →
        (let dev := (e.getD 10 0).toNat % 8
         Does .qmsgSend s (fun t => (t.queue n).head = (s.queue n).head + 1 ∧
          if elType e < 0x40 ∨ elLen e < 3 ∨ 56 < elLen e ∨ dev = s.selfId ∨ s.flag (F.IXL.RT_ENTRY.PRESENT dev) = false then
            sat t F.IXL.DROPS.TX ∧ out t = out s
          else up dev = true → sends t (fun x => x.type == 0x20 && x.dst == dev && x.payload.take 4 == (e.drop 8).take 2 ++ leBytes 1 (elType e) ++
            leBytes 1 (elLen e - 3) && (x.payload.drop 6).take (elLen e - 3) == (e.drop 11).take (elLen e - 3))))) ∧
      (k.type = 0x70 → up k.src = true → Does (.memRd p k) s (fun t => t.mem = s.mem ∧
        if s.remoteOk base len false then sends t (fun x => x.type == 0x71 && x.dst == k.src && x.tag == k.tag && x.args == List.replicate 8 0 &&
          x.payload.take len == s.bytes base len)
        else noRemote t ∧ sends t (fun x => x.type == 0x71 && x.dst == k.src && x.tag == k.tag && x.args.take 1 == [1] && x.payload == []))) ∧
      (k.type = 0x72 → len ≤ k.payload.length → Does (.memWr p k) s (fun t => if s.remoteOk base len true then t.bytes base len = k.payload.take len ∧
        ∀ a, a < base ∨ base + len ≤ a → t.byte a = s.byte a else noRemote t)) ∧
      (k.type = 0x71 → s.memRds.find? (fun x => x.1 == k.tag && x.2 == k.src) = some m → Does (.memRsp p k) s (fun t =>
        t.memRds = s.memRds.erase m ∧ (k.args.getD 0 0 ≠ 0 → noRemote t)))) ∧
    (s.memRds.find? (fun x => x.1 == tag.toNat) = some m → Does (.memRdTimeout tag) s (fun t => t.memRds = s.memRds.erase m ∧ noRemote t))

/-- R575–R583: heartbeats and liveness, the primary's claim, succession and handover; JSN grants; the routing table; global cuts from START
to their reports and release; the timebase that a satellite follows. -/
def Obligations.Cascade : Prop :=
  ∀ (s : State) (r : Requester) (p : Fin 2) (k : IxPkt) (d : Fin 8) (target : BitVec 3),
    let self := s.selfId
    let out (t : State) := t.ix[0].txq ++ t.ix[0].replay ++ t.ix[1].txq ++ t.ix[1].replay ++ t.ixHold
    let sends (t : State) (n : Nat) (P : IxPkt → Bool) : Prop := (out t).countP P = (out s).countP P + n
    let onAll (ring : Bool) : Nat := ((if ring then [1] else [0, 1]).filter (fun q => !s.ixIdle q)).length
    let all := onAll s.ixRing
    let up (x : Nat) : Bool := !s.ixIdle (s.ixRoute x)
    let tb := 1000000000 * s.tbSec + s.tbNs
    let number := s.get F.IXL.GCUT_CTRL.NUMBER
    let result (t : State) (x : Nat) : Nat := t.get (F.IXL.GCUT_STATUS.RESULT x)
    let held := s.flag F.TLY.CUT_STATUS.HELD && s.flag F.TLY.CUT_STATUS.GLOBAL
    let boundary := s.get F.TLY.PSN_NEXT.PSN
    let cuts (t : State) (num how : Nat) : Prop := t.cutAt = none ∧
      if s.flag F.TLY.CUT_STATUS.HELD = false ∧ s.flag F.TLY.CUT_STATUS.RELEASING = false ∧ s.flag F.TLY.REPLAY_OPEN = false then
        t.flag F.TLY.CUT_STATUS.HELD = true ∧ t.flag F.TLY.CUT_STATUS.GLOBAL = true ∧ t.get F.TLY.CUT_BOUNDARY.B = boundary ∧
        if s.isPrimary then result t self = how % 8 else up (s.get F.IXL.ROLE.PRIMARY_ID) = true → sends t 1 (fun x => x.type == 0x31 && x.args.take 7 == leBytes 1 num ++ leBytes 1 how ++ leBytes 5 boundary)
      else t.flag F.TLY.CUT_STATUS.HELD = s.flag F.TLY.CUT_STATUS.HELD ∧
        if s.isPrimary then 3 ≤ result t self ∧ result t self ≤ 4 else up (s.get F.IXL.ROLE.PRIMARY_ID) = true → sends t 1 (fun x => x.type == 0x31 && (x.args.getD 1 0 == 3 || x.args.getD 1 0 == 4))
    let grantable := s.tallyRuns && s.flag F.TLY.SEEDED && (List.finRange 8).all (fun b => decide (s.banks[b].length < 64))
    let released (t : State) : Prop := if held then t.flag F.TLY.CUT_STATUS.HELD = false ∧ t.flag F.TLY.CUT_STATUS.RELEASING = true
      else t.flag F.TLY.CUT_STATUS.HELD = s.flag F.TLY.CUT_STATUS.HELD
    let num := (k.args.getD 0 0).toNat
    let no (t : State) (code : Nat) : Prop := s.pageErrs t pgIXL code ∧ t.isPrimary = s.isPrimary ∧ out t = out s ∧ t.gcutOn = s.gcutOn
    let jsn := s.get F.IXL.JSN_NEXT.JSN
    let src := k.src % 8
    let live (t : State) : Nat := t.get F.IXL.LIVE.LIVE
    let follows := s.flag F.IXL.ROLE.KNOWN && !s.isPrimary
    (s.ixlRuns = true →
      (let sec := leVal ((k.payload.drop 4).take 6)
       let ns := leVal (k.payload.take 4)
       k.type = 0x30 → Does (.cutAt p k) s (fun t => if tb ≤ 1000000000 * sec + ns then 
          t.cutAt = some { number := num, sec := sec, ns := ns, late := false, due := false } ∧ t.creg = s.creg
        else grantable = true → cuts t num 2)) ∧
      (∀ c ∈ s.cutAt, grantable = true → Does .cutInstant s (fun t => cuts t c.number (if c.late then 2 else 1))) ∧
      (k.type = 0x31 → s.isPrimary = true → s.gcutOn = true → number = num → Does (.cutReport p k) s (fun t =>
        result t src = (k.args.getD 1 0).toNat % 8 ∧ t.reg (R.IXL.GCUT_B src) = BitVec.ofNat 40 (leVal ((k.args.drop 2).take 5)) ∧
        (∀ x : Fin 8, x.val ≠ src → result t x.val = result s x.val) ∧ (t.gcutOn = true ∨ t.flag F.IXL.GCUT_STATUS.DONE = true))) ∧
      (k.type = 0x32 → Does (.cutRelease p k) s released) ∧
      (s.gcutOn = true → Does .gcutDeadline s (fun t => t.gcutOn = false ∧ t.flag F.IXL.GCUT_STATUS.DONE = true ∧
        ∀ x : Fin 8, result t x.val = if s.flag (F.IXL.RT_ENTRY.PRESENT x.val) && result s x.val == 0 then 5 else result s x.val))) ∧
    (s.writable r R.IXL.GCUT_CTRL = true → s.flag F.IXL.GCUT_CTRL.RELEASE = false → (s.flag F.IXL.GCUT_CTRL.START = true → s.gcutOn = true) →
      100 ≤ s.get F.IXL.GCUT_CTRL.LEAD → s.get F.IXL.GCUT_CTRL.LEAD ≤ 10000 →
      (let t1 := tb + 1000 * s.get F.IXL.GCUT_CTRL.LEAD
       Does (.gcutStart r) s (fun t => if s.isPrimary = false ∨ s.ixlRuns = false then no t 0x14 else
        if s.gcutOn then t.get F.IXL.GCUT_CTRL.NUMBER = number ∧ t.cutAt = s.cutAt ∧ out t = out s else
        t.gcutOn = true ∧ t.flag F.IXL.GCUT_CTRL.START = true ∧ t.get F.IXL.GCUT_CTRL.NUMBER = (number + 1) % 256 ∧
        t.cutAt = some { number := (number + 1) % 256, sec := t1 / 1000000000, ns := t1 % 1000000000, late := false, due := false } ∧
        sends t all (fun x => x.type == 0x30 && x.payload.take 10 == leBytes 4 (t1 % 1000000000) ++ leBytes 6 (t1 / 1000000000)))) ∧
      Does (.gcutRelease r) s (fun t => if s.isPrimary = false ∨ s.ixlRuns = false then no t 0x14 else
        released t ∧ sends t all (fun x => x.type == 0x32 && x.args.take 1 == leBytes 1 number))) ∧
    (s.ixlRuns = true →
      (let n := 256 * (num + 1)
       let f := if jsn + n ≤ 2 ^ 40 - 1 then jsn else 1
       k.type = 0x40 → s.isPrimary = true → Does (.jsnReq p k) s (fun t => t.get F.IXL.JSN_NEXT.JSN = (f + n) % 2 ^ 40 ∧
        t.get F.IXL.JSN_HIGH.JSN = f + n - 1 ∧ sends t all (fun x => x.type == 0x41 && x.args == leBytes 5 f ++ leBytes 1 k.src ++ leBytes 1 num ++ [0]))) ∧
      (let f := leVal (k.args.take 5)
       let l := f + 256 * ((k.args.getD 6 0).toNat + 1) - 1
       k.type = 0x41 → s.isPrimary = false → Does (.jsnGrant p k) s (fun t =>
        t.get F.IXL.JSN_HIGH.JSN = max (s.get F.IXL.JSN_HIGH.JSN) (l % 2 ^ 40) ∧
        t.jr.jsns = if (k.args.getD 5 0).toNat = self ∧ s.flag F.IXL.ROLE.KNOWN = true ∧ s.get F.IXL.ROLE.PRIMARY_ID = k.src ∧
            s.jr.jsns.any (fun b => b.2 == l) = false
          then s.jr.jsns ++ [(f, l)] else s.jr.jsns)) ∧
      (s.jsnAsked = true → s.intake.length < 64 → Does .jsnGrantTimeout s (fun t => ((t.intake.drop s.intake.length).head?).map (fun x => x.code) = some 0x1308)) ∧
      (k.type = 0x50 → k.src = self → Does (.heartbeat p k) s (fun t => t.ixRing = true ∧ t.creg = s.creg)) ∧
      (let epoch := leVal (k.args.take 2)
       let prim := (k.args.getD 2 0).getLsbD 0
       let known := s.flag F.IXL.ROLE.KNOWN
       let cur := s.get F.IXL.ROLE.EPOCH
       let above := !known || decide (cur < epoch) || (cur == epoch && decide (src ≤ s.get F.IXL.ROLE.PRIMARY_ID))
       k.type = 0x50 → k.src ≠ self → k.src < 8 → k.hops ≤ 7 → Does (.heartbeat p k) s (fun t => bitOf (live t) src = true ∧
        (s.get (F.IXL.RT_ENTRY.HOPS src) = 0 → t.get (F.IXL.RT_ENTRY.HOPS src) = 8 - k.hops ∧ t.get (F.IXL.RT_ENTRY.PORT src) = p.val) ∧
        (prim = true → if above then t.get F.IXL.ROLE.PRIMARY_ID = src ∧ t.flag F.IXL.ROLE.KNOWN = true ∧ t.get F.IXL.ROLE.EPOCH = epoch ∧
            t.isPrimary = false
          else t.get F.IXL.ROLE.PRIMARY_ID = s.get F.IXL.ROLE.PRIMARY_ID ∧ t.isPrimary = s.isPrimary) ∧
        (prim = false → follows = true → s.get F.IXL.ROLE.PRIMARY_ID = src → t.flag F.IXL.ROLE.KNOWN = false))) ∧
      (s.flag F.IXL.ROLE.STRAP = false → s.flag F.IXL.ROLE.KNOWN = true ∨ s.isPrimary = true →
        Does .heartbeatPeriod s (fun t => t.ixRing = s.ixHeard ∧ bitOf (live t) self = true ∧ sends t (onAll s.ixHeard) (fun x => x.type == 0x50 && x.src == self &&
        x.args.take 3 == leBytes 2 (s.get F.IXL.ROLE.EPOCH) ++ leBytes 1 (b2n s.isPrimary)))) ∧
      (let alive := (List.range 8).filter (fun x => x != d.val && (x == self || bitOf (live s) x))
       let size := if s.tableSeen then s.presentList.length else s.get F.IXL.SITE.SIZE + 1
       let quorum := size < 2 * alive.length ∨ 2 * alive.length = size ∧ (if s.tableSeen then s.presentList.headD 0 else 0) ∈ alive
       bitOf (live s) d.val = true → d.val ≠ self → self < 8 → s.isPrimary = false → Does (.deviceNotLive d) s (fun t =>
        (∀ x : Fin 8, x.val ≠ self → bitOf (live t) x.val = (bitOf (live s) x.val && x != d)) ∧
        (s.get F.IXL.ROLE.PRIMARY_ID ≠ d.val → s.flag F.IXL.ROLE.KNOWN = true → t.flag F.IXL.ROLE.KNOWN = true ∧ t.isPrimary = false) ∧
        (s.get F.IXL.ROLE.PRIMARY_ID = d.val ∨ s.flag F.IXL.ROLE.KNOWN = false →
          if quorum ∧ alive.headD 0 = self then t.isPrimary = true ∧ t.get F.IXL.ROLE.EPOCH = (s.hiEpoch + 1) % 65536
          else t.isPrimary = false ∧ t.flag F.IXL.ROLE.KNOWN = false))) ∧
      (let e := (k.args.getD 2 0).toNat
       k.type = 0x60 → follows = true → leVal (k.args.take 2) = s.get F.IXL.ROLE.EPOCH → s.get F.IXL.ROLE.PRIMARY_ID = k.src →
        e ≠ s.get F.IXL.RT_CTRL.RT_EPOCH → Does (.routeTable p k) s (fun t => t.get F.IXL.RT_CTRL.RT_EPOCH = e ∧
          ∀ x : Fin 8, t.flag (F.IXL.RT_ENTRY.PRESENT x.val) = (k.payload.getD x.val 0).getLsbD 0 ∧
            t.get (F.IXL.RT_ENTRY.KEY x.val) = (k.payload.getD x.val 0).toNat / 2 % 16)) ∧
      (let err : Int := ((1000000000 * leVal ((k.payload.drop 4).take 6) + leVal (k.payload.take 4) + s.get (F.IXP.DELAY.NS (pgIxp p.val)) : Nat) : Int) - tb
       k.type = 0x80 → s.isPrimary = false → Does (.timeSync p k) s (fun t => t.flag F.TB.TB_CTRL.SOURCE = true ∧
        if 1000 < err.natAbs then ((1000000000 * t.tbSec + t.tbNs : Nat) : Int) = (tb + err) % ((1000000000 * 2 ^ 48 : Nat) : Int)
        else t.tbSec = s.tbSec ∧ t.tbNs = s.tbNs)) ∧
      (k.type = 0x90 → num = self → self < 8 → Does (.handover p k) s (fun t => t.isPrimary = true ∧ t.get F.IXL.ROLE.PRIMARY_ID = self ∧
        t.get F.IXL.ROLE.EPOCH = leVal ((k.args.drop 1).take 2)))) ∧
    (s.writable r R.IXL.RT_CTRL = true → Does (.send r) s (fun t => if s.isPrimary = false then no t 0x14 else
      t.get F.IXL.RT_CTRL.RT_EPOCH = (s.get F.IXL.RT_CTRL.RT_EPOCH + 1) % 256 ∧
      sends t all (fun x => x.type == 0x60 && x.args.getD 2 0 == BitVec.ofNat 8 (s.get F.IXL.RT_CTRL.RT_EPOCH + 1)))) ∧
    (s.writable r R.IXL.HANDOVER = true → Does (.handoverGo r target) s (fun t => if reqWarden r = false then no t 0x11 else
      if s.isPrimary = false then no t 0x14 else if bitOf (live s) target.toNat = false ∨ target.toNat = self then no t 0x12 else
      t.isPrimary = false ∧ t.flag F.IXL.ROLE.KNOWN = false ∧ (up target.toNat = true → sends t 1 (fun x => x.type == 0x90 && x.dst == target.toNat &&
        x.args == leBytes 1 target.toNat ++ leBytes 2 (s.get F.IXL.ROLE.EPOCH + 1) ++ leBytes 5 jsn))))

/-! ### Security and the recorder -/

/-- R599–R606: a crypto job is started, served by its unit with the operation of its descriptor, and ends with OUTLEN and STATUS in its
descriptor; the random source fails, restarts and is ready. The bits that the DRBG draws are free values (assumption 16): no claim names
them. -/
def Obligations.CryptoJobs : Prop :=
  ∀ (s : State) (r : Requester) (ch : Fin 4) (jr : JobRes) (apt : Bool),
    let d := s.desc ch.val
    let u := s.opUnit d
    let src := s.bytes d.src d.srcLen
    let aux := s.bytes d.aux d.auxLen
    let key := s.key d.slot
    let aad := src.take d.aadLen
    let body := src.drop d.aadLen
    let served (t : State) (st : Nat) (out : List Byte) : Prop :=
      t.jobs[ch].res.map (fun x => (x.unit, x.status, x.outlen)) = some (u, st, out.length) ∧ t.bytes d.dst out.length = out ∧
      ∀ a, a < d.dst ∨ d.dst + out.length ≤ a → t.byte a = s.byte a
    let ready (op : Nat) : Prop := s.secRuns = true ∧ s.internalWaits = false ∧ s.unitFree u = true ∧ s.nextJob u = some ch.val ∧
      (d.op = 0x0F → s.flag (F.VAULT.SLOT_ATTR.INUSE d.slot2) = false) ∧ d.op = op ∧ s.jobCheck ch.val d = 0
    let filled (t : State) (k : List Byte) : Prop := t.key d.slot2 = k ∧ served t 0 []
    let opened (t : State) (ok : Bool) (out : List Byte) : Prop := if ok then served t 0 out else served t 4 []
    let go := F.SEC.JOB_CTRL.GO ch.val
    let started (t : State) : Prop := t.flag go = true ∧
      t.jobs[ch] = { run := true, addr := 64 * s.get (F.SEC.JOB_ADDR.ADDR ch.val), res := none }
    let rng := F.SEC.RNG_STATUS.READY
    let addr := s.jobAddr ch.val
    (ready 0x01 → Does (.sha256 ch) s (fun t => served t 0 (sha256 src))) ∧
    (ready 0x02 → Does (.hmac ch) s (fun t => served t 0 (hmac256 key src))) ∧
    (ready 0x03 → Does (.gcmEnc ch) s (fun t => served t 0 (gcmCtr key aux body ++ gcmTag key aux aad (gcmCtr key aux body)))) ∧
    (ready 0x04 → Does (.gcmDec ch) s (fun t =>
      let ct := body.take (body.length - 16)
      opened t (gcmTag key aux aad ct == body.drop (body.length - 16)) (gcmCtr key aux ct))) ∧
    (ready 0x05 → Does (.ctr ch) s (fun t => served t 0 (aesCtr key aux src))) ∧
    (ready 0x06 → Does (.cbcEnc ch) s (fun t => served t 0 (cbcEnc key (d.srcLen / 16) aux src))) ∧
    (ready 0x07 → Does (.cbcDec ch) s (fun t => served t 0 (cbcDec key (d.srcLen / 16) aux src))) ∧
    (ready 0x08 → Does (.sign ch) s (fun t => served t 0 (t.bytes d.dst 64))) ∧
    (ready 0x09 → Does (.verify ch) s (fun t =>
      opened t (ecdsaVerify (if d.flags = 1 then aux else s.pubOf d.slot) (src.take 32) (src.drop 32)) [])) ∧
    (ready 0x0A → Does (.ecdh ch) s (fun t => (ptOf aux = none → served t 4 []) ∧
      ∀ q, ptOf aux = some q → filled t ((ptBytes (ptMul 256 (beVal key) (some q))).take 32))) ∧
    (ready 0x0B → Does (.generate ch) s (fun t => (t.key d.slot2).length = 32 ∧ served t 0 [])) ∧
    (ready 0x0C → Does (.publicKey ch) s (fun t => served t 0 (s.pubOf d.slot))) ∧
    (ready 0x0D → Does (.unwrap ch) s (fun t =>
      let ct := src.take (d.srcLen - 16)
      let attr := s.reg (R.VAULT.SLOT_ATTR d.slot2) &&& ~~~0x2008#40
      if gcmTag key aux (leBytes 5 attr.toNat) ct = src.drop (d.srcLen - 16) then filled t (gcmCtr key aux ct) else served t 4 [])) ∧
    (ready 0x0E → Does (.random ch) s (fun t => served t 0 (t.bytes d.dst d.dstLen))) ∧
    (ready 0x0F → Does (.erase ch) s (fun t => filled t [])) ∧
    (ready 0x10 → Does (.loadpub ch) s (fun t => if (ptOf src).isSome then filled t src else served t 4 [])) ∧
    (s.secRuns = true → s.internalWaits = false → s.unitFree u = true → s.nextJob u = some ch.val → d.op = 0x01 → s.jobCheck ch.val d ≠ 0 →
      Does (.sha256 ch) s (fun t => served t (s.jobCheck ch.val d) [])) ∧
    (s.writable r (R.SEC.JOB_CTRL ch.val) = true → Does (.jobGo r ch) s (fun t =>
      if (reqWarden r || decide (2 ≤ ch.val) && reqSup r) = false then s.pageErrs t pgSEC 0x11 ∧ t.jobs = s.jobs
      else if s.jobs[ch].run then s.pageErrs t pgSEC 0x10 ∧ t.jobs = s.jobs else started t)) ∧
    (s.secRuns = true → s.jobs[ch].res = some jr → jr.status < 16 → jr.outlen < 2 ^ 24 → s.inDram addr 64 = true → Does (.jobEnd ch) s (fun t =>
      t.jobs[ch] = Job.idle ∧ t.flag go = false ∧ t.get (F.SEC.JOB_CTRL.STATUS ch.val) = jr.status ∧
      t.bytes (addr + 32) 1 = leBytes 1 jr.status ∧ t.bytes (addr + 34) 3 = leBytes 3 jr.outlen ∧
      ∀ a, a < addr + 32 ∨ addr + 37 ≤ a → t.byte a = s.byte a)) ∧
    (s.live pgSEC = true →
      Does (.rngTestFail apt) s (fun t => t.flag F.SEC.RNG_STATUS.FAIL = true ∧ t.flag rng = false ∧
        t.flag (if apt then F.SEC.RNG_STATUS.APT else F.SEC.RNG_STATUS.RCT) = true) ∧
      (s.flag F.SEC.RNG_STATUS.FAIL = false → Does .rngReady s (fun t => t.flag rng = true ∧ t.flag F.SEC.RNG_CTRL.RESTART = false))) ∧
    (s.writable r R.SEC.RNG_CTRL = true → Does (.restart r) s (fun t => t.flag F.SEC.RNG_CTRL.RESTART = true ∧
      if s.flag F.SEC.RNG_CTRL.RESTART then t.reg R.SEC.RNG_STATUS = s.reg R.SEC.RNG_STATUS else
      t.flag rng = false ∧ t.flag F.SEC.RNG_STATUS.FAIL = false ∧ t.flag F.SEC.RNG_STATUS.RCT = false ∧ t.flag F.SEC.RNG_STATUS.APT = false))

/-- R592, R597, R607–R614: a warden core's watchdog is kicked, expires and restarts its core; a boot key is revoked; an event enters the
recorder's intake and becomes a record of its partition under the next SEQ; a slot is read; records are cleared with an authorization
that verifies. -/
def Obligations.WardenAndRecorder : Prop :=
  ∀ (s : State) (r : Requester) (k : Fin 4) (key : BitVec 2) (code : BitVec 16) (source : Byte) (sev : BitVec 3) (p0 p1 p2 : Word) (e : RecEvent)
    (rest : List RecEvent) (slot : BitVec 16) (q : ClearReq) (run : ClearRun),
    let bit (t : State) (f : Fld) : Bool := bitOf (t.get f) k.val
    let c0 : Cid := BitVec.ofNat 12 (0x200 + 8 * k.val)
    let c1 : Cid := BitVec.ofNat 12 (0x201 + 8 * k.val)
    let gone := s.get F.SEC.BOOT_STATUS.REVOKED
    let other := (List.range 4).any (fun j => j != key.toNat && bitOf (s.get F.SEC.BOOT_STATUS.PROG) j && !bitOf gone j)
    let seq := s.get F.REC.NEXT_SEQ.SEQ
    let record (x : RecEvent) (prot : Bool) : List Byte :=
      let b := leBytes 2 x.code ++ leBytes 1 x.source ++ leBytes 1 (x.severity % 8 + 8 * b2n prot) ++ leBytes 4 seq ++
        leBytes 5 (s.get F.REC.OPTIME.TIME) ++ leBytes 4 (s.get F.REC.PCYCLES.COUNT) ++ leBytes 5 x.p0.toNat ++ leBytes 5 x.p1.toNat ++
        leBytes 5 x.p2.toNat ++ leBytes 4 0
      b ++ leBytes 4 (crc32 b)
    let head := s.get F.REC.GEN_HEAD.SLOT
    let stored (t : State) (n : Nat) (x : RecEvent) (prot : Bool) : Prop := t.slot n = record x prot ∧ t.get F.REC.NEXT_SEQ.SEQ = (seq + 1) % 2 ^ 32 ∧
      ∀ m, m ≠ n → t.slot m = s.slot m
    let cp := s.swCopy r
    let cc := getF cp.code 0 16
    let cs := getF cp.code 16 3
    let cprot := cp.code.getLsbD 19
    let queued (t : State) (x : RecEvent) : Prop := t.intake = s.intake ++ [x]
    (s.writable r R.WRD.WDOG_KICK = true → r = .ctx c0 3#2 → Does (.wdogKick r) s (fun t => bit t F.WRD.WDOG_STATUS.EXPIRED = false)) ∧
    (s.live pgWRD = true → bit s F.WRD.WDOG_CFG.EN = true → Does (.wdogExpiry k) s (fun t =>
      if bit s F.WRD.WDOG_STATUS.EXPIRED then bit t F.WRD.WDOG_STATUS.RESTARTED = true ∧ (t.cx c0).pc = s.reg R.WRD.WDOG_PC ∧
        (t.cx c0).sr = srReset c0 ∧ ((t.cx c0).run = .ready ∨ (t.cx c0).run = .running) ∧ (t.cx c1).run = .halted
      else bit t F.WRD.WDOG_STATUS.EXPIRED = true ∧ t.ctx = s.ctx)) ∧
    (s.writable r R.SEC.REVOKE = true → Does (.revoke r key) s (fun t =>
      if reqWarden r = false then s.pageErrs t pgSEC 0x11 ∧ t.get F.SEC.BOOT_STATUS.REVOKED = gone
      else if key.toNat = s.get F.SEC.BOOT_STATUS.KEY ∨ other = false ∨ s.protFree = false then
        s.pageErrs t pgSEC 0x12 ∧ t.get F.SEC.BOOT_STATUS.REVOKED = gone
      else t.get F.SEC.BOOT_STATUS.REVOKED = gone ||| 2 ^ key.toNat)) ∧
    (code ≠ 0 → s.flag F.DBG.ECL_CFG.REC_EN = false → protectedEvent code.toNat = false → Does (.recorderEvent code source sev p0 p1 p2) s (fun t =>
      if s.intake.length < 64 then queued t ⟨code.toNat, source.toNat, sev.toNat, p0, p1, p2⟩
      else t.intake = s.intake ∧ t.get F.REC.LOST.INTAKE = satInc F.REC.LOST.INTAKE.len (s.get F.REC.LOST.INTAKE))) ∧
    (s.intake = e :: rest → s.recLost = 0 →
      Does .recorderWrite s (fun t => t.intake = rest ∧
        (e.code ≠ 0x1601 → e.prot = false → stored t head e false ∧ t.get F.REC.GEN_HEAD.SLOT = if head + 1 < 61440 then head + 1 else 0) ∧
        (e.code = 0x1601 → s.get F.REC.COUNTS.CLEAR < 256 → stored t (65280 + s.get F.REC.COUNTS.CLEAR) e true) ∧
        (e.code ≠ 0x1601 → e.prot = true → if s.get F.REC.COUNTS.PROT < 3840
          then stored t (s.protSlot 3840 s.protNext) e true ∧ t.get F.REC.COUNTS.PROT = s.get F.REC.COUNTS.PROT + 1
          else stored t head { e with severity := e.severity % 8 } false ∧ t.flag F.REC.STATUS.PROT_FULL = true))) ∧
    (s.writable r R.REC.SW_CTRL = true → s.intake.length < 64 → s.flag F.DBG.ECL_CFG.REC_EN = false → Does (.swEvent r) s (fun t =>
      if cc < 0xF000 ∨ reqWarden r = false ∧ (3 < cs ∨ cprot = true) then s.pageErrs t pgREC 0x13 ∧ t.intake = s.intake
      else queued t ⟨cc, 0, cs + 8 * b2n cprot, cp.p0, cp.p1, cp.p2⟩)) ∧
    (s.writable r R.REC.RD_SLOT = true → Does (.rdSlotWrite r slot) s (fun t => t.get F.REC.RD_SLOT.SLOT = slot.toNat ∧
      ∀ i : Fin 8, t.reg (R.REC.RD_W i.val) = BitVec.ofNat 40 (leVal (((s.slot slot.toNat).drop (5 * i.val)).take 5)))) ∧
    (s.writable r R.REC.CLEAR_CTRL = true → Does (.clearGo r) s (fun t => if reqWarden r = false ∧ r ≠ .engine then s.pageErrs t pgREC 0x11 ∧
      t.clears = s.clears else t.flag F.REC.CLEAR_CTRL.GO = true ∧ t.clears = s.clears ++
        [{ auth := s.bytes (s.get F.REC.CLEAR_ADDR.ADDR) 96, seq := seq }])) ∧
    (s.live pgSEC = true → s.enabled pgSEC = true → s.flag F.SEC.RNG_STATUS.READY = true → s.clears.head? = some q → Does .clearVerified s (fun t =>
      let f (i n : Nat) := leVal ((q.auth.drop i).take n)
      let vk := s.verifyKey (s.get F.REC.CLEAR_CFG.SLOT)
      let signed := vk.any (fun x => ecdsaVerify x (sha256 (q.auth.take 32)) (q.auth.drop 32))
      let res := if s.clearRun.isSome then 5
        else if beVal (q.auth.take 4) ≠ 0x52434C52 ∨ f 4 8 ≠ s.deviceId ∨ 1 < f 12 1 ∨ f 13 3 ≠ 0 ∨ f 25 7 ≠ 0 then 1
        else if f 20 5 ≠ s.get F.REC.NONCE.NONCE then 2 else if signed = false then 3 else if s.get F.REC.COUNTS.CLEAR = 256 then 4 else 0
      t.get F.REC.CLEAR_STATUS.RESULT = res ∧ t.clears = s.clears.tail ∧
      if res = 0 then t.flag F.REC.CLEAR_STATUS.ERASING = true ∧ t.clearRun.map (fun x => (x.part, x.upto, x.seq)) = some (f 12 1, f 16 4, q.seq)
      else t.clearRun = s.clearRun ∧ t.recs = s.recs)) ∧
    (s.clearRun = some run → Does .clearEraseEnd s (fun t => t.clearRun = none ∧ t.flag F.REC.CLEAR_STATUS.ERASING = false ∧
      t.recs = s.recs.filter (fun x => !(run.holds x.1 && run.covers x.2))))

/-! ### Governors -/

/-- R622–R644, R648–R650: a governor's mode is a warden's to change and a proposal is applied while its target stands; a power sample
steps the clusters, and the junction limit puts all of them at step 3; a core with errors is substituted by its cluster's spare, the comet
pass tests one core after another, and a retest returns a core to service; frames with errors are retired; wear is projected; a code
update begins, is abandoned, or times out. -/
def Obligations.Governors : Prop :=
  ∀ (s : State) (r : Requester) (g : Fin 5) (mode : BitVec 2) (rails : Vector (BitVec 15) 24) (temps : Vector (BitVec 8) 16) (clu lc : Fin 8)
    (phys : Fin 9) (n : Fin 8) (st : Nat) (b : Bool) (frame : BitVec 28) (line : BitVec 34) (slot : Fin 2) (rate : BitVec 24) (c : Cid)
    (ea : Word) (acc : BitVec 2) (q : SubReq) (ct : Comet) (cart : Cartridge),
    let pg := pgGOV + 0x1000 * (g.val + 1)
    let bit2 (t : State) (p : Nat) : Prop := t.flag (F.HDR.PG_INT_STATUS.EVENT p 2) = true
    let logs (t : State) (code : Nat) : Prop := s.intake.length < 60 → (t.intake.drop s.intake.length).any (fun x => x.code == code) = true
    let acted (t : State) (p a : Nat) : Prop := t.get (F.GALL.GSTATUS.ACTIONS p) = (s.get (F.GALL.GSTATUS.ACTIONS p) + 1) %
      2 ^ (F.GALL.GSTATUS.ACTIONS p).len ∧ t.get (F.GALL.GSTATUS.LAST p) = a
    let runs := s.govRuns = true
    let open_ := s.flag F.GHEA.RETIRE_REQ.VALID = true
    let mw := (rails.toList.map BitVec.toNat).sum
    let hot := (temps.toList.map BitVec.toNat).foldl max 0
    let past := s.get F.GPWR.BUDGET.MW < mw ∨ s.get F.GPWR.TJ_LIMIT.C < hot
    let may (m : Nat) : Prop := s.stepOf m < s.get (F.GPWR.CLU_LIMITS.MAXSTEP m)
    let lowest := may n.val ∧ ∀ m : Fin 8, may m.val → s.prioOf n.val < s.prioOf m.val ∨
      s.prioOf n.val = s.prioOf m.val ∧ (s.stepOf n.val < s.stepOf m.val ∨ s.stepOf n.val = s.stepOf m.val ∧ m ≤ n)
    let still := ∀ i : Fin 8, (s.core_ (8 * clu.val + i.val)).sb = []
    let calm := still ∧ s.comet = none ∧ s.cometHeld = none ∧ s.cometBack = none ∧ s.clusterFrozen clu.val = false ∧ s.flag F.DBG.ECL_CFG.REC_EN = false
    let p := s.physOf clu.val lc.val
    let sp := s.spareOf clu.val
    let swapped (t : State) : Prop := t.physOf clu.val lc.val = sp ∧ t.spareOf clu.val = 0xF ∧ (t.core_ (8 * clu.val + lc.val)).tlb = [] ∧
      (t.core_ (8 * clu.val + lc.val)).lines = []
    let free := calm ∧ s.joined clu.val lc.val = false ∧ sp ≠ 0xF ∧ sp < 9 ∧ p < 9
    let out (t : State) : Prop := swapped t ∧ t.failed clu.val p = true ∧ acted t pgGHEA 3 ∧ logs t 0x1703
    let tests (t : State) : Prop := swapped t ∧ t.comet = some ⟨clu.val, lc.val, p, sp, false⟩ ∧ t.flag F.GHEA.COMET_STATUS.ACTIVE = true ∧
      t.get F.GHEA.COMET_STATUS.CLUSTER = clu.val ∧ t.get F.GHEA.COMET_STATUS.PHYS = p ∧ t.get F.GHEA.COMET_STATUS.LOGICAL = lc.val
    let turn := free ∧ s.cometTurn = clu.val ∧ s.enabled (pgClu clu.val) = true ∧ s.cometCore[clu] = lc.val ∧ s.govMode pgGHEA = 1 ∧ runs
    let bad := s.get F.GHEA.RETIRE_REQ.FRAME
    let gone (t : State) (f : Nat) : Prop := f ∈ t.retired ∧ (t.keyByte f).getLsbD 6 = true ∧ t.get F.GHEA.LIST_COUNT.COUNT = t.retired.length
    let closed (t : State) : Prop := s.retireQ = [] → t.flag F.GHEA.RETIRE_REQ.VALID = false ∧ t.get F.GHEA.RETIRE_REQ.FRAME = 0
    let room := s.retired.length < 256 ∧ bad ∉ s.retired
    let stands := s.get F.GOV.UPD_STATUS.STATE
    let half := b2n b
    (s.writable r (R.GALL.GCTRL pg) = true → s.flag (F.GALL.GCTRL.APPLY pg) = false → Does (.modeWrite r g mode) s (fun t =>
      if mode.toNat = s.govMode pg then t.govMode pg = mode.toNat
      else if reqWarden r = false then s.pageErrs t pg 0x11 ∧ t.govMode pg = s.govMode pg
      else if mode = 3 then s.pageErrs t pg 0x13 ∧ t.govMode pg = s.govMode pg else t.govMode pg = mode.toNat ∧ logs t 0x170E)) ∧
    (s.writable r (R.GALL.GCTRL pg) = true → Does (.apply r g) s (fun t =>
      let a := s.get (F.GALL.SUGGEST.ACTION pg)
      let x := s.get (F.GALL.SUGGEST.TARGET pg)
      if a = 0 ∨ tabGet 0 s.sugAt pg ≠ s.targetState a x then s.pageErrs t pg 0x14 ∧ t.reg (R.GALL.SUGGEST pg) = s.reg (R.GALL.SUGGEST pg)
      else if a = 1 then x < 8 → s.get (F.GALL.SUGGEST.VALUE pg) < 4 → t.reg (R.GALL.SUGGEST pg) = 0 ∧
        t.stepOf x = s.get (F.GALL.SUGGEST.VALUE pg) ∧ acted t pgGPWR 1
      else if a = 2 ∧ s.mayStepUp = false ∨ a = 4 ∧ ¬open_ ∨ a = 5 ∧ s.standby x = false then s.pageErrs t pg 0x14
      else a = 7 → t.reg (R.GALL.SUGGEST pg) = 0 ∧ acted t pgGFLO 7)) ∧
    (runs → Does (.powerSample rails temps) s (fun t => t.get F.GPWR.POWER_NOW.MW = mw % 2 ^ F.GPWR.POWER_NOW.MW.len ∧
      t.get F.GPWR.TEMP.HOT = hot ∧ temps[t.get F.GPWR.TEMP.SENSOR]?.map BitVec.toNat = some hot ∧
      if 95 ≤ hot then (∀ m : Fin 8, t.stepOf m.val = 3) ∧ (s.trip = none → t.flag F.GPWR.TEMP.TRIP = true ∧ logs t 0x1702)
      else s.trip = none → if s.govMode pgGPWR = 0 then ∀ m : Fin 8, t.stepOf m.val = s.stepOf m.val
        else past → if s.govMode pgGPWR = 1 then lowest → t.stepOf n.val = s.stepOf n.val + 1 ∧ acted t pgGPWR 1 ∧
            ∀ m : Fin 8, m ≠ n → t.stepOf m.val = s.stepOf m.val
          else (∀ m : Fin 8, t.stepOf m.val = s.stepOf m.val) ∧ (lowest → t.get (F.GALL.SUGGEST.ACTION pgGPWR) = 1 ∧
            t.get (F.GALL.SUGGEST.TARGET pgGPWR) = n.val ∧ t.get (F.GALL.SUGGEST.VALUE pgGPWR) = s.stepOf n.val + 1))) ∧
    (runs → s.pwrUp = some (n.val, st) → st < 4 → s.pmbHold = false → Does .voltageConfirmed s (fun t => t.stepOf n.val = st ∧ t.pwrUp = none ∧
      ∀ m : Fin 8, m ≠ n → t.stepOf m.val = s.stepOf m.val)) ∧
    (runs → Does (.pmbAlert b) s (fun t => t.mayStepUp = false ∧ bit2 t pgGPWR ∧ logs t 0x170D ∧
        ∀ m : Fin 8, t.stepOf m.val = s.stepOf m.val) ∧
      Does .pmbAlertNRelease s (fun t => t.mayStepUp = s.pwrUp.isNone)) ∧
    (runs → s.powered (2 + clu.val) = true → Does (.correctedError clu phys) s (fun t =>
      t.get (F.CORE.CE_COUNT.TOTAL (pgCore clu.val phys.val)) =
        satInc (F.CORE.CE_COUNT.TOTAL (pgCore clu.val phys.val)).len (s.get (F.CORE.CE_COUNT.TOTAL (pgCore clu.val phys.val))) ∧
      (s.serves clu.val phys.val = some lc.val → s.get F.GHEA.CORE_THRESH.COUNT ≤ t.ceWindow clu.val phys.val → s.govMode pgGHEA = 1 →
        ∃ u ∈ t.subs, u.clu = clu.val ∧ u.lc = lc.val ∧ u.phys = phys.val) ∧
      (t.ceWindow clu.val phys.val < s.get F.GHEA.CORE_THRESH.COUNT → t.subs = s.subs))) ∧
    (free → s.subs = [] → runs → validCid c = true → isWardenCid c = false → coreIdx c = 8 * clu.val + lc.val →
      s.coreLive (coreIdx c) = true → s.govMode pgGHEA ≠ 2 → Does (.coreUncorrectable c ea acc) s (fun t => out t ∧ t.subs = [])) ∧
    (free → s.subs = [q] → q.clu = clu.val → q.lc = lc.val → q.phys = p → runs →
      Does (.substitution clu lc) s (fun t => out t ∧ t.subs = []) ∧ Does .substitutionRetry s (fun t => out t ∧ t.subs = [])) ∧
    (calm → s.joined clu.val lc.val = false → sp = 0xF → s.subs = [q] → q.clu = clu.val → q.lc = lc.val → q.phys = p → q.noted = false → runs →
      Does .substitutionRetry s (fun t => t.subs = [{ q with noted := true }] ∧ t.physOf clu.val lc.val = p ∧ logs t 0x1706)) ∧
    (turn → s.flag F.GHEA.COMET_CFG.EN = true → Does .cometStep s tests) ∧
    (s.writable r R.GHEA.COMET_CTRL = true → (turn → s.flag F.GHEA.COMET_CTRL.RUN = false → Does (.run r) s (fun t => tests t ∧
        t.flag F.GHEA.COMET_CTRL.RUN = true)) ∧
      (s.flag F.GHEA.COMET_CTRL.RUN = true → Does (.run r) s (fun t => t.comet = s.comet ∧ t.reg R.GHEA.COMET_CTRL = s.reg R.GHEA.COMET_CTRL))) ∧
    (s.writable r R.GHEA.COMET_CTRL = true → Does (.retest r clu phys) s (fun t => if s.flag F.GHEA.COMET_CTRL.RETEST then t.comet = s.comet
      else if reqWarden r = false then s.pageErrs t pgGHEA 0x11 ∧ t.comet = s.comet
      else if s.comet ≠ none ∨ s.failed clu.val phys.val = false then s.pageErrs t pgGHEA 0x14 ∧ t.comet = s.comet
      else t.flag F.GHEA.COMET_CTRL.RETEST = true ∧ t.flag F.GHEA.COMET_STATUS.ACTIVE = true ∧ t.comet.any (fun w => w.clu == clu.val && w.phys == phys.val && w.retest) = true)) ∧
    (runs → still → s.comet = some ct → ct.clu = clu.val → ct.lc = lc.val → ct.phys = phys.val → ct.spare < 9 →
      (let cp := pgCore clu.val phys.val
       let back (t : State) : Prop := t.physOf clu.val lc.val = phys.val ∧ t.spareOf clu.val = ct.spare
       Does (.selfTestDone b) s (fun t => t.comet = none ∧ t.flag F.GHEA.COMET_STATUS.ACTIVE = false ∧ t.reg R.GHEA.COMET_CTRL = 0 ∧
        t.get (F.CORE.TEST.RESULT cp) = (if b then 1 else 2) ∧ logs t (if b then 0x1704 else 0x1705) ∧
        if b = false then t.failed clu.val phys.val = true ∧ t.physOf clu.val lc.val = p ∧ t.spareOf clu.val = sp
        else if ct.retest then t.failed clu.val phys.val = false ∧ (phys = 8 → t.spareOf clu.val = 8) ∧ (phys.val = lc.val → back t)
        else back t))) ∧
    (s.powered 15 = true → s.frozen none = false → s.trained = true → s.flag F.GHEA.SCRUB_CFG.EN = true → s.inDram (64 * line.toNat) 64 = true →
      Does (.patrolScrub line .uncorrectable) s (fun t => t.ueAt (64 * line.toNat) 64 = true ∧
        (runs → s.govMode pgGHEA ≠ 0 → (s.keyByte (line.toNat / 64)).getLsbD 6 = false → s.flag F.GHEA.RETIRE_REQ.VALID = false →
          t.flag F.GHEA.RETIRE_REQ.VALID = true ∧ t.get F.GHEA.RETIRE_REQ.FRAME = line.toNat / 64 ∧ t.get F.GHEA.RETIRE_REQ.CAUSE = 3 ∧
          bit2 t pgGHEA ∧ logs t 0x1707)) ∧
      Does (.patrolScrub line .none) s (fun t => t = s)) ∧
    (s.writable r R.GHEA.RETIRE_CTRL = true →
      (open_ → room → Does (.confirm r) s (fun t => gone t bad ∧ closed t ∧ logs t 0x1708)) ∧
      (open_ → Does (.decline r) s (fun t => t.retired = s.retired ∧ closed t)) ∧
      (s.flag F.GHEA.RETIRE_REQ.VALID = false → Does (.confirm r) s (fun t => s.pageErrs t pgGHEA 0x14 ∧ t.retired = s.retired) ∧
        Does (.decline r) s (fun t => s.pageErrs t pgGHEA 0x14 ∧ t.retired = s.retired)) ∧
      Does (.retire r frame) s (fun t => if s.keyed (frame.toNat * 4096) = false then s.pageErrs t pgGHEA 0x13 ∧ t.retired = s.retired
        else if frame.toNat ∈ s.retired then t.retired = s.retired
        else if s.retired.length = 256 then s.pageErrs t pgGHEA 0x15 ∧ t.retired = s.retired
        else s.retired.length < 256 → t.retired = s.retired ++ [frame.toNat] ∧ gone t frame.toNat)) ∧
    (runs → s.govMode pgGHEA = 1 → open_ → room → Does .retireGraceExpiry s (fun t => gone t bad ∧ closed t ∧ acted t pgGHEA 4)) ∧
    (s.writable r R.GHEA.LIST_CLEAR = true → Does (.listClear r) s (fun t => if reqWarden r then t.retired = [] ∧ t.get F.GHEA.LIST_COUNT.COUNT = 0
      else s.pageErrs t pgGHEA 0x11 ∧ t.retired = s.retired)) ∧
    (runs → (s.jslot slot.val).cart = some cart → s.crtState slot.val = 4 → s.govMode pgGWEA ≠ 0 → rate ≠ 0 → s.get F.GWEA.ROLL_DAYS.DAYS = 0 →
      Does (.wearProjection slot rate) s (fun t => t.get (F.GWEA.PROJ.RATE slot.val) = rate.toNat % 2 ^ (F.GWEA.PROJ.RATE slot.val).len ∧
        (s.life slot.val ≤ 2 → t.get (F.GWEA.PROJ.DAYS slot.val) = 0))) ∧
    (s.writable r R.GOV.UPD_CTRL = true → reqSup r = true → Does (.updStart r b) s (fun t =>
      let refused (w : Nat) : Prop := t.get F.GOV.UPD_STATUS.REFUSE = w ∧ t.get F.GOV.UPD_STATUS.STATE = if stands = 1 then 1 else 3
      if s.halfCommitted half = false then refused 1 else if s.flag (halfVerified half) = false then refused 2 else if stands = 1 then refused 3
      else if s.flag (halfRunning half) = true then refused 4 else t.get F.GOV.UPD_STATUS.REFUSE = 0 ∧ logs t 0x170A ∧
        if t.updPending = 0 then t.get F.GOV.UPD_STATUS.STATE = 2 ∧ t.flag (halfRunning half) = true ∧ t.flag (halfRunning (1 - half)) = false ∧
          t.flag (F.HDR.PG_INT_STATUS.EVENT pgGOV 1) = true else t.get F.GOV.UPD_STATUS.STATE = 1)) ∧
    (s.writable r R.GOV.UPD_CTRL = true → stands = 1 → Does (.abort r) s (fun t => t.get F.GOV.UPD_STATUS.STATE = 0 ∧ t.ctx = s.ctx)) ∧
    (runs → stands = 1 → Does .updTimeoutExpiry s (fun t => t.get F.GOV.UPD_STATUS.STATE = 1 ∧ bit2 t pgGOV ∧ logs t 0x170C ∧
      t.get F.GOV.UPD_STATUS.PENDING = s.updPending % 2 ^ F.GOV.UPD_STATUS.PENDING.len))

/-! ### Clocks, power, reset and boot -/

/-- R19, R654–R669, R673–R677, R679, R708: a cold reset latches the straps and begins the boot; the ROM selects a half, or waits for one
to be committed; the configuration table and DRAM training end in the release of the clusters and the boot entry; a warm reset keeps
memory, accounts and the code store; the code store is written and committed; domains are switched; clocks are lost and regained; a power
failure leaves the domains of the last gasp. What the registers of the boot entry hold beyond R669 is free (assumption 26). -/
def Obligations.PowerAndBoot : Prop :=
  ∀ (s : State) (r : Requester) (b : Bool) (straps : BitVec 6) (hi : Bool) (h : Fin 2) (n : Fin 20) (which : Fin 3) (v : Word) (j : CstJob)
    (u : Fin 8),
    let logs (t : State) (code : Nat) : Prop := s.intake.length < 40 → (t.intake.drop s.intake.length).any (fun x => x.code == code) = true
    let bit (t : State) (p k : Nat) : Prop := t.flag (F.HDR.PG_INT_STATUS.EVENT p k) = true
    let on (t : State) (k : Nat) : Bool := bitOf (t.get F.CPR.PD_STATUS.POWERED) k
    let up := s.stopped = false
    let src := s.get F.CPR.STRAPS.BOOTSRC
    let c0 : Cid := 0x200
    let rom (t : State) : Prop := t.boot = (if src = 2 then .pcie else .rom) ∧ t.cx c0 = Ctx.init c0 ∧ t.get F.CST.BOOT_STATUS.SOURCE = src ∧
      (t.key 0).length = 32 ∧ (src = 2 → t.trained = true ∧ t.get F.PCI.HOST_KRR.RIGHTS = 2 ∧ t.enabled pgPCI = true)
    let booted (t : State) (ok : Bool) : Prop := t.boot = .config ∧ t.bootHalf = h.val ∧ t.cfgNext = 0 ∧ t.flag (halfRunning h.val) = true ∧
      t.flag (halfRunning (1 - h.val)) = false ∧ t.flag F.SEC.BOOT_STATUS.VERIFIED = ok
    let selects := s.boot = .rom ∧ src = 0 ∨ s.boot = .again
    let first := s.candidate h.val = true ∧ (s.candidate (1 - h.val) = true → s.halfGen (1 - h.val) < s.halfGen h.val ∨
      s.halfGen (1 - h.val) = s.halfGen h.val ∧ h = 0)
    let cores := (List.range 9).filter (bitOf (s.defects u.val))
    let released (t : State) : Prop := t.boot = .done ∧ (t.cx c0).sr = srReset c0 ∧ (t.cx c0).vbr = 0xFFFFF00000 ∧
      (t.cx c0).sps = 0xFE80F10000 ∧ (t.cx c0).btr = btrReset ∧ (t.cx c0).krr = (Ctx.init c0).krr ∧ (t.cx c0).stag = 0 ∧
      (t.cx c0).pc = BitVec.ofNat 40 (halfBase s.bootHalf + s.halfField s.bootHalf 16 5) ∧ logs t 0x1805 ∧
      (if 2 ≤ cores.length then logs t 0x1808 else on t (2 + u.val) = true ∧ t.stepOf u.val = 0 ∧ t.enabled (pgClu u.val) = true) ∧
      t.spareOf u.val = s.spareOf u.val ∧ ∀ l : Fin 8, t.physOf u.val l.val = s.physOf u.val l.val
    let fuses (t : State) : Prop := t.spareOf u.val = (if s.defects u.val = 0 then 8 else 15) ∧
      ∀ l : Fin 8, t.physOf u.val l.val = (if bitOf (s.defects u.val) l.val then 8 else l.val)
    let entry := s.cfgEntry s.cfgNext
    let gasp (t : State) : Prop := t.stopped = true ∧ t.flag F.CPR.RST_CAUSE.LG_DONE = false ∧ bit t pgCPR 1 ∧ logs t 0x1801 ∧ t.jstate = 6 ∧
      t.get F.DBG.ECL_STATUS.STATE ≠ 1 ∧ t.cst = none ∧ t.comet = none ∧
      (∀ k : Fin 20, on t k.val = ((k == 0 || k == 1 || k == 13 || k == 19) && on s k.val))
    let falls := up ∧ s.boot ≠ .hold
    let half := s.get F.CST.WR_DST.HALF
    let off := s.get F.CST.WR_DST.OFFSET
    let len := s.get F.CST.WR_LEN.BYTES
    let from_ := s.get F.CST.WR_SRC.ADDR
    let busy := s.flag F.CST.WR_STATUS.BUSY
    let handing := s.get F.GOV.UPD_STATUS.STATE = 1
    let refused (t : State) (k : Nat) : Prop := t.get F.CST.WR_STATUS.RESULT = k ∧ s.pageErrs t pgCST 0x10 ∧ t.cst = s.cst
    let top := halfBase j.half + 4092
    let ended (t : State) : Prop := t.flag F.CST.WR_STATUS.BUSY = false ∧ t.flag F.CST.WR_CTRL.START = false ∧
      t.flag F.CST.WR_CTRL.COMMIT = false ∧ t.cst = none
    let hc := b2n b
    let idle (k : Nat) : Bool := s.pdIdle k
    let turns (k : Nat) : Bool := bitOf (s.get F.CPR.PD_CTRL.ON) k != bitOf v.toNat k
    let may := reqSup r = true ∧ ∀ k : Fin 20, turns k.val = true → (pdSwitched k.val && (bitOf v.toNat k.val || idle k.val)) = true
    Does (.porst b straps hi) s (fun t => t.get F.CPR.RST_CAUSE.CAUSE = (if b then 0 else 1) ∧ t.reg R.CPR.STRAPS = straps.setWidth 40 ∧
      t.get F.TLY.SELF.ID = straps.toNat % 8 ∧ t.flag F.CPR.PFAIL.LEVEL = hi ∧ t.boot = (if hi then .pll else .hold) ∧ t.stopped = false ∧
      t.flag F.CPR.RST_CAUSE.LG_CUT = (s.stopped && !s.flag F.CPR.RST_CAUSE.LG_DONE) ∧ t.ctx = [] ∧ t.core = [] ∧ t.queues = [] ∧
      t.retired = s.retired ∧ (s.clearRun = none → t.recs = s.recs) ∧ t.reg R.GPWR.BUDGET = resetValue R.GPWR.BUDGET ∧
      t.reg R.SEC.DEFECT_LO = s.reg R.SEC.DEFECT_LO ∧ fuses t ∧ t.reg R.GPIO.GP_BANK &&& 0x555555 = t.reg R.GPIO.GP_BANK ∧ t.pending = s.pending) ∧
    Does .pfailNHigh s (fun t => t.flag F.CPR.PFAIL.LEVEL = true ∧ t.boot = if s.boot = .hold then .pll else s.boot) ∧
    (up → s.boot = .pll → Does .pllLock s (fun t => t.flag F.CPR.CLK_STATUS.LOCKED = true ∧ rom t ∧
      (∀ k : Fin 20, (k = 0 ∨ k = 1 ∨ k = 10 ∨ k = 14 ∨ k = 19) → on t k.val = true) ∧ t.mem = s.mem)) ∧
    (up → s.boot = .pcie → Does .pcieBootTimeout s (fun t => t = { s with boot := .rom })) ∧
    (up → selects → first → Does .bootVerify s (fun t =>
      if s.imageCheck (s.halfImg h.val) = 0 then booted t true ∧ t.get F.SEC.BOOT_STATUS.KEY = s.halfKey h.val
      else s.candidate (1 - h.val) = false → logs t 0x1A02 ∧ if s.flag F.SEC.BOOT_STATUS.ENFORCE then t.boot = .recovery else booted t false)) ∧
    (up → selects → s.candidate 0 = false → s.candidate 1 = false → Does .bootVerify s (fun t => t.boot = .recovery ∧
      t.flag F.CST.BOOT_STATUS.RECOVERY = true ∧ logs t 0x1807 ∧ t.trained = true ∧ t.enabled pgPCI = true)) ∧
    (up → s.boot = .recovery → Does .bootFlashRecheck s (fun t =>
      if headerOk s.flashImg = true ∧ s.imageCheck s.flashImg = 0 ∧
          ∀ k : Fin 2, s.halfCommitted k.val = true → s.halfGen k.val < leVal (s.flashImg 8 4)
      then t.boot = .again ∧ t.flag F.CST.BOOT_STATUS.FLASHED = true ∧ bit t pgCST 1 ∧ bit t pgCST 2 ∧ logs t 0x1501 ∧ logs t 0x1502
      else t = s)) ∧
    (up → s.boot = .config → s.frozen none = false →
      (s.cfgCount ≤ s.cfgNext → Does .configTableApply s (fun t => (∀ k ∈ stepFive, on t k = true) ∧
        if s.trained then released t else t.boot = .train)) ∧
      (s.cfgCount = s.cfgNext + 1 → s.trained = false → Does .configTableApply s (fun t => t.boot = .train ∧ t.cfgNext = s.cfgCount ∧
        (entry.zero = false ∨ 2 < entry.op → logs t 0x1803 ∧
          t.get F.CST.BOOT_STATUS.CFG_ERRS = satInc F.CST.BOOT_STATUS.CFG_ERRS.len (s.get F.CST.BOOT_STATUS.CFG_ERRS)) ∧
        (entry.zero = true → entry.op = 0 → entry.addr = R.GPWR.BUDGET → s.writable (.ctx c0 3) R.GPWR.BUDGET = true →
          if 20000 ≤ entry.value % 2 ^ 17 ∧ entry.value % 2 ^ 17 ≤ 80000 then t.get F.GPWR.BUDGET.MW = entry.value % 2 ^ 17
          else s.pageErrs t pgGPWR 0x13 ∧ logs t 0x1803)))) ∧
    (up → s.boot = .train → Does .ddrTrainDone s (fun t => t.trained = true ∧ if s.cfgNext < s.cfgCount then t.boot = .config else released t)) ∧
    (up → (s.boot = .done ∨ s.boot = .config) → s.get F.DBG.ECL_STATUS.STATE ≠ 1 →
      (let began (t : State) (cause : Nat) : Prop := t.boot = .warm ∧ t.get F.CPR.RST_CAUSE.CAUSE = cause ∧ t.remoteOps = [] ∧
        ∀ o ∈ t.jr.batch, o.count ≠ 0 → o.close.isSome = true
       Does .wrst s (fun t => began t 2) ∧
       (s.writable r R.CPR.RST_CTRL = true → Does (.warm r) s (fun t => if reqWarden r then began t 3 else s.pageErrs t pgCPR 0x11 ∧
        t.boot = s.boot)))) ∧
    (s.boot = .warm → s.journalSettled = false → Does .warmResetResume s (fun t => t = s)) ∧
    (s.boot = .warm → s.journalSettled = true → s.cst = none → Does .warmResetResume s (fun t => rom t ∧ t.warmBoot = true ∧ t.mem = s.mem ∧ t.acct = s.acct ∧ t.retired = s.retired ∧
      t.queues = [] ∧ t.own = [] ∧ t.reg R.GPWR.BUDGET = s.reg R.GPWR.BUDGET ∧ t.reg R.CPR.STRAPS = s.reg R.CPR.STRAPS ∧
      (∀ c : Cid, c ≠ c0 → t.cx c = Ctx.init c) ∧ t.reg R.CPR.CLK_STATUS = s.reg R.CPR.CLK_STATUS)) ∧
    ((s.flag F.CPR.CLK_STATUS.LOCKED = true → s.flag F.CPR.CLK_STATUS.HOLDOVER = false → Does (.refclkLoss b) s (fun t =>
        t.flag F.CPR.CLK_STATUS.HOLDOVER = true ∧ t.flag F.CPR.CLK_STATUS.LOCKED = false ∧ bit t pgCPR 2 ∧ logs t 0x1804 ∧
        t.refClk 0 = (s.refClk 0 && !b))) ∧
      (s.flag F.CPR.CLK_STATUS.HOLDOVER = true → Does .lockRegain s (fun t => t.flag F.CPR.CLK_STATUS.HOLDOVER = false ∧
        t.flag F.CPR.CLK_STATUS.LOCKED = true ∧ bit t pgCPR 2 ∧ logs t 0x1804 ∧ t.refClk 0 = true)) ∧
      Does (.serialReferenceChange which hi) s (fun t => t.refClk (which.val + 1) = hi ∧ ∀ k : Fin 4, k.val ≠ which.val + 1 →
        t.refClk k.val = s.refClk k.val)) ∧
    (s.writable r R.CPR.PD_CTRL = true →
      (may → Does (.pdSwitch r v) s (fun t => t.get F.CPR.PD_CTRL.ON = v.toNat % 2 ^ 20 ∧ t.mem = s.mem ∧
        ∀ k : Fin 20, on t k.val = (on s k.val && !(turns k.val && !bitOf v.toNat k.val)))) ∧
      (¬ may → Does (.pdSwitch r v) s (fun t => s.pageErrs t pgCPR 0x10 ∧ t.get F.CPR.PD_CTRL.ON = s.get F.CPR.PD_CTRL.ON ∧
        t.get F.CPR.PD_STATUS.POWERED = s.get F.CPR.PD_STATUS.POWERED))) ∧
    (pdSwitched n.val = true → bitOf (s.get F.CPR.PD_CTRL.ON) n.val = true → s.powered n.val = false → up → s.boot = .done →
      Does (.pdOnDone n) s (fun t => on t n.val = true ∧ (n.val = 2 + u.val → t.enabled (pgClu u.val) = false ∧ fuses t ∧
        ∀ i : Fin 64, t.cx (BitVec.ofNat 12 (64 * u.val + i.val)) = Ctx.init (BitVec.ofNat 12 (64 * u.val + i.val))))) ∧
    (s.writable r R.CST.WR_CTRL = true →
      Does (.codeStoreWrite r b) s (fun t => if s.flag (halfRunning half) then refused t 1 else if handing then refused t 2
        else if len < 64 ∨ 0x1000000 < off + len ∨ from_ % 64 ≠ 0 ∨ off % 64 ≠ 0 ∨ len % 64 ≠ 0 then refused t 3
        else if b = false ∧ s.inDram from_ len = false then refused t 4 else if busy then refused t 5
        else t.flag F.CST.WR_STATUS.BUSY = true ∧ t.flag F.CST.WR_CTRL.START = true ∧ t.halfCommitted half = false ∧ t.flag (halfVerified half) = false ∧
          t.cst = some ⟨false, half, from_, b, off, len⟩) ∧
      Does (.codeStoreCommit r b) s (fun t => if reqWarden r = false ∧ r ≠ .engine ∧ ¬(r = .host ∧ (s.boot = .pcie ∨ s.boot = .recovery)) then
          s.pageErrs t pgCST 0x11 ∧ t.cst = s.cst
        else if s.flag (halfRunning hc) then refused t 1 ∧ logs t 0x1502 else if handing then refused t 2 ∧ logs t 0x1502
        else if busy then refused t 5 ∧ logs t 0x1502
        else t.flag F.CST.WR_STATUS.BUSY = true ∧ t.flag F.CST.WR_CTRL.COMMIT = true ∧ t.cst.map (fun x => (x.commit, x.half)) = some (true, hc))) ∧
    (s.live pgCST = true → s.cst = some j → j.half < 2 → (j.commit = false → j.dst + j.len ≤ 0x1000000 → Does .codeStoreWriteDone s (fun t =>
        ended t ∧ t.get F.CST.WR_STATUS.RESULT = 0 ∧ bit t pgCST 1 ∧ logs t 0x1501 ∧ t.halfCommitted j.half = false ∧
        ∀ a, if top ≤ a ∧ a < top + 4 then t.byte a = 0
          else if halfBase j.half + j.dst ≤ a ∧ a < halfBase j.half + j.dst + j.len then
            some (t.byte a) = (s.cstSource j j.len)[a - (halfBase j.half + j.dst)]?
          else t.byte a = s.byte a)) ∧
      (j.commit = true → Does .codeStoreCommitDone s (fun t => ended t ∧ bit t pgCST 2 ∧ logs t 0x1502 ∧
        if headerOk (s.halfImg j.half) = false then t.get F.CST.WR_STATUS.RESULT = 6 ∧ t.mem = s.mem
        else if s.imageCheck (s.halfImg j.half) ≠ 0 then t.get F.CST.WR_STATUS.RESULT = 7 ∧ t.mem = s.mem ∧ logs t 0x1A02
        else t.get F.CST.WR_STATUS.RESULT = 0 ∧ t.halfCommitted j.half = true ∧ t.flag (halfVerified j.half) = true ∧
          t.boot = if s.boot = .pcie ∨ s.boot = .recovery then .again else s.boot))) ∧
    (falls → Does .pfailEdge s (fun t => gasp t ∧ t.flag F.CPR.PFAIL.LEVEL = false) ∧
      (s.flag F.CPR.CLK_STATUS.HOLDOVER = true → Does .holdoverExpiry s gasp)) ∧
    (s.stopped = true → s.flag F.CPR.RST_CAUSE.LG_DONE = false → Does .lastGaspEnd s (fun t => t.get F.CPR.PD_STATUS.POWERED = 1 ∧
      t.flag F.CPR.RST_CAUSE.LG_DONE = true ∧ t.mem = s.mem))

/-! ### Eclipse and debug -/

/-- R683–R695, R698–R700, R702, R703: each trigger of a full eclipse freezes the device once; a partial eclipse stops one cluster with its
store buffers empty; a thaw through the access port ends either, and one by a register ends a partial one; the access port's instructions act while the port is open, and as BYPASS otherwise; the dump
chain shows the registers of a page; a SKIP exempts an instruction from the comparators; trace records go to the ring, which wraps or stops
full. The pins a boundary scan captures are free (assumption 27). -/
def Obligations.EclipseAndDebug : Prop :=
  ∀ (s : State) (r : Requester) (clu : Fin 8) (l : Fin 8) (c : Cid) (cells : List Bool) (v : Word) (b : Bool) (off : Byte) (code : Byte)
    (i : Fin 512) (row : RegRow) (cause : Nat) (rd : List Byte) (rest : List (List Byte)),
    let logs (t : State) (code : Nat) : Prop := s.intake.length < 40 → (t.intake.drop s.intake.length).any (fun x => x.code == code) = true
    let bit (t : State) (p k : Nat) : Prop := t.flag (F.HDR.PG_INT_STATUS.EVENT p k) = true
    let st (t : State) : Nat := t.get F.DBG.ECL_STATUS.STATE
    let runs := st s ≠ 1 ∧ s.eclWait = none ∧ s.stopped = false
    let froze (t : State) (why : Nat) : Prop := st t = 1 ∧ t.get F.DBG.ECL_STATUS.CAUSE = why ∧ logs t 0x1901 ∧ t.ctx = s.ctx ∧ t.mem = s.mem ∧
      t.get F.DBG.ECL_STATUS.FREEZES = satInc F.DBG.ECL_STATUS.FREEZES.len (s.get F.DBG.ECL_STATUS.FREEZES) ∧
      t.eclOut = s.eclOut + b2n (s.flag F.DBG.ECL_CFG.OUT_EN)
    let ctl := s.writable r R.DBG.ECL_CTRL = true
    let full (t : State) : Prop := st t = (if s.eclPart.isSome then 2 else 0) ∧ bit t pgDBG 1 ∧ logs t 0x1902 ∧ t.ctx = s.ctx ∧ t.mem = s.mem ∧
      ∀ k : Fin 64, s.flag (F.CH.CH_CTRL.ENABLE (pgCh k.val)) = true →
        t.get (F.CH.CH_STATUS.STATE (pgCh k.val)) = if s.flag (F.CH.SEAL_STATUS.CAL_VALID (pgCh k.val)) then 1
          else if s.sealOpen k.val then 4 else 0
    let part (t : State) : Prop := st t = 0 ∧ t.eclPart = none ∧ bit t pgDBG 1 ∧ logs t 0x1902
    let calm := s.flag F.DBG.ECL_CFG.REC_EN = false ∧ s.heldReset = none ∧ s.cometBack = none
    let bitOut (k : Byte) (t : State) : Prop := t = { s with tapIr := k, free := s.free + 1, tapOut := t.tapOut } ∧ t.tapOut.toNat < 2
    let open_ := s.tapOpen = true
    let shut (k : Byte) (t : State) : Prop := t = { s with tapIr := k, tapOut := 0 }
    let reg := pgDBG + 8 * off.toNat
    let size := 2 ^ s.get F.DBG.TR_SIZE.LOG2
    let at_ := s.get F.DBG.TR_PTR.BYTES
    let ring := 4096 * s.get F.DBG.TR_BASE.BASE
    (Does .eclipseN s (fun t => if s.flag F.DBG.ECL_CFG.PIN_EN then runs → froze t 1 else t = s)) ∧
    (ctl → runs → Does (.freeze r) s (fun t => if reqWarden r then froze t 2 else s.pageErrs t pgDBG 0x11 ∧ st t = st s)) ∧
    (st s = 1 → s.flag F.DBG.ECL_CFG.PIN_EN = true → Does .eclipseN s (fun t => t = s)) ∧
    (ctl → runs → Does (.partialFreeze r clu) s (fun t =>
      if reqWarden r = false then s.pageErrs t pgDBG 0x11 ∧ t.eclWait = none else if s.eclPart.isSome then s.pageErrs t pgDBG 0x12 ∧ t.eclWait = none
      else if s.enabled (pgClu clu.val) = false then s.pageErrs t pgDBG 0x13 ∧ t.eclWait = none
      else s.powered (2 + clu.val) = true → t.eclWait = some (clu.val, 2) ∧ t.flag F.DBG.ECL_CTRL.PARTIAL = true)) ∧
    (st s ≠ 1 → s.eclWait = some (clu.val, cause) → s.readsLanded clu.val = false → Does .partialFreezeDone s (fun t => t = s)) ∧
    (st s ≠ 1 → s.eclWait = some (clu.val, cause) → cause < 8 → s.flag F.DBG.ECL_CFG.REC_EN = false → s.readsLanded clu.val = true →
      (∀ k : Fin 8, ∀ e ∈ (s.core_ (8 * clu.val + k.val)).sb, s.regionOf e.cid e.addr = .dram) →
      (Does .partialFreezeDone s (fun t => st t = 2 ∧ t.get F.DBG.ECL_STATUS.PCLUSTER = clu.val ∧ t.eclWait = none ∧
        t.get F.DBG.ECL_STATUS.CAUSE = cause ∧ t.eclPart = some clu.val ∧ t.reg R.DBG.ECL_CTRL = 0 ∧ logs t 0x1901 ∧
        (s.inval = [] → s.ue = [] → (t.core_ (8 * clu.val + l.val)).sb = [])))) ∧
    (st s = 1 → Does (.thaw r) s (fun t => t = s)) ∧
    (ctl → calm → reqWarden r = true → (st s ≠ 1 → s.eclPart.isSome = true → Does (.thaw r) s part) ∧
      (st s ≠ 1 → s.eclPart = none → Does (.thaw r) s (fun t => s.pageErrs t pgDBG 0x14 ∧ t.ctx = s.ctx))) ∧
    (calm → open_ → (runs → Does (.tapFreeze true) s (fun t => froze t 5 ∧ t.tapIr = 0x12)) ∧
      Does (.tapFreeze false) s (bitOut 0x12) ∧ Does (.tapThaw false) s (bitOut 0x13) ∧
      (st s = 1 → s.dbgDue = false → Does (.tapThaw true) s (fun t => full t ∧ t.tapIr = 0x13)) ∧
      (st s ≠ 1 → s.eclPart.isSome = true → s.dbgDue = false → Does (.tapThaw true) s (fun t => part t ∧ t.tapIr = 0x13))) ∧
    (s.tapOpen = false → Does (.tapFreeze b) s (shut 0x12) ∧ Does (.tapThaw b) s (shut 0x13) ∧ Does (.dumpPtr v) s (shut 0x10) ∧
      Does .dump s (shut 0x11) ∧ Does (.dbgreg off b v) s (shut 0x14)) ∧
    (Does .tapReset s (fun t => t = { s with tapIr := 1 }) ∧
      Does (.extest cells) s (fun t => t.tapIr = 0 ∧ t.bsr = cells ∧ t.ctx = s.ctx ∧ t.creg = s.creg) ∧
      Does (.samplePreload cells) s (fun t => t.tapIr = 2 ∧ t.bsr = cells ∧ t.ctx = s.ctx ∧ t.creg = s.creg) ∧
      Does .idcode s (fun t => t.tapIr = 1 ∧
        t.tapOut.toNat = 0x0644038F + 2 ^ 28 * (s.get (F.HDR.PG_ID.VERSION pgSYS) % 16)) ∧
      (3 ≤ code.toNat → code.toNat ≠ 0x10 → code.toNat ≠ 0x11 → code.toNat ≠ 0x12 → code.toNat ≠ 0x13 → code.toNat ≠ 0x14 →
        Does (.bypass code) s (shut code))) ∧
    (open_ → Does (.dumpPtr v) s (fun t => t = { s with tapIr := 0x10, tapPtr := v, tapOut := s.tapPtr.setWidth 50 }) ∧
      (Does .dump s (fun t => t = { s with tapIr := 0x11, tapPtr := s.tapPtr + 1, tapOut := t.tapOut, free := s.free + 1 } ∧
        (getF (s.reg R.DBG.DUMP_SEL) 0 3 = 0 → t.tapOut = if s.tapPtr = 0 then 1 else 0) ∧
        (bitOf (getF (s.reg R.DBG.DUMP_SEL) 0 3) 0 = true → s.powered (domainOf pgSYS) = true → rowOf .sys (8 * i.val) = some row →
          s.tapPtr.toNat = 3 + i.val → t.tapOut = (s.regValue .engine .sys (pgSYS + 8 * i.val)).setWidth 50))) ∧
      (Does (.dbgreg off b v) s (fun t => t.tapIr = 0x14 ∧ t.tapOut.getLsbD 49 = true ∧ t.tapOut.extractLsb' 0 8 = off ∧ t.tapOut.getLsbD 8 = b ∧
        (b = false → reg = R.DBG.TR_BASE → s.gate .engine .dbg R.DBG.TR_BASE false = .pass → t.tapOut.extractLsb' 9 40 = s.reg R.DBG.TR_BASE) ∧
        (b = true → reg = R.DBG.TR_BASE → s.writable .engine R.DBG.TR_BASE = true → t.get F.DBG.TR_BASE.BASE = v.toNat / 4096)))) ∧
    (s.reaches r R.DBG.PDUMP_DATA = true → s.powered 0 = true → s.gate r .dbg R.DBG.PDUMP_DATA false = .pass →
      Does (.pdumpDataRead r) s (fun t => t = if reqWarden r && s.eclPart.isSome then
        { s.setReg R.DBG.PDUMP_PTR (s.reg R.DBG.PDUMP_PTR + 1) with free := s.free + 1 } else s)) ∧
    (s.writable r R.DBG.SKIP = true → validCid c = true → Does (.skip r c) s (fun t => (t.cx c).skip = true ∧ t.mem = s.mem)) ∧
    (s.traceRuns = true → s.traceq = rd :: rest → rd.length = 16 → at_ + 16 ≤ size → s.traceSince < 65535 → s.traceLost = 0 → s.traceOwed = false →
      Does .traceRecord s (fun t => t.traceq = rest ∧ t.bytes (ring + at_) 16 = rd ∧ t.get F.DBG.TR_PTR.BYTES = (at_ + 16) % size ∧
        (∀ a, a < ring + at_ ∨ ring + at_ + 16 ≤ a → t.byte a = s.byte a) ∧
        if at_ + 16 = size ∧ s.flag F.DBG.TR_CTRL.STOP_FULL = true then t.flag F.DBG.TR_CTRL.EN = false ∧ t.flag F.DBG.TR_STATUS.FULL = true ∧ bit t pgDBG 2
        else t.flag F.DBG.TR_CTRL.EN = s.flag F.DBG.TR_CTRL.EN)) ∧
    (s.writable r R.DBG.TR_CTRL = true → s.flag F.DBG.TR_CTRL.EN = false → Does (.traceEnable r v) s (fun t =>
      if s.ringOk then t.flag F.DBG.TR_CTRL.EN = true ∧ t.flag F.DBG.TR_STATUS.FULL = false
      else s.pageErrs t pgDBG 0x12 ∧ t.flag F.DBG.TR_CTRL.EN = false))

/-! ### The machine -/

/-- A step performs the command at the front of the queue on the state with the rest of the queue; on an empty queue one tick of idle time
passes and the queue stays empty, which is the model's choice (assumption 1). -/
def Obligations.StepRunsFront : Prop :=
  ∀ (i : Instr) (s : State) (rest : List Instr),
    (s.pending = i :: rest → step s = exec i { s with pending := rest }) ∧
    (s.pending = [] → ∃ t, step s = .next t ∧ t.pending = [] ∧ t.ticks = s.ticks + 1 ∧ t.mem = s.mem ∧ t.ctx = s.ctx)

/-- R37, R99, R104, R265, R301, R310, R323, R433, R661: what reset leaves: every page register at its reset value, every context halted but
warden context 0 of warden core 0, which is at vector 0 with SR as R99 gives it, BTR7 the identity map, the others invalid, every KRR
right granted; no queue, no claim, no job; no command waits. -/
def Obligations.ResetState : Prop :=
  ∀ (c : Cid) (a n : Nat),
    let s := State.reset
    let x := s.cx c
    s.pending = [] ∧ s.reg a = resetValue a ∧ s.frozen none = false ∧ s.stopped = false ∧
    (c ≠ 0x200 → x.run = .halted) ∧ (s.cx 0x200).run = .running ∧ (s.cx 0x200).pc = 0xFFFFF00000 ∧
    (isWardenCid c = true → x.sr = 0x460100) ∧ (isWardenCid c = false → validCid c = true → x.sr = 0x420100) ∧
    x.btr[7] = { vbase := 0, size := 0xFFFFFF, pbase := 0, attr := 0x31 } ∧ x.stag = 0 ∧ x.krr = 0xFFFFFFFF ∧
    (s.queue n).valid = false ∧ s.claimOf (n % 3) (n / 3) = OwnRec.free ∧ (∀ ch : Fin 4, s.jobs[ch].run = false) ∧
    s.get F.GPWR.BUDGET.MW = 60000 ∧ s.get F.GPWR.TJ_LIMIT.C = 90 ∧ Memory.wf s.mem = true

/-- Memory keeps its canonical form through every step: addresses strictly rising, and no byte listed that reads as an unlisted one
does. The form is the model's own (assumption 2). -/
def Obligations.EveryStepKeepsMemoryForm : Prop :=
  ∀ (s t : State), Memory.wf s.mem = true → step s = .next t → Memory.wf t.mem = true

/-- R118–R123, R131 and the encoding rule of each group: the word of a well-formed instruction decodes to it, with every operand at every
value; and a word that decodes is the word of the instruction it decodes to, which is well formed. -/
def Obligations.EncodeDecode : Prop :=
  ∀ (i : Instr) (c : Cid) (w : Word),
    (i.wellFormed = true → i.issuer = some c → wordOf i = some w → decodeWord c w = some (asHit i)) ∧
    (validCid c = true → decodeWord c w = some i → wordOf i = some w ∧ i.issuer = some c ∧ i.wellFormed = true ∧ asHit i = i)

/-- R34, R38, R41, R43, R48, R727: no requester but a warden context changes a locked page: its write leaves every register, every context and
memory as they were, but for the error that the page records, code 0x02 unless an earlier test of R727 holds. A requester that may reach the
page still clears bits of its PG_INT_STATUS, and clearing ERR re-arms PG_ERR_SYNDROME. -/
def Obligations.LockedPages : Prop :=
  ∀ (s : State) (r : Requester) (a v : Word) (k : PageKind) (b : Nat),
    let p := pageBase a.toNat
    let off := a.toNat % 4096
    let key := s.get (F.HDR.PG_LOCK.KEY p)
    let reaches : Prop := s.canReach r = true ∧ s.powered (domainOf p) = true ∧ s.region a.toNat = .control ∧ 2 ≤ s.reqRight r key
    a.toNat % 8 = 0 → pageOf a.toNat = some k → inWindow a.toNat = false → s.flag (F.HDR.PG_LOCK.LOCK p) = true → reqWarden r = false →
      s.dbgDue = false → (s.canReach r = true → s.reaches r a.toNat = true) →
      (off ≠ 0x20 → off ≠ 0x30 → Does (.registerWrite r a v) s (fun t =>
        t.mem = s.mem ∧ t.ctx = s.ctx ∧ t.pending = s.pending ∧
        (b ≠ R.HDR.PG_INT_STATUS p → b ≠ R.HDR.PG_ERR_SYNDROME p → t.reg b = s.reg b) ∧
        (reaches →
          if s.pageHeld p then s.pageErrs t p 6
          else (rowOf k off = none → s.pageErrs t p 4) ∧ ∀ row, rowOf k off = some row →
            if row.expert = true ∧ s.flag (F.HDR.PG_CTRL.EXPERT p) = false then s.pageErrs t p 1 else s.pageErrs t p 2))) ∧
      (off = 0x20 → reaches → s.pageHeld p = false → Does (.registerWrite r a v) s (fun t =>
        t.reg (R.HDR.PG_INT_STATUS p) = s.reg (R.HDR.PG_INT_STATUS p) &&& ~~~(v &&& 0xFFFFFFFF#40) ∧
        (v.getLsbD 0 = true → t.flag (F.HDR.PG_INT_STATUS.ERR p) = false ∧ t.flag (F.HDR.PG_ERR_SYNDROME.OVF p) = false)))
end

