-- ==== Sys2Proof/Laws/Flags.lean ====
section
/-! SUPPORT. The arithmetic functions against the meanings of their flags: binary adds and subtracts (R145), decimal digits
(R53–R55, R146). -/

namespace Sys2Proof.Machine

/-! ### Binary -/

theorem testBit_top (v : Nat) (k : Nat) (h : v < 2 ^ (k + 1)) : v.testBit k = decide (2 ^ k ≤ v) := by
  rw [Nat.testBit_eq_decide_div_mod_eq]
  have h2 : v / 2 ^ k < 2 := by
    rw [Nat.div_lt_iff_lt_mul (Nat.two_pow_pos k)]
    omega
  rw [Nat.mod_eq_of_lt h2]
  by_cases hk : 2 ^ k ≤ v
  · have : 1 ≤ v / 2 ^ k := (Nat.le_div_iff_mul_le (Nat.two_pow_pos k)).mpr (by omega)
    simp [hk]; omega
  · have : v / 2 ^ k = 0 := Nat.div_eq_of_lt (by omega)
    simp [hk, this]

theorem bitOf_eq (v i : Nat) : bitOf v i = v.testBit i := by
  rw [Nat.testBit_eq_decide_div_mod_eq, bitOf]
  by_cases h : v / 2 ^ i % 2 = 1 <;> simp [h]

/-- Overflow of a sum of two's-complement numbers, by the top bits of the operands and of the sum. -/
theorem overflow_iff (P a b cin r : Nat) (sa sb : Int) (ha : a < 2 * P) (hb : b < 2 * P) (hc : cin ≤ 1) (hr : r < 2 * P)
    (hs : r = a + b + cin ∨ r + 2 * P = a + b + cin) (hsa : (a < P ∧ sa = a) ∨ (P ≤ a ∧ sa = a - 2 * P))
    (hsb : (b < P ∧ sb = b) ∨ (P ≤ b ∧ sb = b - 2 * P)) :
    ((P ≤ a ↔ P ≤ b) ∧ ¬ (P ≤ r ↔ P ≤ a)) ↔ ¬ (-(P : Int) ≤ sa + sb + cin ∧ sa + sb + cin < P) := by
  omega

theorem sint_cases (k v : Nat) (h : v < 2 ^ (k + 1)) :
    (v < 2 ^ k ∧ sint (k + 1) v = v) ∨ (2 ^ k ≤ v ∧ sint (k + 1) v = v - 2 * (2 ^ k : Nat)) := by
  simp only [sint, Nat.mod_eq_of_lt h, Nat.add_sub_cancel]
  rcases Nat.lt_or_ge v (2 ^ k) with h1 | h1
  · simp [h1]
  · right
    refine ⟨h1, ?_⟩
    rw [if_neg (by omega), Nat.pow_succ]
    omega

/-- The flags of an add are what R145 says they mean. -/
theorem flagsAdd_add (w : Nat) (hw : w = 40 ∨ w = 80) (sr : Word) (a b cin : Nat) (hc : cin ≤ 1) :
    flagsAdd w sr (addBinary w a b cin) = addSr w sr (a % 2 ^ w) (b % 2 ^ w) cin := by
  have key : ∀ k a' b' : Nat, a' < 2 ^ (k + 1) → b' < 2 ^ (k + 1) →
      (topBit (k + 1) a' == topBit (k + 1) b' && topBit (k + 1) ((a' + b' + cin) % 2 ^ (k + 1)) != topBit (k + 1) a') =
        !inRange (k + 1) (sint (k + 1) a' + sint (k + 1) b' + cin) := by
    intro k a' b' ha hb
    have hr := Nat.mod_lt (a' + b' + cin) (Nat.two_pow_pos (k + 1))
    have hP2 : 2 ^ (k + 1) = 2 * 2 ^ k := by omega
    have hm : (a' + b' + cin) % 2 ^ (k + 1) = a' + b' + cin ∨ (a' + b' + cin) % 2 ^ (k + 1) + 2 * 2 ^ k = a' + b' + cin := by
      rcases Nat.lt_or_ge (a' + b' + cin) (2 ^ (k + 1)) with h | h
      · left; exact Nat.mod_eq_of_lt h
      · right; rw [Nat.mod_eq_sub_mod h, Nat.mod_eq_of_lt (by omega)]; omega
    have ho := overflow_iff (2 ^ k) a' b' cin _ _ _ (by omega) (by omega) hc (by omega) hm (sint_cases k a' ha)
      (sint_cases k b' hb)
    rw [Bool.eq_iff_iff]
    simp only [topBit, Nat.add_sub_cancel, bitOf_eq, testBit_top _ _ ha, testBit_top _ _ hb, testBit_top _ _ hr, inRange,
      Bool.and_eq_true, beq_iff_eq, decide_eq_decide, bne_iff_ne, ne_eq, Bool.not_eq_true', Bool.and_eq_false_iff,
      decide_eq_false_iff_not]
    rw [ho, Decidable.not_and_iff_not_or_not]
  have main : ∀ k, w = k + 1 → flagsAdd w sr (addBinary w a b cin) = addSr w sr (a % 2 ^ w) (b % 2 ^ w) cin := by
    intro k hk
    subst hk
    have ha := Nat.mod_lt a (Nat.two_pow_pos (k + 1))
    have hb := Nat.mod_lt b (Nat.two_pow_pos (k + 1))
    have hs : ∀ v, sint (k + 1) (v % 2 ^ (k + 1)) = sint (k + 1) v := by intro v; simp [sint]
    have ht : ∀ v, topBit (k + 1) (v % 2 ^ (k + 1)) = topBit (k + 1) v := by
      intro v; simp [topBit, bitOf_eq, Nat.testBit_mod_two_pow]
    have hk := key k (a % 2 ^ (k + 1)) (b % 2 ^ (k + 1)) ha hb
    rw [ht, ht] at hk
    have hr := Nat.mod_lt (a % 2 ^ (k + 1) + b % 2 ^ (k + 1) + cin) (Nat.two_pow_pos (k + 1))
    simp only [flagsAdd, addSr, addBinary, hk]
    congr 1
    · rw [bitOf_eq, testBit_top _ _ (by omega)]
    · simp only [topBit, Nat.add_sub_cancel, bitOf_eq, testBit_top _ _ hr]
  rcases hw with rfl | rfl
  · exact main 39 rfl
  · exact main 79 rfl

/-- The flags of a subtract are what R145 says they mean. -/
theorem flagsAdd_sub (w : Nat) (hw : w = 40 ∨ w = 80) (sr : Word) (a b cin : Nat) (hc : cin ≤ 1) :
    flagsAdd w sr (addBinary w a (notW w b) cin) = subSr w sr (a % 2 ^ w) (b % 2 ^ w) cin := by
  rw [flagsAdd_add w hw sr a _ cin hc]
  have hb := Nat.mod_lt b (Nat.two_pow_pos w)
  have hn : notW w b % 2 ^ w = 2 ^ w - 1 - b % 2 ^ w := by
    unfold notW
    exact Nat.mod_eq_of_lt (by omega)
  have ha := Nat.mod_lt a (Nat.two_pow_pos w)
  have hsn : sint w (notW w b % 2 ^ w) = - sint w (b % 2 ^ w) - 1 := by
    rw [hn]
    obtain ⟨k, rfl⟩ : ∃ k, w = k + 1 := by rcases hw with rfl | rfl <;> exact ⟨_, rfl⟩
    have h1 := sint_cases k (b % 2 ^ (k + 1)) hb
    have h2 := sint_cases k (2 ^ (k + 1) - 1 - b % 2 ^ (k + 1)) (by omega)
    have hP2 : 2 ^ (k + 1) = 2 * 2 ^ k := by omega
    generalize sint (k + 1) (b % 2 ^ (k + 1)) = x at *
    generalize sint (k + 1) (2 ^ (k + 1) - 1 - b % 2 ^ (k + 1)) = y at *
    generalize b % 2 ^ (k + 1) = v at *
    rw [hP2] at *
    generalize 2 ^ k = P at *
    omega
  simp only [addSr, subSr, hsn]
  rw [hn]
  congr 1
  · exact decide_eq_decide.mpr (by omega)
  · congr 2; omega

theorem addBinary_fst (w a b cin : Nat) : (addBinary w a b cin).1 = (a % 2 ^ w + b % 2 ^ w + cin) % 2 ^ w := rfl

theorem flagsLogic_zn (w : Nat) (hw : w = 40 ∨ w = 80) (sr : Word) (r : Nat) (h : r < 2 ^ w) :
    flagsLogic w sr r = znSr w sr r := by
  have : topBit w r = decide (2 ^ (w - 1) ≤ r) := by
    rcases hw with rfl | rfl
    · exact (bitOf_eq _ _).trans (testBit_top r 39 h)
    · exact (bitOf_eq _ _).trans (testBit_top r 79 h)
  simp [flagsLogic, znSr, this]

/-! ### Decimal digits -/

theorem bcdVal_lt : ∀ (n v : Nat), bcdOk n v = true → bcdVal n v < 10 ^ n
  | 0, _, _ => by simp [bcdVal]
  | n + 1, v, h => by
    simp only [bcdOk, Bool.and_eq_true, decide_eq_true_eq] at h
    have := bcdVal_lt n (v / 16) h.2
    simp only [bcdVal, Nat.pow_succ]
    omega

theorem bcdVal_toBcd : ∀ (n v : Nat), bcdVal n (toBcd n v) = v % 10 ^ n
  | 0, v => by simp [bcdVal, Nat.mod_one]
  | n + 1, v => by
    have hm : v % 10 < 16 := by omega
    have h1 : (v % 10 + 16 * toBcd n (v / 10)) % 16 = v % 10 := by omega
    have h2 : (v % 10 + 16 * toBcd n (v / 10)) / 16 = toBcd n (v / 10) := by omega
    simp only [toBcd, bcdVal, h1, h2, bcdVal_toBcd n]
    rw [Nat.pow_succ, Nat.mul_comm (10 ^ n) 10, Nat.mod_mul]

theorem bcdOk_toBcd : ∀ (n v : Nat), bcdOk n (toBcd n v) = true
  | 0, _ => rfl
  | n + 1, v => by
    have h1 : (v % 10 + 16 * toBcd n (v / 10)) % 16 = v % 10 := by omega
    have h2 : (v % 10 + 16 * toBcd n (v / 10)) / 16 = toBcd n (v / 10) := by omega
    have hm : v % 10 < 10 := by omega
    simp [toBcd, bcdOk, h1, h2, hm, bcdOk_toBcd n]

/-- The value of `n + 1` digits by its top digit. -/
theorem bcdVal_top : ∀ (n v : Nat), bcdVal (n + 1) v = bcdVal n v + 10 ^ n * (v / 16 ^ n % 16)
  | 0, v => by simp [bcdVal]
  | n + 1, v => by
    have ih := bcdVal_top n (v / 16)
    have hd : v / 16 ^ (n + 1) = v / 16 / 16 ^ n := by rw [Nat.pow_succ, Nat.mul_comm, Nat.div_div_eq_div_mul]
    simp only [bcdVal] at ih ⊢
    rw [ih, hd, Nat.pow_succ, Nat.mul_comm (10 ^ n) 10]
    rw [Nat.mul_add, Nat.mul_assoc, Nat.add_assoc]

theorem bcdOk_succ : ∀ (n v : Nat), bcdOk (n + 1) v = true → bcdOk n v = true ∧ v / 16 ^ n % 16 < 10
  | 0, v, h => by simpa [bcdOk] using h
  | n + 1, v, h => by
    have hd : v / 16 ^ (n + 1) = v / 16 / 16 ^ n := by rw [Nat.pow_succ, Nat.mul_comm, Nat.div_div_eq_div_mul]
    rw [bcdOk, Bool.and_eq_true] at h
    have ih := bcdOk_succ n (v / 16) h.2
    rw [hd]
    refine ⟨?_, ih.2⟩
    rw [bcdOk, Bool.and_eq_true]
    exact ⟨h.1, ih.1⟩

/-- The sign of valid digits is that of their top digit (R53, R55). -/
theorem decN_iff (n v : Nat) (h : bcdOk (n + 1) v = true) : decN (n + 1) v = decide (decVal (n + 1) v < 0) := by
  obtain ⟨h1, h2⟩ := bcdOk_succ n v h
  have hl := bcdVal_lt n v h1
  have ht := bcdVal_top n v
  have hv := bcdVal_lt (n + 1) v h
  simp only [decN, decVal, Nat.add_sub_cancel]
  rw [ht]
  rw [ht] at hv
  have hp : 0 < 10 ^ n := Nat.pow_pos (by omega)
  generalize v / 16 ^ n % 16 = d at *
  generalize bcdVal n v = l at *
  rw [Nat.pow_succ] at hv ⊢
  generalize 10 ^ n = P at *
  by_cases h5 : 5 ≤ d
  · have : 5 * P ≤ P * d := by rw [Nat.mul_comm P d]; exact Nat.mul_le_mul_right P h5
    rw [if_neg (by omega)]
    simp only [h5, decide_true]
    symm
    rw [decide_eq_true_eq]
    omega
  · have : P * d ≤ P * 4 := Nat.mul_le_mul_left P (by omega)
    rw [if_pos (by omega)]
    simp only [h5, decide_false]
    symm
    rw [decide_eq_false_iff_not]
    omega

end Sys2Proof.Machine
end

