-- ==== Sys2Proof/Laws/Tab.lean ====
section
/-! SUPPORT. The laws of sparse tables: a read after a write, and that every operation keeps the canonical form. -/

namespace Sys2Proof.Machine

section
variable {α : Type}

theorem tabGet_tabIns_same (d : α) (t : List (Nat × α)) (k : Nat) (v : α) : tabGet d (tabIns t k v) k = v := by
  induction t with
  | nil => simp [tabIns, tabGet]
  | cons p t ih =>
    obtain ⟨k', v'⟩ := p
    unfold tabIns
    split
    · simp [tabGet]
    · split
      · simp [tabGet]
      · rename_i h1 h2
        simp [tabGet, ih, Ne.symm h2]

theorem tabGet_tabIns_ne (d : α) (t : List (Nat × α)) (k j : Nat) (v : α) (h : k ≠ j) :
    tabGet d (tabIns t k v) j = tabGet d t j := by
  induction t with
  | nil => simp [tabIns, tabGet, h]
  | cons p t ih =>
    obtain ⟨k', v'⟩ := p
    unfold tabIns
    split
    · simp [tabGet, h]
    · split
      · rename_i h1 h2
        subst h2
        simp [tabGet, h]
      · simp [tabGet, ih]

theorem tabGet_tabDel_same (d : α) (t : List (Nat × α)) (k : Nat) : tabGet d (tabDel t k) k = d := by
  induction t with
  | nil => rfl
  | cons p t ih =>
    obtain ⟨k', v'⟩ := p
    unfold tabDel
    split
    · exact ih
    · rename_i h
      simp [tabGet, Ne.symm h, ih]

theorem tabGet_tabDel_ne (d : α) (t : List (Nat × α)) (k j : Nat) (h : k ≠ j) :
    tabGet d (tabDel t k) j = tabGet d t j := by
  induction t with
  | nil => rfl
  | cons p t ih =>
    obtain ⟨k', v'⟩ := p
    unfold tabDel
    split
    · rename_i h1
      subst h1
      simp [tabGet, h, ih]
    · simp [tabGet, ih]

/-- A read of the key just written gives the value written. -/
theorem tabGet_tabSet_same [DecidableEq α] (d : α) (t : List (Nat × α)) (k : Nat) (v : α) :
    tabGet d (tabSet d t k v) k = v := by
  unfold tabSet
  split
  · rename_i h
    rw [h]
    exact tabGet_tabDel_same d t k
  · exact tabGet_tabIns_same d t k v

/-- A write leaves every other key alone. -/
theorem tabGet_tabSet_ne [DecidableEq α] (d d' : α) (t : List (Nat × α)) (k j : Nat) (v : α) (h : k ≠ j) :
    tabGet d' (tabSet d t k v) j = tabGet d' t j := by
  unfold tabSet
  split
  · exact tabGet_tabDel_ne d' t k j h
  · exact tabGet_tabIns_ne d' t k j v h

theorem tabSorted_mono : ∀ (t : List (Nat × α)) (lo lo' : Nat), lo' ≤ lo → tabSorted lo t = true → tabSorted lo' t = true
  | [], _, _, _, _ => rfl
  | (k, v) :: t, lo, lo', h, hs => by
    simp only [tabSorted, Bool.and_eq_true, decide_eq_true_eq] at hs ⊢
    exact ⟨by omega, hs.2⟩

theorem tabSorted_tabDel : ∀ (t : List (Nat × α)) (lo k : Nat), tabSorted lo t = true → tabSorted lo (tabDel t k) = true
  | [], _, _, _ => rfl
  | (k', v') :: t, lo, k, hs => by
    simp only [tabSorted, Bool.and_eq_true, decide_eq_true_eq] at hs
    unfold tabDel
    split
    · exact tabSorted_mono _ (k' + 1) lo (by omega) (tabSorted_tabDel t (k' + 1) k hs.2)
    · simp only [tabSorted, Bool.and_eq_true, decide_eq_true_eq]
      exact ⟨hs.1, tabSorted_tabDel t (k' + 1) k hs.2⟩

theorem tabSorted_tabIns : ∀ (t : List (Nat × α)) (lo k : Nat) (v : α), lo ≤ k → tabSorted lo t = true →
    tabSorted lo (tabIns t k v) = true
  | [], lo, k, v, h, _ => by simp [tabIns, tabSorted, h]
  | (k', v') :: t, lo, k, v, h, hs => by
    simp only [tabSorted, Bool.and_eq_true, decide_eq_true_eq] at hs
    unfold tabIns
    split
    · rename_i h1
      simp only [tabSorted, Bool.and_eq_true, decide_eq_true_eq]
      exact ⟨h, by omega, hs.2⟩
    · split
      · rename_i h1 h2
        simp only [tabSorted, Bool.and_eq_true, decide_eq_true_eq]
        exact ⟨h, h2 ▸ hs.2⟩
      · simp only [tabSorted, Bool.and_eq_true, decide_eq_true_eq]
        exact ⟨hs.1, tabSorted_tabIns t (k' + 1) k v (by omega) hs.2⟩

theorem tabLean_tabDel [DecidableEq α] (d : Nat → α) (t : List (Nat × α)) (k : Nat) (h : tabLean d t = true) :
    tabLean d (tabDel t k) = true := by
  induction t with
  | nil => rfl
  | cons p t ih =>
    obtain ⟨k', v'⟩ := p
    simp only [tabLean, Bool.and_eq_true] at h
    unfold tabDel
    split
    · exact ih h.2
    · simp only [tabLean, Bool.and_eq_true]
      exact ⟨h.1, ih h.2⟩

theorem tabLean_tabIns [DecidableEq α] (d : Nat → α) (t : List (Nat × α)) (k : Nat) (v : α) (hv : v ≠ d k)
    (h : tabLean d t = true) : tabLean d (tabIns t k v) = true := by
  induction t with
  | nil => simp [tabIns, tabLean, hv]
  | cons p t ih =>
    obtain ⟨k', v'⟩ := p
    have h' := h
    simp only [tabLean, Bool.and_eq_true] at h
    unfold tabIns
    split
    · simp only [tabLean, Bool.and_eq_true]
      exact ⟨by simpa using hv, h.1, h.2⟩
    · split
      · simp only [tabLean, Bool.and_eq_true]
        exact ⟨by simpa using hv, h.2⟩
      · simp only [tabLean, Bool.and_eq_true]
        exact ⟨h.1, ih h.2⟩

/-- A write keeps the canonical form. -/
theorem tabWf_tabSet [DecidableEq α] (d : Nat → α) (t : List (Nat × α)) (k : Nat) (v : α) (h : tabWf d t = true) :
    tabWf d (tabSet (d k) t k v) = true := by
  simp only [tabWf, Bool.and_eq_true] at h ⊢
  unfold tabSet
  split
  · exact ⟨tabSorted_tabDel t 0 k h.1, tabLean_tabDel d t k h.2⟩
  · rename_i hv
    exact ⟨tabSorted_tabIns t 0 k v (Nat.zero_le k) h.1, tabLean_tabIns d t k v hv h.2⟩

theorem tabSorted_filter (p : Nat × α → Bool) : ∀ (t : List (Nat × α)) (lo : Nat), tabSorted lo t = true →
    tabSorted lo (t.filter p) = true
  | [], _, _ => rfl
  | (k, v) :: t, lo, hs => by
    simp only [tabSorted, Bool.and_eq_true, decide_eq_true_eq] at hs
    have ht := tabSorted_filter p t (k + 1) hs.2
    rw [List.filter_cons]
    split
    · simp only [tabSorted, Bool.and_eq_true, decide_eq_true_eq]
      exact ⟨hs.1, ht⟩
    · exact tabSorted_mono _ (k + 1) lo (by omega) ht

theorem tabLean_filter [DecidableEq α] (d : Nat → α) (p : Nat × α → Bool) (t : List (Nat × α)) (h : tabLean d t = true) :
    tabLean d (t.filter p) = true := by
  induction t with
  | nil => rfl
  | cons q t ih =>
    obtain ⟨k, v⟩ := q
    simp only [tabLean, Bool.and_eq_true] at h
    rw [List.filter_cons]
    split
    · simp only [tabLean, Bool.and_eq_true]
      exact ⟨h.1, ih h.2⟩
    · exact ih h.2

/-- Dropping entries keeps the canonical form. -/
theorem tabWf_filter [DecidableEq α] (d : Nat → α) (p : Nat × α → Bool) (t : List (Nat × α)) (h : tabWf d t = true) :
    tabWf d (t.filter p) = true := by
  simp only [tabWf, Bool.and_eq_true] at h ⊢
  exact ⟨tabSorted_filter p t 0 h.1, tabLean_filter d p t h.2⟩

end

end Sys2Proof.Machine
end

