-- ==== Sys2Proof/Laws/State.lean ====
section
/-! SUPPORT. The laws of the state's primitive updates: what each leaves unchanged, field by field, and what a read after a
write gives. -/

namespace Sys2Proof.Machine

/-! ### setReg -/

@[simp] theorem State.setReg_pending (s : State) (a : Nat) (v : Word) : (s.setReg a v).pending = s.pending := rfl
@[simp] theorem State.setReg_free (s : State) (a : Nat) (v : Word) : (s.setReg a v).free = s.free := rfl
@[simp] theorem State.setReg_ticks (s : State) (a : Nat) (v : Word) : (s.setReg a v).ticks = s.ticks := rfl
@[simp] theorem State.setReg_mem (s : State) (a : Nat) (v : Word) : (s.setReg a v).mem = s.mem := rfl
@[simp] theorem State.setReg_ue (s : State) (a : Nat) (v : Word) : (s.setReg a v).ue = s.ue := rfl
@[simp] theorem State.setReg_dramCap (s : State) (a : Nat) (v : Word) : (s.setReg a v).dramCap = s.dramCap := rfl
@[simp] theorem State.setReg_fkey (s : State) (a : Nat) (v : Word) : (s.setReg a v).fkey = s.fkey := rfl
@[simp] theorem State.setReg_ctx (s : State) (a : Nat) (v : Word) : (s.setReg a v).ctx = s.ctx := rfl
@[simp] theorem State.setReg_core (s : State) (a : Nat) (v : Word) : (s.setReg a v).core = s.core := rfl
@[simp] theorem State.setReg_sched (s : State) (a : Nat) (v : Word) : (s.setReg a v).sched = s.sched := rfl
@[simp] theorem State.setReg_inval (s : State) (a : Nat) (v : Word) : (s.setReg a v).inval = s.inval := rfl
@[simp] theorem State.setReg_eclInv (s : State) (a : Nat) (v : Word) : (s.setReg a v).eclInv = s.eclInv := rfl
@[simp] theorem State.setReg_lockSet (s : State) (a : Nat) (v : Word) : (s.setReg a v).lockSet = s.lockSet := rfl
@[simp] theorem State.setReg_irt (s : State) (a : Nat) (v : Word) : (s.setReg a v).irt = s.irt := rfl
@[simp] theorem State.setReg_swi (s : State) (a : Nat) (v : Word) : (s.setReg a v).swi = s.swi := rfl
@[simp] theorem State.setReg_intake (s : State) (a : Nat) (v : Word) : (s.setReg a v).intake = s.intake := rfl
@[simp] theorem State.setReg_traceq (s : State) (a : Nat) (v : Word) : (s.setReg a v).traceq = s.traceq := rfl
@[simp] theorem State.setReg_traceLost (s : State) (a : Nat) (v : Word) : (s.setReg a v).traceLost = s.traceLost := rfl
@[simp] theorem State.setReg_stopped (s : State) (a : Nat) (v : Word) : (s.setReg a v).stopped = s.stopped := rfl
@[simp] theorem State.setReg_tbSec (s : State) (a : Nat) (v : Word) : (s.setReg a v).tbSec = s.tbSec := rfl
@[simp] theorem State.setReg_tbNs (s : State) (a : Nat) (v : Word) : (s.setReg a v).tbNs = s.tbNs := rfl
@[simp] theorem State.setReg_tbFrac (s : State) (a : Nat) (v : Word) : (s.setReg a v).tbFrac = s.tbFrac := rfl
@[simp] theorem State.setReg_acct (s : State) (a : Nat) (v : Word) : (s.setReg a v).acct = s.acct := rfl
@[simp] theorem State.setReg_ceBase (s : State) (a : Nat) (v : Word) : (s.setReg a v).ceBase = s.ceBase := rfl
@[simp] theorem State.setReg_fmtRanges (s : State) (a : Nat) (v : Word) : (s.setReg a v).fmtRanges = s.fmtRanges := rfl
@[simp] theorem State.setReg_coldClear (s : State) (a : Nat) (v : Word) : (s.setReg a v).coldClear = s.coldClear := rfl
@[simp] theorem State.setReg_tickets (s : State) (a : Nat) (v : Word) : (s.setReg a v).tickets = s.tickets := rfl
@[simp] theorem State.setReg_tktStamp (s : State) (a : Nat) (v : Word) : (s.setReg a v).tktStamp = s.tktStamp := rfl
@[simp] theorem State.setReg_tports (s : State) (a : Nat) (v : Word) : (s.setReg a v).tports = s.tports := rfl
@[simp] theorem State.setReg_tptr (s : State) (a : Nat) (v : Word) : (s.setReg a v).tptr = s.tptr := rfl
@[simp] theorem State.setReg_banks (s : State) (a : Nat) (v : Word) : (s.setReg a v).banks = s.banks := rfl
@[simp] theorem State.setReg_cutOp (s : State) (a : Nat) (v : Word) : (s.setReg a v).cutOp = s.cutOp := rfl
@[simp] theorem State.setReg_prelOp (s : State) (a : Nat) (v : Word) : (s.setReg a v).prelOp = s.prelOp := rfl
@[simp] theorem State.setReg_replayEntries (s : State) (a : Nat) (v : Word) : (s.setReg a v).replayEntries = s.replayEntries := rfl
@[simp] theorem State.setReg_remoteOps (s : State) (a : Nat) (v : Word) : (s.setReg a v).remoteOps = s.remoteOps := rfl
@[simp] theorem State.setReg_ix (s : State) (a : Nat) (v : Word) : (s.setReg a v).ix = s.ix := rfl
@[simp] theorem State.setReg_ixTag (s : State) (a : Nat) (v : Word) : (s.setReg a v).ixTag = s.ixTag := rfl
@[simp] theorem State.setReg_ixHold (s : State) (a : Nat) (v : Word) : (s.setReg a v).ixHold = s.ixHold := rfl
@[simp] theorem State.setReg_ixRing (s : State) (a : Nat) (v : Word) : (s.setReg a v).ixRing = s.ixRing := rfl
@[simp] theorem State.setReg_ixHeard (s : State) (a : Nat) (v : Word) : (s.setReg a v).ixHeard = s.ixHeard := rfl
@[simp] theorem State.setReg_ixElse (s : State) (a : Nat) (v : Word) : (s.setReg a v).ixElse = s.ixElse := rfl
@[simp] theorem State.setReg_ixIn (s : State) (a : Nat) (v : Word) : (s.setReg a v).ixIn = s.ixIn := rfl
@[simp] theorem State.setReg_ffOut (s : State) (a : Nat) (v : Word) : (s.setReg a v).ffOut = s.ffOut := rfl
@[simp] theorem State.setReg_noPrim (s : State) (a : Nat) (v : Word) : (s.setReg a v).noPrim = s.noPrim := rfl
@[simp] theorem State.setReg_queues (s : State) (a : Nat) (v : Word) : (s.setReg a v).queues = s.queues := rfl
@[simp] theorem State.setReg_qstamp (s : State) (a : Nat) (v : Word) : (s.setReg a v).qstamp = s.qstamp := rfl
@[simp] theorem State.setReg_qports (s : State) (a : Nat) (v : Word) : (s.setReg a v).qports = s.qports := rfl
@[simp] theorem State.setReg_qptr (s : State) (a : Nat) (v : Word) : (s.setReg a v).qptr = s.qptr := rfl
@[simp] theorem State.setReg_qtags (s : State) (a : Nat) (v : Word) : (s.setReg a v).qtags = s.qtags := rfl
@[simp] theorem State.setReg_orphans (s : State) (a : Nat) (v : Word) : (s.setReg a v).orphans = s.orphans := rfl
@[simp] theorem State.setReg_msix (s : State) (a : Nat) (v : Word) : (s.setReg a v).msix = s.msix := rfl
@[simp] theorem State.setReg_jr (s : State) (a : Nat) (v : Word) : (s.setReg a v).jr = s.jr := rfl
@[simp] theorem State.setReg_weigh (s : State) (a : Nat) (v : Word) : (s.setReg a v).weigh = s.weigh := rfl
@[simp] theorem State.setReg_wgSec (s : State) (a : Nat) (v : Word) : (s.setReg a v).wgSec = s.wgSec := rfl
@[simp] theorem State.setReg_wgNs (s : State) (a : Nat) (v : Word) : (s.setReg a v).wgNs = s.wgNs := rfl
@[simp] theorem State.setReg_own (s : State) (a : Nat) (v : Word) : (s.setReg a v).own = s.own := rfl
@[simp] theorem State.setReg_claimRes (s : State) (a : Nat) (v : Word) : (s.setReg a v).claimRes = s.claimRes := rfl
@[simp] theorem State.setReg_ownSel (s : State) (a : Nat) (v : Word) : (s.setReg a v).ownSel = s.ownSel := rfl
@[simp] theorem State.setReg_framers (s : State) (a : Nat) (v : Word) : (s.setReg a v).framers = s.framers := rfl
@[simp] theorem State.setReg_ready (s : State) (a : Nat) (v : Word) : (s.setReg a v).ready = s.ready := rfl
@[simp] theorem State.setReg_dropSec (s : State) (a : Nat) (v : Word) : (s.setReg a v).dropSec = s.dropSec := rfl
@[simp] theorem State.setReg_usbErr (s : State) (a : Nat) (v : Word) : (s.setReg a v).usbErr = s.usbErr := rfl
@[simp] theorem State.setReg_usbTog (s : State) (a : Nat) (v : Word) : (s.setReg a v).usbTog = s.usbTog := rfl
@[simp] theorem State.setReg_ctlReq (s : State) (a : Nat) (v : Word) : (s.setReg a v).ctlReq = s.ctlReq := rfl
@[simp] theorem State.setReg_txHeld (s : State) (a : Nat) (v : Word) : (s.setReg a v).txHeld = s.txHeld := rfl
@[simp] theorem State.setReg_wire (s : State) (a : Nat) (v : Word) : (s.setReg a v).wire = s.wire := rfl
@[simp] theorem State.setReg_tmOut (s : State) (a : Nat) (v : Word) : (s.setReg a v).tmOut = s.tmOut := rfl
@[simp] theorem State.setReg_tmAt (s : State) (a : Nat) (v : Word) : (s.setReg a v).tmAt = s.tmAt := rfl
@[simp] theorem State.setReg_netFifo (s : State) (a : Nat) (v : Word) : (s.setReg a v).netFifo = s.netFifo := rfl
@[simp] theorem State.setReg_pauseSent (s : State) (a : Nat) (v : Word) : (s.setReg a v).pauseSent = s.pauseSent := rfl
@[simp] theorem State.setReg_txReports (s : State) (a : Nat) (v : Word) : (s.setReg a v).txReports = s.txReports := rfl
@[simp] theorem State.setReg_roleSet (s : State) (a : Nat) (v : Word) : (s.setReg a v).roleSet = s.roleSet := rfl
@[simp] theorem State.setReg_hostCpl (s : State) (a : Nat) (v : Word) : (s.setReg a v).hostCpl = s.hostCpl := rfl
@[simp] theorem State.setReg_pciReq (s : State) (a : Nat) (v : Word) : (s.setReg a v).pciReq = s.pciReq := rfl
@[simp] theorem State.setReg_pciSec (s : State) (a : Nat) (v : Word) : (s.setReg a v).pciSec = s.pciSec := rfl
@[simp] theorem State.setReg_qmsgSec (s : State) (a : Nat) (v : Word) : (s.setReg a v).qmsgSec = s.qmsgSec := rfl
@[simp] theorem State.setReg_cutAt (s : State) (a : Nat) (v : Word) : (s.setReg a v).cutAt = s.cutAt := rfl
@[simp] theorem State.setReg_gcutOn (s : State) (a : Nat) (v : Word) : (s.setReg a v).gcutOn = s.gcutOn := rfl
@[simp] theorem State.setReg_jsnAsked (s : State) (a : Nat) (v : Word) : (s.setReg a v).jsnAsked = s.jsnAsked := rfl
@[simp] theorem State.setReg_hiEpoch (s : State) (a : Nat) (v : Word) : (s.setReg a v).hiEpoch = s.hiEpoch := rfl
@[simp] theorem State.setReg_tableSeen (s : State) (a : Nat) (v : Word) : (s.setReg a v).tableSeen = s.tableSeen := rfl
@[simp] theorem State.setReg_noQuorum (s : State) (a : Nat) (v : Word) : (s.setReg a v).noQuorum = s.noQuorum := rfl
@[simp] theorem State.setReg_memRds (s : State) (a : Nat) (v : Word) : (s.setReg a v).memRds = s.memRds := rfl
@[simp] theorem State.setReg_ixLnk (s : State) (a : Nat) (v : Word) : (s.setReg a v).ixLnk = s.ixLnk := rfl
@[simp] theorem State.setReg_vault (s : State) (a : Nat) (v : Word) : (s.setReg a v).vault = s.vault := rfl
@[simp] theorem State.setReg_jobs (s : State) (a : Nat) (v : Word) : (s.setReg a v).jobs = s.jobs := rfl
@[simp] theorem State.setReg_unitLast (s : State) (a : Nat) (v : Word) : (s.setReg a v).unitLast = s.unitLast := rfl
@[simp] theorem State.setReg_drbgJobs (s : State) (a : Nat) (v : Word) : (s.setReg a v).drbgJobs = s.drbgJobs := rfl
@[simp] theorem State.setReg_recs (s : State) (a : Nat) (v : Word) : (s.setReg a v).recs = s.recs := rfl
@[simp] theorem State.setReg_recLost (s : State) (a : Nat) (v : Word) : (s.setReg a v).recLost = s.recLost := rfl
@[simp] theorem State.setReg_protNext (s : State) (a : Nat) (v : Word) : (s.setReg a v).protNext = s.protNext := rfl
@[simp] theorem State.setReg_swCopies (s : State) (a : Nat) (v : Word) : (s.setReg a v).swCopies = s.swCopies := rfl
@[simp] theorem State.setReg_clears (s : State) (a : Nat) (v : Word) : (s.setReg a v).clears = s.clears := rfl
@[simp] theorem State.setReg_clearRun (s : State) (a : Nat) (v : Word) : (s.setReg a v).clearRun = s.clearRun := rfl
@[simp] theorem State.setReg_opTicks (s : State) (a : Nat) (v : Word) : (s.setReg a v).opTicks = s.opTicks := rfl
@[simp] theorem State.setReg_grantTicks (s : State) (a : Nat) (v : Word) : (s.setReg a v).grantTicks = s.grantTicks := rfl
@[simp] theorem State.setReg_vdd (s : State) (a : Nat) (v : Word) : (s.setReg a v).vdd = s.vdd := rfl
@[simp] theorem State.setReg_pwrUp (s : State) (a : Nat) (v : Word) : (s.setReg a v).pwrUp = s.pwrUp := rfl
@[simp] theorem State.setReg_pwrRun (s : State) (a : Nat) (v : Word) : (s.setReg a v).pwrRun = s.pwrRun := rfl
@[simp] theorem State.setReg_pmbLow (s : State) (a : Nat) (v : Word) : (s.setReg a v).pmbLow = s.pmbLow := rfl
@[simp] theorem State.setReg_pmbHold (s : State) (a : Nat) (v : Word) : (s.setReg a v).pmbHold = s.pmbHold := rfl
@[simp] theorem State.setReg_trip (s : State) (a : Nat) (v : Word) : (s.setReg a v).trip = s.trip := rfl
@[simp] theorem State.setReg_coolRun (s : State) (a : Nat) (v : Word) : (s.setReg a v).coolRun = s.coolRun := rfl
@[simp] theorem State.setReg_sugAt (s : State) (a : Nat) (v : Word) : (s.setReg a v).sugAt = s.sugAt := rfl
@[simp] theorem State.setReg_sugSec (s : State) (a : Nat) (v : Word) : (s.setReg a v).sugSec = s.sugSec := rfl
@[simp] theorem State.setReg_coreCe (s : State) (a : Nat) (v : Word) : (s.setReg a v).coreCe = s.coreCe := rfl
@[simp] theorem State.setReg_frameCe (s : State) (a : Nat) (v : Word) : (s.setReg a v).frameCe = s.frameCe := rfl
@[simp] theorem State.setReg_subs (s : State) (a : Nat) (v : Word) : (s.setReg a v).subs = s.subs := rfl
@[simp] theorem State.setReg_comet (s : State) (a : Nat) (v : Word) : (s.setReg a v).comet = s.comet := rfl
@[simp] theorem State.setReg_cometBack (s : State) (a : Nat) (v : Word) : (s.setReg a v).cometBack = s.cometBack := rfl
@[simp] theorem State.setReg_cometHeld (s : State) (a : Nat) (v : Word) : (s.setReg a v).cometHeld = s.cometHeld := rfl
@[simp] theorem State.setReg_cometTurn (s : State) (a : Nat) (v : Word) : (s.setReg a v).cometTurn = s.cometTurn := rfl
@[simp] theorem State.setReg_cometCore (s : State) (a : Nat) (v : Word) : (s.setReg a v).cometCore = s.cometCore := rfl
@[simp] theorem State.setReg_retireQ (s : State) (a : Nat) (v : Word) : (s.setReg a v).retireQ = s.retireQ := rfl
@[simp] theorem State.setReg_retired (s : State) (a : Nat) (v : Word) : (s.setReg a v).retired = s.retired := rfl
@[simp] theorem State.setReg_updHalf (s : State) (a : Nat) (v : Word) : (s.setReg a v).updHalf = s.updHalf := rfl
@[simp] theorem State.setReg_boot (s : State) (a : Nat) (v : Word) : (s.setReg a v).boot = s.boot := rfl
@[simp] theorem State.setReg_warmBoot (s : State) (a : Nat) (v : Word) : (s.setReg a v).warmBoot = s.warmBoot := rfl
@[simp] theorem State.setReg_trained (s : State) (a : Nat) (v : Word) : (s.setReg a v).trained = s.trained := rfl
@[simp] theorem State.setReg_cfgNext (s : State) (a : Nat) (v : Word) : (s.setReg a v).cfgNext = s.cfgNext := rfl
@[simp] theorem State.setReg_bootHalf (s : State) (a : Nat) (v : Word) : (s.setReg a v).bootHalf = s.bootHalf := rfl
@[simp] theorem State.setReg_flash (s : State) (a : Nat) (v : Word) : (s.setReg a v).flash = s.flash := rfl
@[simp] theorem State.setReg_cst (s : State) (a : Nat) (v : Word) : (s.setReg a v).cst = s.cst := rfl
@[simp] theorem State.setReg_romStopped (s : State) (a : Nat) (v : Word) : (s.setReg a v).romStopped = s.romStopped := rfl
@[simp] theorem State.setReg_eclPart (s : State) (a : Nat) (v : Word) : (s.setReg a v).eclPart = s.eclPart := rfl
@[simp] theorem State.setReg_eclWait (s : State) (a : Nat) (v : Word) : (s.setReg a v).eclWait = s.eclWait := rfl
@[simp] theorem State.setReg_heldReset (s : State) (a : Nat) (v : Word) : (s.setReg a v).heldReset = s.heldReset := rfl
@[simp] theorem State.setReg_traceSince (s : State) (a : Nat) (v : Word) : (s.setReg a v).traceSince = s.traceSince := rfl
@[simp] theorem State.setReg_traceOwed (s : State) (a : Nat) (v : Word) : (s.setReg a v).traceOwed = s.traceOwed := rfl
@[simp] theorem State.setReg_eclOut (s : State) (a : Nat) (v : Word) : (s.setReg a v).eclOut = s.eclOut := rfl
@[simp] theorem State.setReg_tapIr (s : State) (a : Nat) (v : Word) : (s.setReg a v).tapIr = s.tapIr := rfl
@[simp] theorem State.setReg_tapPtr (s : State) (a : Nat) (v : Word) : (s.setReg a v).tapPtr = s.tapPtr := rfl
@[simp] theorem State.setReg_tapOut (s : State) (a : Nat) (v : Word) : (s.setReg a v).tapOut = s.tapOut := rfl
@[simp] theorem State.setReg_dbgOp (s : State) (a : Nat) (v : Word) : (s.setReg a v).dbgOp = s.dbgOp := rfl
@[simp] theorem State.setReg_bsr (s : State) (a : Nat) (v : Word) : (s.setReg a v).bsr = s.bsr := rfl
@[simp] theorem State.setReg_dbgDue (s : State) (a : Nat) (v : Word) : (s.setReg a v).dbgDue = s.dbgDue := rfl

/-! ### put -/

@[simp] theorem State.put_pending (s : State) (f : Fld) (v : Nat) : (s.put f v).pending = s.pending := rfl
@[simp] theorem State.put_free (s : State) (f : Fld) (v : Nat) : (s.put f v).free = s.free := rfl
@[simp] theorem State.put_ticks (s : State) (f : Fld) (v : Nat) : (s.put f v).ticks = s.ticks := rfl
@[simp] theorem State.put_mem (s : State) (f : Fld) (v : Nat) : (s.put f v).mem = s.mem := rfl
@[simp] theorem State.put_ue (s : State) (f : Fld) (v : Nat) : (s.put f v).ue = s.ue := rfl
@[simp] theorem State.put_dramCap (s : State) (f : Fld) (v : Nat) : (s.put f v).dramCap = s.dramCap := rfl
@[simp] theorem State.put_fkey (s : State) (f : Fld) (v : Nat) : (s.put f v).fkey = s.fkey := rfl
@[simp] theorem State.put_ctx (s : State) (f : Fld) (v : Nat) : (s.put f v).ctx = s.ctx := rfl
@[simp] theorem State.put_core (s : State) (f : Fld) (v : Nat) : (s.put f v).core = s.core := rfl
@[simp] theorem State.put_sched (s : State) (f : Fld) (v : Nat) : (s.put f v).sched = s.sched := rfl
@[simp] theorem State.put_inval (s : State) (f : Fld) (v : Nat) : (s.put f v).inval = s.inval := rfl
@[simp] theorem State.put_eclInv (s : State) (f : Fld) (v : Nat) : (s.put f v).eclInv = s.eclInv := rfl
@[simp] theorem State.put_lockSet (s : State) (f : Fld) (v : Nat) : (s.put f v).lockSet = s.lockSet := rfl
@[simp] theorem State.put_irt (s : State) (f : Fld) (v : Nat) : (s.put f v).irt = s.irt := rfl
@[simp] theorem State.put_swi (s : State) (f : Fld) (v : Nat) : (s.put f v).swi = s.swi := rfl
@[simp] theorem State.put_intake (s : State) (f : Fld) (v : Nat) : (s.put f v).intake = s.intake := rfl
@[simp] theorem State.put_traceq (s : State) (f : Fld) (v : Nat) : (s.put f v).traceq = s.traceq := rfl
@[simp] theorem State.put_traceLost (s : State) (f : Fld) (v : Nat) : (s.put f v).traceLost = s.traceLost := rfl
@[simp] theorem State.put_stopped (s : State) (f : Fld) (v : Nat) : (s.put f v).stopped = s.stopped := rfl
@[simp] theorem State.put_tbSec (s : State) (f : Fld) (v : Nat) : (s.put f v).tbSec = s.tbSec := rfl
@[simp] theorem State.put_tbNs (s : State) (f : Fld) (v : Nat) : (s.put f v).tbNs = s.tbNs := rfl
@[simp] theorem State.put_tbFrac (s : State) (f : Fld) (v : Nat) : (s.put f v).tbFrac = s.tbFrac := rfl
@[simp] theorem State.put_acct (s : State) (f : Fld) (v : Nat) : (s.put f v).acct = s.acct := rfl
@[simp] theorem State.put_ceBase (s : State) (f : Fld) (v : Nat) : (s.put f v).ceBase = s.ceBase := rfl
@[simp] theorem State.put_fmtRanges (s : State) (f : Fld) (v : Nat) : (s.put f v).fmtRanges = s.fmtRanges := rfl
@[simp] theorem State.put_coldClear (s : State) (f : Fld) (v : Nat) : (s.put f v).coldClear = s.coldClear := rfl
@[simp] theorem State.put_tickets (s : State) (f : Fld) (v : Nat) : (s.put f v).tickets = s.tickets := rfl
@[simp] theorem State.put_tktStamp (s : State) (f : Fld) (v : Nat) : (s.put f v).tktStamp = s.tktStamp := rfl
@[simp] theorem State.put_tports (s : State) (f : Fld) (v : Nat) : (s.put f v).tports = s.tports := rfl
@[simp] theorem State.put_tptr (s : State) (f : Fld) (v : Nat) : (s.put f v).tptr = s.tptr := rfl
@[simp] theorem State.put_banks (s : State) (f : Fld) (v : Nat) : (s.put f v).banks = s.banks := rfl
@[simp] theorem State.put_cutOp (s : State) (f : Fld) (v : Nat) : (s.put f v).cutOp = s.cutOp := rfl
@[simp] theorem State.put_prelOp (s : State) (f : Fld) (v : Nat) : (s.put f v).prelOp = s.prelOp := rfl
@[simp] theorem State.put_replayEntries (s : State) (f : Fld) (v : Nat) : (s.put f v).replayEntries = s.replayEntries := rfl
@[simp] theorem State.put_remoteOps (s : State) (f : Fld) (v : Nat) : (s.put f v).remoteOps = s.remoteOps := rfl
@[simp] theorem State.put_ix (s : State) (f : Fld) (v : Nat) : (s.put f v).ix = s.ix := rfl
@[simp] theorem State.put_ixTag (s : State) (f : Fld) (v : Nat) : (s.put f v).ixTag = s.ixTag := rfl
@[simp] theorem State.put_ixHold (s : State) (f : Fld) (v : Nat) : (s.put f v).ixHold = s.ixHold := rfl
@[simp] theorem State.put_ixRing (s : State) (f : Fld) (v : Nat) : (s.put f v).ixRing = s.ixRing := rfl
@[simp] theorem State.put_ixHeard (s : State) (f : Fld) (v : Nat) : (s.put f v).ixHeard = s.ixHeard := rfl
@[simp] theorem State.put_ixElse (s : State) (f : Fld) (v : Nat) : (s.put f v).ixElse = s.ixElse := rfl
@[simp] theorem State.put_ixIn (s : State) (f : Fld) (v : Nat) : (s.put f v).ixIn = s.ixIn := rfl
@[simp] theorem State.put_ffOut (s : State) (f : Fld) (v : Nat) : (s.put f v).ffOut = s.ffOut := rfl
@[simp] theorem State.put_noPrim (s : State) (f : Fld) (v : Nat) : (s.put f v).noPrim = s.noPrim := rfl
@[simp] theorem State.put_queues (s : State) (f : Fld) (v : Nat) : (s.put f v).queues = s.queues := rfl
@[simp] theorem State.put_qstamp (s : State) (f : Fld) (v : Nat) : (s.put f v).qstamp = s.qstamp := rfl
@[simp] theorem State.put_qports (s : State) (f : Fld) (v : Nat) : (s.put f v).qports = s.qports := rfl
@[simp] theorem State.put_qptr (s : State) (f : Fld) (v : Nat) : (s.put f v).qptr = s.qptr := rfl
@[simp] theorem State.put_qtags (s : State) (f : Fld) (v : Nat) : (s.put f v).qtags = s.qtags := rfl
@[simp] theorem State.put_orphans (s : State) (f : Fld) (v : Nat) : (s.put f v).orphans = s.orphans := rfl
@[simp] theorem State.put_msix (s : State) (f : Fld) (v : Nat) : (s.put f v).msix = s.msix := rfl
@[simp] theorem State.put_jr (s : State) (f : Fld) (v : Nat) : (s.put f v).jr = s.jr := rfl
@[simp] theorem State.put_weigh (s : State) (f : Fld) (v : Nat) : (s.put f v).weigh = s.weigh := rfl
@[simp] theorem State.put_wgSec (s : State) (f : Fld) (v : Nat) : (s.put f v).wgSec = s.wgSec := rfl
@[simp] theorem State.put_wgNs (s : State) (f : Fld) (v : Nat) : (s.put f v).wgNs = s.wgNs := rfl
@[simp] theorem State.put_own (s : State) (f : Fld) (v : Nat) : (s.put f v).own = s.own := rfl
@[simp] theorem State.put_claimRes (s : State) (f : Fld) (v : Nat) : (s.put f v).claimRes = s.claimRes := rfl
@[simp] theorem State.put_ownSel (s : State) (f : Fld) (v : Nat) : (s.put f v).ownSel = s.ownSel := rfl
@[simp] theorem State.put_framers (s : State) (f : Fld) (v : Nat) : (s.put f v).framers = s.framers := rfl
@[simp] theorem State.put_ready (s : State) (f : Fld) (v : Nat) : (s.put f v).ready = s.ready := rfl
@[simp] theorem State.put_dropSec (s : State) (f : Fld) (v : Nat) : (s.put f v).dropSec = s.dropSec := rfl
@[simp] theorem State.put_usbErr (s : State) (f : Fld) (v : Nat) : (s.put f v).usbErr = s.usbErr := rfl
@[simp] theorem State.put_usbTog (s : State) (f : Fld) (v : Nat) : (s.put f v).usbTog = s.usbTog := rfl
@[simp] theorem State.put_ctlReq (s : State) (f : Fld) (v : Nat) : (s.put f v).ctlReq = s.ctlReq := rfl
@[simp] theorem State.put_txHeld (s : State) (f : Fld) (v : Nat) : (s.put f v).txHeld = s.txHeld := rfl
@[simp] theorem State.put_wire (s : State) (f : Fld) (v : Nat) : (s.put f v).wire = s.wire := rfl
@[simp] theorem State.put_tmOut (s : State) (f : Fld) (v : Nat) : (s.put f v).tmOut = s.tmOut := rfl
@[simp] theorem State.put_tmAt (s : State) (f : Fld) (v : Nat) : (s.put f v).tmAt = s.tmAt := rfl
@[simp] theorem State.put_netFifo (s : State) (f : Fld) (v : Nat) : (s.put f v).netFifo = s.netFifo := rfl
@[simp] theorem State.put_pauseSent (s : State) (f : Fld) (v : Nat) : (s.put f v).pauseSent = s.pauseSent := rfl
@[simp] theorem State.put_txReports (s : State) (f : Fld) (v : Nat) : (s.put f v).txReports = s.txReports := rfl
@[simp] theorem State.put_roleSet (s : State) (f : Fld) (v : Nat) : (s.put f v).roleSet = s.roleSet := rfl
@[simp] theorem State.put_hostCpl (s : State) (f : Fld) (v : Nat) : (s.put f v).hostCpl = s.hostCpl := rfl
@[simp] theorem State.put_pciReq (s : State) (f : Fld) (v : Nat) : (s.put f v).pciReq = s.pciReq := rfl
@[simp] theorem State.put_pciSec (s : State) (f : Fld) (v : Nat) : (s.put f v).pciSec = s.pciSec := rfl
@[simp] theorem State.put_qmsgSec (s : State) (f : Fld) (v : Nat) : (s.put f v).qmsgSec = s.qmsgSec := rfl
@[simp] theorem State.put_cutAt (s : State) (f : Fld) (v : Nat) : (s.put f v).cutAt = s.cutAt := rfl
@[simp] theorem State.put_gcutOn (s : State) (f : Fld) (v : Nat) : (s.put f v).gcutOn = s.gcutOn := rfl
@[simp] theorem State.put_jsnAsked (s : State) (f : Fld) (v : Nat) : (s.put f v).jsnAsked = s.jsnAsked := rfl
@[simp] theorem State.put_hiEpoch (s : State) (f : Fld) (v : Nat) : (s.put f v).hiEpoch = s.hiEpoch := rfl
@[simp] theorem State.put_tableSeen (s : State) (f : Fld) (v : Nat) : (s.put f v).tableSeen = s.tableSeen := rfl
@[simp] theorem State.put_noQuorum (s : State) (f : Fld) (v : Nat) : (s.put f v).noQuorum = s.noQuorum := rfl
@[simp] theorem State.put_memRds (s : State) (f : Fld) (v : Nat) : (s.put f v).memRds = s.memRds := rfl
@[simp] theorem State.put_ixLnk (s : State) (f : Fld) (v : Nat) : (s.put f v).ixLnk = s.ixLnk := rfl
@[simp] theorem State.put_vault (s : State) (f : Fld) (v : Nat) : (s.put f v).vault = s.vault := rfl
@[simp] theorem State.put_jobs (s : State) (f : Fld) (v : Nat) : (s.put f v).jobs = s.jobs := rfl
@[simp] theorem State.put_unitLast (s : State) (f : Fld) (v : Nat) : (s.put f v).unitLast = s.unitLast := rfl
@[simp] theorem State.put_drbgJobs (s : State) (f : Fld) (v : Nat) : (s.put f v).drbgJobs = s.drbgJobs := rfl
@[simp] theorem State.put_recs (s : State) (f : Fld) (v : Nat) : (s.put f v).recs = s.recs := rfl
@[simp] theorem State.put_recLost (s : State) (f : Fld) (v : Nat) : (s.put f v).recLost = s.recLost := rfl
@[simp] theorem State.put_protNext (s : State) (f : Fld) (v : Nat) : (s.put f v).protNext = s.protNext := rfl
@[simp] theorem State.put_swCopies (s : State) (f : Fld) (v : Nat) : (s.put f v).swCopies = s.swCopies := rfl
@[simp] theorem State.put_clears (s : State) (f : Fld) (v : Nat) : (s.put f v).clears = s.clears := rfl
@[simp] theorem State.put_clearRun (s : State) (f : Fld) (v : Nat) : (s.put f v).clearRun = s.clearRun := rfl
@[simp] theorem State.put_opTicks (s : State) (f : Fld) (v : Nat) : (s.put f v).opTicks = s.opTicks := rfl
@[simp] theorem State.put_grantTicks (s : State) (f : Fld) (v : Nat) : (s.put f v).grantTicks = s.grantTicks := rfl
@[simp] theorem State.put_vdd (s : State) (f : Fld) (v : Nat) : (s.put f v).vdd = s.vdd := rfl
@[simp] theorem State.put_pwrUp (s : State) (f : Fld) (v : Nat) : (s.put f v).pwrUp = s.pwrUp := rfl
@[simp] theorem State.put_pwrRun (s : State) (f : Fld) (v : Nat) : (s.put f v).pwrRun = s.pwrRun := rfl
@[simp] theorem State.put_pmbLow (s : State) (f : Fld) (v : Nat) : (s.put f v).pmbLow = s.pmbLow := rfl
@[simp] theorem State.put_pmbHold (s : State) (f : Fld) (v : Nat) : (s.put f v).pmbHold = s.pmbHold := rfl
@[simp] theorem State.put_trip (s : State) (f : Fld) (v : Nat) : (s.put f v).trip = s.trip := rfl
@[simp] theorem State.put_coolRun (s : State) (f : Fld) (v : Nat) : (s.put f v).coolRun = s.coolRun := rfl
@[simp] theorem State.put_sugAt (s : State) (f : Fld) (v : Nat) : (s.put f v).sugAt = s.sugAt := rfl
@[simp] theorem State.put_sugSec (s : State) (f : Fld) (v : Nat) : (s.put f v).sugSec = s.sugSec := rfl
@[simp] theorem State.put_coreCe (s : State) (f : Fld) (v : Nat) : (s.put f v).coreCe = s.coreCe := rfl
@[simp] theorem State.put_frameCe (s : State) (f : Fld) (v : Nat) : (s.put f v).frameCe = s.frameCe := rfl
@[simp] theorem State.put_subs (s : State) (f : Fld) (v : Nat) : (s.put f v).subs = s.subs := rfl
@[simp] theorem State.put_comet (s : State) (f : Fld) (v : Nat) : (s.put f v).comet = s.comet := rfl
@[simp] theorem State.put_cometBack (s : State) (f : Fld) (v : Nat) : (s.put f v).cometBack = s.cometBack := rfl
@[simp] theorem State.put_cometHeld (s : State) (f : Fld) (v : Nat) : (s.put f v).cometHeld = s.cometHeld := rfl
@[simp] theorem State.put_cometTurn (s : State) (f : Fld) (v : Nat) : (s.put f v).cometTurn = s.cometTurn := rfl
@[simp] theorem State.put_cometCore (s : State) (f : Fld) (v : Nat) : (s.put f v).cometCore = s.cometCore := rfl
@[simp] theorem State.put_retireQ (s : State) (f : Fld) (v : Nat) : (s.put f v).retireQ = s.retireQ := rfl
@[simp] theorem State.put_retired (s : State) (f : Fld) (v : Nat) : (s.put f v).retired = s.retired := rfl
@[simp] theorem State.put_updHalf (s : State) (f : Fld) (v : Nat) : (s.put f v).updHalf = s.updHalf := rfl
@[simp] theorem State.put_boot (s : State) (f : Fld) (v : Nat) : (s.put f v).boot = s.boot := rfl
@[simp] theorem State.put_warmBoot (s : State) (f : Fld) (v : Nat) : (s.put f v).warmBoot = s.warmBoot := rfl
@[simp] theorem State.put_trained (s : State) (f : Fld) (v : Nat) : (s.put f v).trained = s.trained := rfl
@[simp] theorem State.put_cfgNext (s : State) (f : Fld) (v : Nat) : (s.put f v).cfgNext = s.cfgNext := rfl
@[simp] theorem State.put_bootHalf (s : State) (f : Fld) (v : Nat) : (s.put f v).bootHalf = s.bootHalf := rfl
@[simp] theorem State.put_flash (s : State) (f : Fld) (v : Nat) : (s.put f v).flash = s.flash := rfl
@[simp] theorem State.put_cst (s : State) (f : Fld) (v : Nat) : (s.put f v).cst = s.cst := rfl
@[simp] theorem State.put_romStopped (s : State) (f : Fld) (v : Nat) : (s.put f v).romStopped = s.romStopped := rfl
@[simp] theorem State.put_eclPart (s : State) (f : Fld) (v : Nat) : (s.put f v).eclPart = s.eclPart := rfl
@[simp] theorem State.put_eclWait (s : State) (f : Fld) (v : Nat) : (s.put f v).eclWait = s.eclWait := rfl
@[simp] theorem State.put_heldReset (s : State) (f : Fld) (v : Nat) : (s.put f v).heldReset = s.heldReset := rfl
@[simp] theorem State.put_traceSince (s : State) (f : Fld) (v : Nat) : (s.put f v).traceSince = s.traceSince := rfl
@[simp] theorem State.put_traceOwed (s : State) (f : Fld) (v : Nat) : (s.put f v).traceOwed = s.traceOwed := rfl
@[simp] theorem State.put_eclOut (s : State) (f : Fld) (v : Nat) : (s.put f v).eclOut = s.eclOut := rfl
@[simp] theorem State.put_tapIr (s : State) (f : Fld) (v : Nat) : (s.put f v).tapIr = s.tapIr := rfl
@[simp] theorem State.put_tapPtr (s : State) (f : Fld) (v : Nat) : (s.put f v).tapPtr = s.tapPtr := rfl
@[simp] theorem State.put_tapOut (s : State) (f : Fld) (v : Nat) : (s.put f v).tapOut = s.tapOut := rfl
@[simp] theorem State.put_dbgOp (s : State) (f : Fld) (v : Nat) : (s.put f v).dbgOp = s.dbgOp := rfl
@[simp] theorem State.put_bsr (s : State) (f : Fld) (v : Nat) : (s.put f v).bsr = s.bsr := rfl
@[simp] theorem State.put_dbgDue (s : State) (f : Fld) (v : Nat) : (s.put f v).dbgDue = s.dbgDue := rfl

/-! ### setCx -/

@[simp] theorem State.setCx_pending (s : State) (c : Cid) (x : Ctx) : (s.setCx c x).pending = s.pending := rfl
@[simp] theorem State.setCx_free (s : State) (c : Cid) (x : Ctx) : (s.setCx c x).free = s.free := rfl
@[simp] theorem State.setCx_ticks (s : State) (c : Cid) (x : Ctx) : (s.setCx c x).ticks = s.ticks := rfl
@[simp] theorem State.setCx_creg (s : State) (c : Cid) (x : Ctx) : (s.setCx c x).creg = s.creg := rfl
@[simp] theorem State.setCx_mem (s : State) (c : Cid) (x : Ctx) : (s.setCx c x).mem = s.mem := rfl
@[simp] theorem State.setCx_ue (s : State) (c : Cid) (x : Ctx) : (s.setCx c x).ue = s.ue := rfl
@[simp] theorem State.setCx_dramCap (s : State) (c : Cid) (x : Ctx) : (s.setCx c x).dramCap = s.dramCap := rfl
@[simp] theorem State.setCx_fkey (s : State) (c : Cid) (x : Ctx) : (s.setCx c x).fkey = s.fkey := rfl
@[simp] theorem State.setCx_core (s : State) (c : Cid) (x : Ctx) : (s.setCx c x).core = s.core := rfl
@[simp] theorem State.setCx_sched (s : State) (c : Cid) (x : Ctx) : (s.setCx c x).sched = s.sched := rfl
@[simp] theorem State.setCx_inval (s : State) (c : Cid) (x : Ctx) : (s.setCx c x).inval = s.inval := rfl
@[simp] theorem State.setCx_eclInv (s : State) (c : Cid) (x : Ctx) : (s.setCx c x).eclInv = s.eclInv := rfl
@[simp] theorem State.setCx_lockSet (s : State) (c : Cid) (x : Ctx) : (s.setCx c x).lockSet = s.lockSet := rfl
@[simp] theorem State.setCx_irt (s : State) (c : Cid) (x : Ctx) : (s.setCx c x).irt = s.irt := rfl
@[simp] theorem State.setCx_swi (s : State) (c : Cid) (x : Ctx) : (s.setCx c x).swi = s.swi := rfl
@[simp] theorem State.setCx_intake (s : State) (c : Cid) (x : Ctx) : (s.setCx c x).intake = s.intake := rfl
@[simp] theorem State.setCx_traceq (s : State) (c : Cid) (x : Ctx) : (s.setCx c x).traceq = s.traceq := rfl
@[simp] theorem State.setCx_traceLost (s : State) (c : Cid) (x : Ctx) : (s.setCx c x).traceLost = s.traceLost := rfl
@[simp] theorem State.setCx_stopped (s : State) (c : Cid) (x : Ctx) : (s.setCx c x).stopped = s.stopped := rfl
@[simp] theorem State.setCx_tbSec (s : State) (c : Cid) (x : Ctx) : (s.setCx c x).tbSec = s.tbSec := rfl
@[simp] theorem State.setCx_tbNs (s : State) (c : Cid) (x : Ctx) : (s.setCx c x).tbNs = s.tbNs := rfl
@[simp] theorem State.setCx_tbFrac (s : State) (c : Cid) (x : Ctx) : (s.setCx c x).tbFrac = s.tbFrac := rfl
@[simp] theorem State.setCx_acct (s : State) (c : Cid) (x : Ctx) : (s.setCx c x).acct = s.acct := rfl
@[simp] theorem State.setCx_ceBase (s : State) (c : Cid) (x : Ctx) : (s.setCx c x).ceBase = s.ceBase := rfl
@[simp] theorem State.setCx_fmtRanges (s : State) (c : Cid) (x : Ctx) : (s.setCx c x).fmtRanges = s.fmtRanges := rfl
@[simp] theorem State.setCx_coldClear (s : State) (c : Cid) (x : Ctx) : (s.setCx c x).coldClear = s.coldClear := rfl
@[simp] theorem State.setCx_tickets (s : State) (c : Cid) (x : Ctx) : (s.setCx c x).tickets = s.tickets := rfl
@[simp] theorem State.setCx_tktStamp (s : State) (c : Cid) (x : Ctx) : (s.setCx c x).tktStamp = s.tktStamp := rfl
@[simp] theorem State.setCx_tports (s : State) (c : Cid) (x : Ctx) : (s.setCx c x).tports = s.tports := rfl
@[simp] theorem State.setCx_tptr (s : State) (c : Cid) (x : Ctx) : (s.setCx c x).tptr = s.tptr := rfl
@[simp] theorem State.setCx_banks (s : State) (c : Cid) (x : Ctx) : (s.setCx c x).banks = s.banks := rfl
@[simp] theorem State.setCx_cutOp (s : State) (c : Cid) (x : Ctx) : (s.setCx c x).cutOp = s.cutOp := rfl
@[simp] theorem State.setCx_prelOp (s : State) (c : Cid) (x : Ctx) : (s.setCx c x).prelOp = s.prelOp := rfl
@[simp] theorem State.setCx_replayEntries (s : State) (c : Cid) (x : Ctx) : (s.setCx c x).replayEntries = s.replayEntries := rfl
@[simp] theorem State.setCx_remoteOps (s : State) (c : Cid) (x : Ctx) : (s.setCx c x).remoteOps = s.remoteOps := rfl
@[simp] theorem State.setCx_ix (s : State) (c : Cid) (x : Ctx) : (s.setCx c x).ix = s.ix := rfl
@[simp] theorem State.setCx_ixTag (s : State) (c : Cid) (x : Ctx) : (s.setCx c x).ixTag = s.ixTag := rfl
@[simp] theorem State.setCx_ixHold (s : State) (c : Cid) (x : Ctx) : (s.setCx c x).ixHold = s.ixHold := rfl
@[simp] theorem State.setCx_ixRing (s : State) (c : Cid) (x : Ctx) : (s.setCx c x).ixRing = s.ixRing := rfl
@[simp] theorem State.setCx_ixHeard (s : State) (c : Cid) (x : Ctx) : (s.setCx c x).ixHeard = s.ixHeard := rfl
@[simp] theorem State.setCx_ixElse (s : State) (c : Cid) (x : Ctx) : (s.setCx c x).ixElse = s.ixElse := rfl
@[simp] theorem State.setCx_ixIn (s : State) (c : Cid) (x : Ctx) : (s.setCx c x).ixIn = s.ixIn := rfl
@[simp] theorem State.setCx_ffOut (s : State) (c : Cid) (x : Ctx) : (s.setCx c x).ffOut = s.ffOut := rfl
@[simp] theorem State.setCx_noPrim (s : State) (c : Cid) (x : Ctx) : (s.setCx c x).noPrim = s.noPrim := rfl
@[simp] theorem State.setCx_queues (s : State) (c : Cid) (x : Ctx) : (s.setCx c x).queues = s.queues := rfl
@[simp] theorem State.setCx_qstamp (s : State) (c : Cid) (x : Ctx) : (s.setCx c x).qstamp = s.qstamp := rfl
@[simp] theorem State.setCx_qports (s : State) (c : Cid) (x : Ctx) : (s.setCx c x).qports = s.qports := rfl
@[simp] theorem State.setCx_qptr (s : State) (c : Cid) (x : Ctx) : (s.setCx c x).qptr = s.qptr := rfl
@[simp] theorem State.setCx_qtags (s : State) (c : Cid) (x : Ctx) : (s.setCx c x).qtags = s.qtags := rfl
@[simp] theorem State.setCx_orphans (s : State) (c : Cid) (x : Ctx) : (s.setCx c x).orphans = s.orphans := rfl
@[simp] theorem State.setCx_msix (s : State) (c : Cid) (x : Ctx) : (s.setCx c x).msix = s.msix := rfl
@[simp] theorem State.setCx_jr (s : State) (c : Cid) (x : Ctx) : (s.setCx c x).jr = s.jr := rfl
@[simp] theorem State.setCx_weigh (s : State) (c : Cid) (x : Ctx) : (s.setCx c x).weigh = s.weigh := rfl
@[simp] theorem State.setCx_wgSec (s : State) (c : Cid) (x : Ctx) : (s.setCx c x).wgSec = s.wgSec := rfl
@[simp] theorem State.setCx_wgNs (s : State) (c : Cid) (x : Ctx) : (s.setCx c x).wgNs = s.wgNs := rfl
@[simp] theorem State.setCx_own (s : State) (c : Cid) (x : Ctx) : (s.setCx c x).own = s.own := rfl
@[simp] theorem State.setCx_claimRes (s : State) (c : Cid) (x : Ctx) : (s.setCx c x).claimRes = s.claimRes := rfl
@[simp] theorem State.setCx_ownSel (s : State) (c : Cid) (x : Ctx) : (s.setCx c x).ownSel = s.ownSel := rfl
@[simp] theorem State.setCx_framers (s : State) (c : Cid) (x : Ctx) : (s.setCx c x).framers = s.framers := rfl
@[simp] theorem State.setCx_ready (s : State) (c : Cid) (x : Ctx) : (s.setCx c x).ready = s.ready := rfl
@[simp] theorem State.setCx_dropSec (s : State) (c : Cid) (x : Ctx) : (s.setCx c x).dropSec = s.dropSec := rfl
@[simp] theorem State.setCx_usbErr (s : State) (c : Cid) (x : Ctx) : (s.setCx c x).usbErr = s.usbErr := rfl
@[simp] theorem State.setCx_usbTog (s : State) (c : Cid) (x : Ctx) : (s.setCx c x).usbTog = s.usbTog := rfl
@[simp] theorem State.setCx_ctlReq (s : State) (c : Cid) (x : Ctx) : (s.setCx c x).ctlReq = s.ctlReq := rfl
@[simp] theorem State.setCx_txHeld (s : State) (c : Cid) (x : Ctx) : (s.setCx c x).txHeld = s.txHeld := rfl
@[simp] theorem State.setCx_wire (s : State) (c : Cid) (x : Ctx) : (s.setCx c x).wire = s.wire := rfl
@[simp] theorem State.setCx_tmOut (s : State) (c : Cid) (x : Ctx) : (s.setCx c x).tmOut = s.tmOut := rfl
@[simp] theorem State.setCx_tmAt (s : State) (c : Cid) (x : Ctx) : (s.setCx c x).tmAt = s.tmAt := rfl
@[simp] theorem State.setCx_netFifo (s : State) (c : Cid) (x : Ctx) : (s.setCx c x).netFifo = s.netFifo := rfl
@[simp] theorem State.setCx_pauseSent (s : State) (c : Cid) (x : Ctx) : (s.setCx c x).pauseSent = s.pauseSent := rfl
@[simp] theorem State.setCx_txReports (s : State) (c : Cid) (x : Ctx) : (s.setCx c x).txReports = s.txReports := rfl
@[simp] theorem State.setCx_roleSet (s : State) (c : Cid) (x : Ctx) : (s.setCx c x).roleSet = s.roleSet := rfl
@[simp] theorem State.setCx_hostCpl (s : State) (c : Cid) (x : Ctx) : (s.setCx c x).hostCpl = s.hostCpl := rfl
@[simp] theorem State.setCx_pciReq (s : State) (c : Cid) (x : Ctx) : (s.setCx c x).pciReq = s.pciReq := rfl
@[simp] theorem State.setCx_pciSec (s : State) (c : Cid) (x : Ctx) : (s.setCx c x).pciSec = s.pciSec := rfl
@[simp] theorem State.setCx_qmsgSec (s : State) (c : Cid) (x : Ctx) : (s.setCx c x).qmsgSec = s.qmsgSec := rfl
@[simp] theorem State.setCx_cutAt (s : State) (c : Cid) (x : Ctx) : (s.setCx c x).cutAt = s.cutAt := rfl
@[simp] theorem State.setCx_gcutOn (s : State) (c : Cid) (x : Ctx) : (s.setCx c x).gcutOn = s.gcutOn := rfl
@[simp] theorem State.setCx_jsnAsked (s : State) (c : Cid) (x : Ctx) : (s.setCx c x).jsnAsked = s.jsnAsked := rfl
@[simp] theorem State.setCx_hiEpoch (s : State) (c : Cid) (x : Ctx) : (s.setCx c x).hiEpoch = s.hiEpoch := rfl
@[simp] theorem State.setCx_tableSeen (s : State) (c : Cid) (x : Ctx) : (s.setCx c x).tableSeen = s.tableSeen := rfl
@[simp] theorem State.setCx_noQuorum (s : State) (c : Cid) (x : Ctx) : (s.setCx c x).noQuorum = s.noQuorum := rfl
@[simp] theorem State.setCx_memRds (s : State) (c : Cid) (x : Ctx) : (s.setCx c x).memRds = s.memRds := rfl
@[simp] theorem State.setCx_ixLnk (s : State) (c : Cid) (x : Ctx) : (s.setCx c x).ixLnk = s.ixLnk := rfl
@[simp] theorem State.setCx_vault (s : State) (c : Cid) (x : Ctx) : (s.setCx c x).vault = s.vault := rfl
@[simp] theorem State.setCx_jobs (s : State) (c : Cid) (x : Ctx) : (s.setCx c x).jobs = s.jobs := rfl
@[simp] theorem State.setCx_unitLast (s : State) (c : Cid) (x : Ctx) : (s.setCx c x).unitLast = s.unitLast := rfl
@[simp] theorem State.setCx_drbgJobs (s : State) (c : Cid) (x : Ctx) : (s.setCx c x).drbgJobs = s.drbgJobs := rfl
@[simp] theorem State.setCx_recs (s : State) (c : Cid) (x : Ctx) : (s.setCx c x).recs = s.recs := rfl
@[simp] theorem State.setCx_recLost (s : State) (c : Cid) (x : Ctx) : (s.setCx c x).recLost = s.recLost := rfl
@[simp] theorem State.setCx_protNext (s : State) (c : Cid) (x : Ctx) : (s.setCx c x).protNext = s.protNext := rfl
@[simp] theorem State.setCx_swCopies (s : State) (c : Cid) (x : Ctx) : (s.setCx c x).swCopies = s.swCopies := rfl
@[simp] theorem State.setCx_clears (s : State) (c : Cid) (x : Ctx) : (s.setCx c x).clears = s.clears := rfl
@[simp] theorem State.setCx_clearRun (s : State) (c : Cid) (x : Ctx) : (s.setCx c x).clearRun = s.clearRun := rfl
@[simp] theorem State.setCx_opTicks (s : State) (c : Cid) (x : Ctx) : (s.setCx c x).opTicks = s.opTicks := rfl
@[simp] theorem State.setCx_grantTicks (s : State) (c : Cid) (x : Ctx) : (s.setCx c x).grantTicks = s.grantTicks := rfl
@[simp] theorem State.setCx_vdd (s : State) (c : Cid) (x : Ctx) : (s.setCx c x).vdd = s.vdd := rfl
@[simp] theorem State.setCx_pwrUp (s : State) (c : Cid) (x : Ctx) : (s.setCx c x).pwrUp = s.pwrUp := rfl
@[simp] theorem State.setCx_pwrRun (s : State) (c : Cid) (x : Ctx) : (s.setCx c x).pwrRun = s.pwrRun := rfl
@[simp] theorem State.setCx_pmbLow (s : State) (c : Cid) (x : Ctx) : (s.setCx c x).pmbLow = s.pmbLow := rfl
@[simp] theorem State.setCx_pmbHold (s : State) (c : Cid) (x : Ctx) : (s.setCx c x).pmbHold = s.pmbHold := rfl
@[simp] theorem State.setCx_trip (s : State) (c : Cid) (x : Ctx) : (s.setCx c x).trip = s.trip := rfl
@[simp] theorem State.setCx_coolRun (s : State) (c : Cid) (x : Ctx) : (s.setCx c x).coolRun = s.coolRun := rfl
@[simp] theorem State.setCx_sugAt (s : State) (c : Cid) (x : Ctx) : (s.setCx c x).sugAt = s.sugAt := rfl
@[simp] theorem State.setCx_sugSec (s : State) (c : Cid) (x : Ctx) : (s.setCx c x).sugSec = s.sugSec := rfl
@[simp] theorem State.setCx_coreCe (s : State) (c : Cid) (x : Ctx) : (s.setCx c x).coreCe = s.coreCe := rfl
@[simp] theorem State.setCx_frameCe (s : State) (c : Cid) (x : Ctx) : (s.setCx c x).frameCe = s.frameCe := rfl
@[simp] theorem State.setCx_subs (s : State) (c : Cid) (x : Ctx) : (s.setCx c x).subs = s.subs := rfl
@[simp] theorem State.setCx_comet (s : State) (c : Cid) (x : Ctx) : (s.setCx c x).comet = s.comet := rfl
@[simp] theorem State.setCx_cometBack (s : State) (c : Cid) (x : Ctx) : (s.setCx c x).cometBack = s.cometBack := rfl
@[simp] theorem State.setCx_cometHeld (s : State) (c : Cid) (x : Ctx) : (s.setCx c x).cometHeld = s.cometHeld := rfl
@[simp] theorem State.setCx_cometTurn (s : State) (c : Cid) (x : Ctx) : (s.setCx c x).cometTurn = s.cometTurn := rfl
@[simp] theorem State.setCx_cometCore (s : State) (c : Cid) (x : Ctx) : (s.setCx c x).cometCore = s.cometCore := rfl
@[simp] theorem State.setCx_retireQ (s : State) (c : Cid) (x : Ctx) : (s.setCx c x).retireQ = s.retireQ := rfl
@[simp] theorem State.setCx_retired (s : State) (c : Cid) (x : Ctx) : (s.setCx c x).retired = s.retired := rfl
@[simp] theorem State.setCx_updHalf (s : State) (c : Cid) (x : Ctx) : (s.setCx c x).updHalf = s.updHalf := rfl
@[simp] theorem State.setCx_boot (s : State) (c : Cid) (x : Ctx) : (s.setCx c x).boot = s.boot := rfl
@[simp] theorem State.setCx_warmBoot (s : State) (c : Cid) (x : Ctx) : (s.setCx c x).warmBoot = s.warmBoot := rfl
@[simp] theorem State.setCx_trained (s : State) (c : Cid) (x : Ctx) : (s.setCx c x).trained = s.trained := rfl
@[simp] theorem State.setCx_cfgNext (s : State) (c : Cid) (x : Ctx) : (s.setCx c x).cfgNext = s.cfgNext := rfl
@[simp] theorem State.setCx_bootHalf (s : State) (c : Cid) (x : Ctx) : (s.setCx c x).bootHalf = s.bootHalf := rfl
@[simp] theorem State.setCx_flash (s : State) (c : Cid) (x : Ctx) : (s.setCx c x).flash = s.flash := rfl
@[simp] theorem State.setCx_cst (s : State) (c : Cid) (x : Ctx) : (s.setCx c x).cst = s.cst := rfl
@[simp] theorem State.setCx_romStopped (s : State) (c : Cid) (x : Ctx) : (s.setCx c x).romStopped = s.romStopped := rfl
@[simp] theorem State.setCx_eclPart (s : State) (c : Cid) (x : Ctx) : (s.setCx c x).eclPart = s.eclPart := rfl
@[simp] theorem State.setCx_eclWait (s : State) (c : Cid) (x : Ctx) : (s.setCx c x).eclWait = s.eclWait := rfl
@[simp] theorem State.setCx_heldReset (s : State) (c : Cid) (x : Ctx) : (s.setCx c x).heldReset = s.heldReset := rfl
@[simp] theorem State.setCx_traceSince (s : State) (c : Cid) (x : Ctx) : (s.setCx c x).traceSince = s.traceSince := rfl
@[simp] theorem State.setCx_traceOwed (s : State) (c : Cid) (x : Ctx) : (s.setCx c x).traceOwed = s.traceOwed := rfl
@[simp] theorem State.setCx_eclOut (s : State) (c : Cid) (x : Ctx) : (s.setCx c x).eclOut = s.eclOut := rfl
@[simp] theorem State.setCx_tapIr (s : State) (c : Cid) (x : Ctx) : (s.setCx c x).tapIr = s.tapIr := rfl
@[simp] theorem State.setCx_tapPtr (s : State) (c : Cid) (x : Ctx) : (s.setCx c x).tapPtr = s.tapPtr := rfl
@[simp] theorem State.setCx_tapOut (s : State) (c : Cid) (x : Ctx) : (s.setCx c x).tapOut = s.tapOut := rfl
@[simp] theorem State.setCx_dbgOp (s : State) (c : Cid) (x : Ctx) : (s.setCx c x).dbgOp = s.dbgOp := rfl
@[simp] theorem State.setCx_bsr (s : State) (c : Cid) (x : Ctx) : (s.setCx c x).bsr = s.bsr := rfl
@[simp] theorem State.setCx_dbgDue (s : State) (c : Cid) (x : Ctx) : (s.setCx c x).dbgDue = s.dbgDue := rfl

/-! ### modCx -/

@[simp] theorem State.modCx_pending (s : State) (c : Cid) (f : Ctx → Ctx) : (s.modCx c f).pending = s.pending := rfl
@[simp] theorem State.modCx_free (s : State) (c : Cid) (f : Ctx → Ctx) : (s.modCx c f).free = s.free := rfl
@[simp] theorem State.modCx_ticks (s : State) (c : Cid) (f : Ctx → Ctx) : (s.modCx c f).ticks = s.ticks := rfl
@[simp] theorem State.modCx_creg (s : State) (c : Cid) (f : Ctx → Ctx) : (s.modCx c f).creg = s.creg := rfl
@[simp] theorem State.modCx_mem (s : State) (c : Cid) (f : Ctx → Ctx) : (s.modCx c f).mem = s.mem := rfl
@[simp] theorem State.modCx_ue (s : State) (c : Cid) (f : Ctx → Ctx) : (s.modCx c f).ue = s.ue := rfl
@[simp] theorem State.modCx_dramCap (s : State) (c : Cid) (f : Ctx → Ctx) : (s.modCx c f).dramCap = s.dramCap := rfl
@[simp] theorem State.modCx_fkey (s : State) (c : Cid) (f : Ctx → Ctx) : (s.modCx c f).fkey = s.fkey := rfl
@[simp] theorem State.modCx_core (s : State) (c : Cid) (f : Ctx → Ctx) : (s.modCx c f).core = s.core := rfl
@[simp] theorem State.modCx_sched (s : State) (c : Cid) (f : Ctx → Ctx) : (s.modCx c f).sched = s.sched := rfl
@[simp] theorem State.modCx_inval (s : State) (c : Cid) (f : Ctx → Ctx) : (s.modCx c f).inval = s.inval := rfl
@[simp] theorem State.modCx_eclInv (s : State) (c : Cid) (f : Ctx → Ctx) : (s.modCx c f).eclInv = s.eclInv := rfl
@[simp] theorem State.modCx_lockSet (s : State) (c : Cid) (f : Ctx → Ctx) : (s.modCx c f).lockSet = s.lockSet := rfl
@[simp] theorem State.modCx_irt (s : State) (c : Cid) (f : Ctx → Ctx) : (s.modCx c f).irt = s.irt := rfl
@[simp] theorem State.modCx_swi (s : State) (c : Cid) (f : Ctx → Ctx) : (s.modCx c f).swi = s.swi := rfl
@[simp] theorem State.modCx_intake (s : State) (c : Cid) (f : Ctx → Ctx) : (s.modCx c f).intake = s.intake := rfl
@[simp] theorem State.modCx_traceq (s : State) (c : Cid) (f : Ctx → Ctx) : (s.modCx c f).traceq = s.traceq := rfl
@[simp] theorem State.modCx_traceLost (s : State) (c : Cid) (f : Ctx → Ctx) : (s.modCx c f).traceLost = s.traceLost := rfl
@[simp] theorem State.modCx_stopped (s : State) (c : Cid) (f : Ctx → Ctx) : (s.modCx c f).stopped = s.stopped := rfl
@[simp] theorem State.modCx_tbSec (s : State) (c : Cid) (f : Ctx → Ctx) : (s.modCx c f).tbSec = s.tbSec := rfl
@[simp] theorem State.modCx_tbNs (s : State) (c : Cid) (f : Ctx → Ctx) : (s.modCx c f).tbNs = s.tbNs := rfl
@[simp] theorem State.modCx_tbFrac (s : State) (c : Cid) (f : Ctx → Ctx) : (s.modCx c f).tbFrac = s.tbFrac := rfl
@[simp] theorem State.modCx_acct (s : State) (c : Cid) (f : Ctx → Ctx) : (s.modCx c f).acct = s.acct := rfl
@[simp] theorem State.modCx_ceBase (s : State) (c : Cid) (f : Ctx → Ctx) : (s.modCx c f).ceBase = s.ceBase := rfl
@[simp] theorem State.modCx_fmtRanges (s : State) (c : Cid) (f : Ctx → Ctx) : (s.modCx c f).fmtRanges = s.fmtRanges := rfl
@[simp] theorem State.modCx_coldClear (s : State) (c : Cid) (f : Ctx → Ctx) : (s.modCx c f).coldClear = s.coldClear := rfl
@[simp] theorem State.modCx_tickets (s : State) (c : Cid) (f : Ctx → Ctx) : (s.modCx c f).tickets = s.tickets := rfl
@[simp] theorem State.modCx_tktStamp (s : State) (c : Cid) (f : Ctx → Ctx) : (s.modCx c f).tktStamp = s.tktStamp := rfl
@[simp] theorem State.modCx_tports (s : State) (c : Cid) (f : Ctx → Ctx) : (s.modCx c f).tports = s.tports := rfl
@[simp] theorem State.modCx_tptr (s : State) (c : Cid) (f : Ctx → Ctx) : (s.modCx c f).tptr = s.tptr := rfl
@[simp] theorem State.modCx_banks (s : State) (c : Cid) (f : Ctx → Ctx) : (s.modCx c f).banks = s.banks := rfl
@[simp] theorem State.modCx_cutOp (s : State) (c : Cid) (f : Ctx → Ctx) : (s.modCx c f).cutOp = s.cutOp := rfl
@[simp] theorem State.modCx_prelOp (s : State) (c : Cid) (f : Ctx → Ctx) : (s.modCx c f).prelOp = s.prelOp := rfl
@[simp] theorem State.modCx_replayEntries (s : State) (c : Cid) (f : Ctx → Ctx) : (s.modCx c f).replayEntries = s.replayEntries := rfl
@[simp] theorem State.modCx_remoteOps (s : State) (c : Cid) (f : Ctx → Ctx) : (s.modCx c f).remoteOps = s.remoteOps := rfl
@[simp] theorem State.modCx_ix (s : State) (c : Cid) (f : Ctx → Ctx) : (s.modCx c f).ix = s.ix := rfl
@[simp] theorem State.modCx_ixTag (s : State) (c : Cid) (f : Ctx → Ctx) : (s.modCx c f).ixTag = s.ixTag := rfl
@[simp] theorem State.modCx_ixHold (s : State) (c : Cid) (f : Ctx → Ctx) : (s.modCx c f).ixHold = s.ixHold := rfl
@[simp] theorem State.modCx_ixRing (s : State) (c : Cid) (f : Ctx → Ctx) : (s.modCx c f).ixRing = s.ixRing := rfl
@[simp] theorem State.modCx_ixHeard (s : State) (c : Cid) (f : Ctx → Ctx) : (s.modCx c f).ixHeard = s.ixHeard := rfl
@[simp] theorem State.modCx_ixElse (s : State) (c : Cid) (f : Ctx → Ctx) : (s.modCx c f).ixElse = s.ixElse := rfl
@[simp] theorem State.modCx_ixIn (s : State) (c : Cid) (f : Ctx → Ctx) : (s.modCx c f).ixIn = s.ixIn := rfl
@[simp] theorem State.modCx_ffOut (s : State) (c : Cid) (f : Ctx → Ctx) : (s.modCx c f).ffOut = s.ffOut := rfl
@[simp] theorem State.modCx_noPrim (s : State) (c : Cid) (f : Ctx → Ctx) : (s.modCx c f).noPrim = s.noPrim := rfl
@[simp] theorem State.modCx_queues (s : State) (c : Cid) (f : Ctx → Ctx) : (s.modCx c f).queues = s.queues := rfl
@[simp] theorem State.modCx_qstamp (s : State) (c : Cid) (f : Ctx → Ctx) : (s.modCx c f).qstamp = s.qstamp := rfl
@[simp] theorem State.modCx_qports (s : State) (c : Cid) (f : Ctx → Ctx) : (s.modCx c f).qports = s.qports := rfl
@[simp] theorem State.modCx_qptr (s : State) (c : Cid) (f : Ctx → Ctx) : (s.modCx c f).qptr = s.qptr := rfl
@[simp] theorem State.modCx_qtags (s : State) (c : Cid) (f : Ctx → Ctx) : (s.modCx c f).qtags = s.qtags := rfl
@[simp] theorem State.modCx_orphans (s : State) (c : Cid) (f : Ctx → Ctx) : (s.modCx c f).orphans = s.orphans := rfl
@[simp] theorem State.modCx_msix (s : State) (c : Cid) (f : Ctx → Ctx) : (s.modCx c f).msix = s.msix := rfl
@[simp] theorem State.modCx_jr (s : State) (c : Cid) (f : Ctx → Ctx) : (s.modCx c f).jr = s.jr := rfl
@[simp] theorem State.modCx_weigh (s : State) (c : Cid) (f : Ctx → Ctx) : (s.modCx c f).weigh = s.weigh := rfl
@[simp] theorem State.modCx_wgSec (s : State) (c : Cid) (f : Ctx → Ctx) : (s.modCx c f).wgSec = s.wgSec := rfl
@[simp] theorem State.modCx_wgNs (s : State) (c : Cid) (f : Ctx → Ctx) : (s.modCx c f).wgNs = s.wgNs := rfl
@[simp] theorem State.modCx_own (s : State) (c : Cid) (f : Ctx → Ctx) : (s.modCx c f).own = s.own := rfl
@[simp] theorem State.modCx_claimRes (s : State) (c : Cid) (f : Ctx → Ctx) : (s.modCx c f).claimRes = s.claimRes := rfl
@[simp] theorem State.modCx_ownSel (s : State) (c : Cid) (f : Ctx → Ctx) : (s.modCx c f).ownSel = s.ownSel := rfl
@[simp] theorem State.modCx_framers (s : State) (c : Cid) (f : Ctx → Ctx) : (s.modCx c f).framers = s.framers := rfl
@[simp] theorem State.modCx_ready (s : State) (c : Cid) (f : Ctx → Ctx) : (s.modCx c f).ready = s.ready := rfl
@[simp] theorem State.modCx_dropSec (s : State) (c : Cid) (f : Ctx → Ctx) : (s.modCx c f).dropSec = s.dropSec := rfl
@[simp] theorem State.modCx_usbErr (s : State) (c : Cid) (f : Ctx → Ctx) : (s.modCx c f).usbErr = s.usbErr := rfl
@[simp] theorem State.modCx_usbTog (s : State) (c : Cid) (f : Ctx → Ctx) : (s.modCx c f).usbTog = s.usbTog := rfl
@[simp] theorem State.modCx_ctlReq (s : State) (c : Cid) (f : Ctx → Ctx) : (s.modCx c f).ctlReq = s.ctlReq := rfl
@[simp] theorem State.modCx_txHeld (s : State) (c : Cid) (f : Ctx → Ctx) : (s.modCx c f).txHeld = s.txHeld := rfl
@[simp] theorem State.modCx_wire (s : State) (c : Cid) (f : Ctx → Ctx) : (s.modCx c f).wire = s.wire := rfl
@[simp] theorem State.modCx_tmOut (s : State) (c : Cid) (f : Ctx → Ctx) : (s.modCx c f).tmOut = s.tmOut := rfl
@[simp] theorem State.modCx_tmAt (s : State) (c : Cid) (f : Ctx → Ctx) : (s.modCx c f).tmAt = s.tmAt := rfl
@[simp] theorem State.modCx_netFifo (s : State) (c : Cid) (f : Ctx → Ctx) : (s.modCx c f).netFifo = s.netFifo := rfl
@[simp] theorem State.modCx_pauseSent (s : State) (c : Cid) (f : Ctx → Ctx) : (s.modCx c f).pauseSent = s.pauseSent := rfl
@[simp] theorem State.modCx_txReports (s : State) (c : Cid) (f : Ctx → Ctx) : (s.modCx c f).txReports = s.txReports := rfl
@[simp] theorem State.modCx_roleSet (s : State) (c : Cid) (f : Ctx → Ctx) : (s.modCx c f).roleSet = s.roleSet := rfl
@[simp] theorem State.modCx_hostCpl (s : State) (c : Cid) (f : Ctx → Ctx) : (s.modCx c f).hostCpl = s.hostCpl := rfl
@[simp] theorem State.modCx_pciReq (s : State) (c : Cid) (f : Ctx → Ctx) : (s.modCx c f).pciReq = s.pciReq := rfl
@[simp] theorem State.modCx_pciSec (s : State) (c : Cid) (f : Ctx → Ctx) : (s.modCx c f).pciSec = s.pciSec := rfl
@[simp] theorem State.modCx_qmsgSec (s : State) (c : Cid) (f : Ctx → Ctx) : (s.modCx c f).qmsgSec = s.qmsgSec := rfl
@[simp] theorem State.modCx_cutAt (s : State) (c : Cid) (f : Ctx → Ctx) : (s.modCx c f).cutAt = s.cutAt := rfl
@[simp] theorem State.modCx_gcutOn (s : State) (c : Cid) (f : Ctx → Ctx) : (s.modCx c f).gcutOn = s.gcutOn := rfl
@[simp] theorem State.modCx_jsnAsked (s : State) (c : Cid) (f : Ctx → Ctx) : (s.modCx c f).jsnAsked = s.jsnAsked := rfl
@[simp] theorem State.modCx_hiEpoch (s : State) (c : Cid) (f : Ctx → Ctx) : (s.modCx c f).hiEpoch = s.hiEpoch := rfl
@[simp] theorem State.modCx_tableSeen (s : State) (c : Cid) (f : Ctx → Ctx) : (s.modCx c f).tableSeen = s.tableSeen := rfl
@[simp] theorem State.modCx_noQuorum (s : State) (c : Cid) (f : Ctx → Ctx) : (s.modCx c f).noQuorum = s.noQuorum := rfl
@[simp] theorem State.modCx_memRds (s : State) (c : Cid) (f : Ctx → Ctx) : (s.modCx c f).memRds = s.memRds := rfl
@[simp] theorem State.modCx_ixLnk (s : State) (c : Cid) (f : Ctx → Ctx) : (s.modCx c f).ixLnk = s.ixLnk := rfl
@[simp] theorem State.modCx_vault (s : State) (c : Cid) (f : Ctx → Ctx) : (s.modCx c f).vault = s.vault := rfl
@[simp] theorem State.modCx_jobs (s : State) (c : Cid) (f : Ctx → Ctx) : (s.modCx c f).jobs = s.jobs := rfl
@[simp] theorem State.modCx_unitLast (s : State) (c : Cid) (f : Ctx → Ctx) : (s.modCx c f).unitLast = s.unitLast := rfl
@[simp] theorem State.modCx_drbgJobs (s : State) (c : Cid) (f : Ctx → Ctx) : (s.modCx c f).drbgJobs = s.drbgJobs := rfl
@[simp] theorem State.modCx_recs (s : State) (c : Cid) (f : Ctx → Ctx) : (s.modCx c f).recs = s.recs := rfl
@[simp] theorem State.modCx_recLost (s : State) (c : Cid) (f : Ctx → Ctx) : (s.modCx c f).recLost = s.recLost := rfl
@[simp] theorem State.modCx_protNext (s : State) (c : Cid) (f : Ctx → Ctx) : (s.modCx c f).protNext = s.protNext := rfl
@[simp] theorem State.modCx_swCopies (s : State) (c : Cid) (f : Ctx → Ctx) : (s.modCx c f).swCopies = s.swCopies := rfl
@[simp] theorem State.modCx_clears (s : State) (c : Cid) (f : Ctx → Ctx) : (s.modCx c f).clears = s.clears := rfl
@[simp] theorem State.modCx_clearRun (s : State) (c : Cid) (f : Ctx → Ctx) : (s.modCx c f).clearRun = s.clearRun := rfl
@[simp] theorem State.modCx_opTicks (s : State) (c : Cid) (f : Ctx → Ctx) : (s.modCx c f).opTicks = s.opTicks := rfl
@[simp] theorem State.modCx_grantTicks (s : State) (c : Cid) (f : Ctx → Ctx) : (s.modCx c f).grantTicks = s.grantTicks := rfl
@[simp] theorem State.modCx_vdd (s : State) (c : Cid) (f : Ctx → Ctx) : (s.modCx c f).vdd = s.vdd := rfl
@[simp] theorem State.modCx_pwrUp (s : State) (c : Cid) (f : Ctx → Ctx) : (s.modCx c f).pwrUp = s.pwrUp := rfl
@[simp] theorem State.modCx_pwrRun (s : State) (c : Cid) (f : Ctx → Ctx) : (s.modCx c f).pwrRun = s.pwrRun := rfl
@[simp] theorem State.modCx_pmbLow (s : State) (c : Cid) (f : Ctx → Ctx) : (s.modCx c f).pmbLow = s.pmbLow := rfl
@[simp] theorem State.modCx_pmbHold (s : State) (c : Cid) (f : Ctx → Ctx) : (s.modCx c f).pmbHold = s.pmbHold := rfl
@[simp] theorem State.modCx_trip (s : State) (c : Cid) (f : Ctx → Ctx) : (s.modCx c f).trip = s.trip := rfl
@[simp] theorem State.modCx_coolRun (s : State) (c : Cid) (f : Ctx → Ctx) : (s.modCx c f).coolRun = s.coolRun := rfl
@[simp] theorem State.modCx_sugAt (s : State) (c : Cid) (f : Ctx → Ctx) : (s.modCx c f).sugAt = s.sugAt := rfl
@[simp] theorem State.modCx_sugSec (s : State) (c : Cid) (f : Ctx → Ctx) : (s.modCx c f).sugSec = s.sugSec := rfl
@[simp] theorem State.modCx_coreCe (s : State) (c : Cid) (f : Ctx → Ctx) : (s.modCx c f).coreCe = s.coreCe := rfl
@[simp] theorem State.modCx_frameCe (s : State) (c : Cid) (f : Ctx → Ctx) : (s.modCx c f).frameCe = s.frameCe := rfl
@[simp] theorem State.modCx_subs (s : State) (c : Cid) (f : Ctx → Ctx) : (s.modCx c f).subs = s.subs := rfl
@[simp] theorem State.modCx_comet (s : State) (c : Cid) (f : Ctx → Ctx) : (s.modCx c f).comet = s.comet := rfl
@[simp] theorem State.modCx_cometBack (s : State) (c : Cid) (f : Ctx → Ctx) : (s.modCx c f).cometBack = s.cometBack := rfl
@[simp] theorem State.modCx_cometHeld (s : State) (c : Cid) (f : Ctx → Ctx) : (s.modCx c f).cometHeld = s.cometHeld := rfl
@[simp] theorem State.modCx_cometTurn (s : State) (c : Cid) (f : Ctx → Ctx) : (s.modCx c f).cometTurn = s.cometTurn := rfl
@[simp] theorem State.modCx_cometCore (s : State) (c : Cid) (f : Ctx → Ctx) : (s.modCx c f).cometCore = s.cometCore := rfl
@[simp] theorem State.modCx_retireQ (s : State) (c : Cid) (f : Ctx → Ctx) : (s.modCx c f).retireQ = s.retireQ := rfl
@[simp] theorem State.modCx_retired (s : State) (c : Cid) (f : Ctx → Ctx) : (s.modCx c f).retired = s.retired := rfl
@[simp] theorem State.modCx_updHalf (s : State) (c : Cid) (f : Ctx → Ctx) : (s.modCx c f).updHalf = s.updHalf := rfl
@[simp] theorem State.modCx_boot (s : State) (c : Cid) (f : Ctx → Ctx) : (s.modCx c f).boot = s.boot := rfl
@[simp] theorem State.modCx_warmBoot (s : State) (c : Cid) (f : Ctx → Ctx) : (s.modCx c f).warmBoot = s.warmBoot := rfl
@[simp] theorem State.modCx_trained (s : State) (c : Cid) (f : Ctx → Ctx) : (s.modCx c f).trained = s.trained := rfl
@[simp] theorem State.modCx_cfgNext (s : State) (c : Cid) (f : Ctx → Ctx) : (s.modCx c f).cfgNext = s.cfgNext := rfl
@[simp] theorem State.modCx_bootHalf (s : State) (c : Cid) (f : Ctx → Ctx) : (s.modCx c f).bootHalf = s.bootHalf := rfl
@[simp] theorem State.modCx_flash (s : State) (c : Cid) (f : Ctx → Ctx) : (s.modCx c f).flash = s.flash := rfl
@[simp] theorem State.modCx_cst (s : State) (c : Cid) (f : Ctx → Ctx) : (s.modCx c f).cst = s.cst := rfl
@[simp] theorem State.modCx_romStopped (s : State) (c : Cid) (f : Ctx → Ctx) : (s.modCx c f).romStopped = s.romStopped := rfl
@[simp] theorem State.modCx_eclPart (s : State) (c : Cid) (f : Ctx → Ctx) : (s.modCx c f).eclPart = s.eclPart := rfl
@[simp] theorem State.modCx_eclWait (s : State) (c : Cid) (f : Ctx → Ctx) : (s.modCx c f).eclWait = s.eclWait := rfl
@[simp] theorem State.modCx_heldReset (s : State) (c : Cid) (f : Ctx → Ctx) : (s.modCx c f).heldReset = s.heldReset := rfl
@[simp] theorem State.modCx_traceSince (s : State) (c : Cid) (f : Ctx → Ctx) : (s.modCx c f).traceSince = s.traceSince := rfl
@[simp] theorem State.modCx_traceOwed (s : State) (c : Cid) (f : Ctx → Ctx) : (s.modCx c f).traceOwed = s.traceOwed := rfl
@[simp] theorem State.modCx_eclOut (s : State) (c : Cid) (f : Ctx → Ctx) : (s.modCx c f).eclOut = s.eclOut := rfl
@[simp] theorem State.modCx_tapIr (s : State) (c : Cid) (f : Ctx → Ctx) : (s.modCx c f).tapIr = s.tapIr := rfl
@[simp] theorem State.modCx_tapPtr (s : State) (c : Cid) (f : Ctx → Ctx) : (s.modCx c f).tapPtr = s.tapPtr := rfl
@[simp] theorem State.modCx_tapOut (s : State) (c : Cid) (f : Ctx → Ctx) : (s.modCx c f).tapOut = s.tapOut := rfl
@[simp] theorem State.modCx_dbgOp (s : State) (c : Cid) (f : Ctx → Ctx) : (s.modCx c f).dbgOp = s.dbgOp := rfl
@[simp] theorem State.modCx_bsr (s : State) (c : Cid) (f : Ctx → Ctx) : (s.modCx c f).bsr = s.bsr := rfl
@[simp] theorem State.modCx_dbgDue (s : State) (c : Cid) (f : Ctx → Ctx) : (s.modCx c f).dbgDue = s.dbgDue := rfl

/-! ### setCore -/

@[simp] theorem State.setCore_pending (s : State) (k : Nat) (x : CoreSt) : (s.setCore k x).pending = s.pending := rfl
@[simp] theorem State.setCore_free (s : State) (k : Nat) (x : CoreSt) : (s.setCore k x).free = s.free := rfl
@[simp] theorem State.setCore_ticks (s : State) (k : Nat) (x : CoreSt) : (s.setCore k x).ticks = s.ticks := rfl
@[simp] theorem State.setCore_creg (s : State) (k : Nat) (x : CoreSt) : (s.setCore k x).creg = s.creg := rfl
@[simp] theorem State.setCore_mem (s : State) (k : Nat) (x : CoreSt) : (s.setCore k x).mem = s.mem := rfl
@[simp] theorem State.setCore_ue (s : State) (k : Nat) (x : CoreSt) : (s.setCore k x).ue = s.ue := rfl
@[simp] theorem State.setCore_dramCap (s : State) (k : Nat) (x : CoreSt) : (s.setCore k x).dramCap = s.dramCap := rfl
@[simp] theorem State.setCore_fkey (s : State) (k : Nat) (x : CoreSt) : (s.setCore k x).fkey = s.fkey := rfl
@[simp] theorem State.setCore_ctx (s : State) (k : Nat) (x : CoreSt) : (s.setCore k x).ctx = s.ctx := rfl
@[simp] theorem State.setCore_sched (s : State) (k : Nat) (x : CoreSt) : (s.setCore k x).sched = s.sched := rfl
@[simp] theorem State.setCore_inval (s : State) (k : Nat) (x : CoreSt) : (s.setCore k x).inval = s.inval := rfl
@[simp] theorem State.setCore_eclInv (s : State) (k : Nat) (x : CoreSt) : (s.setCore k x).eclInv = s.eclInv := rfl
@[simp] theorem State.setCore_lockSet (s : State) (k : Nat) (x : CoreSt) : (s.setCore k x).lockSet = s.lockSet := rfl
@[simp] theorem State.setCore_irt (s : State) (k : Nat) (x : CoreSt) : (s.setCore k x).irt = s.irt := rfl
@[simp] theorem State.setCore_swi (s : State) (k : Nat) (x : CoreSt) : (s.setCore k x).swi = s.swi := rfl
@[simp] theorem State.setCore_intake (s : State) (k : Nat) (x : CoreSt) : (s.setCore k x).intake = s.intake := rfl
@[simp] theorem State.setCore_traceq (s : State) (k : Nat) (x : CoreSt) : (s.setCore k x).traceq = s.traceq := rfl
@[simp] theorem State.setCore_traceLost (s : State) (k : Nat) (x : CoreSt) : (s.setCore k x).traceLost = s.traceLost := rfl
@[simp] theorem State.setCore_stopped (s : State) (k : Nat) (x : CoreSt) : (s.setCore k x).stopped = s.stopped := rfl
@[simp] theorem State.setCore_tbSec (s : State) (k : Nat) (x : CoreSt) : (s.setCore k x).tbSec = s.tbSec := rfl
@[simp] theorem State.setCore_tbNs (s : State) (k : Nat) (x : CoreSt) : (s.setCore k x).tbNs = s.tbNs := rfl
@[simp] theorem State.setCore_tbFrac (s : State) (k : Nat) (x : CoreSt) : (s.setCore k x).tbFrac = s.tbFrac := rfl
@[simp] theorem State.setCore_acct (s : State) (k : Nat) (x : CoreSt) : (s.setCore k x).acct = s.acct := rfl
@[simp] theorem State.setCore_ceBase (s : State) (k : Nat) (x : CoreSt) : (s.setCore k x).ceBase = s.ceBase := rfl
@[simp] theorem State.setCore_fmtRanges (s : State) (k : Nat) (x : CoreSt) : (s.setCore k x).fmtRanges = s.fmtRanges := rfl
@[simp] theorem State.setCore_coldClear (s : State) (k : Nat) (x : CoreSt) : (s.setCore k x).coldClear = s.coldClear := rfl
@[simp] theorem State.setCore_tickets (s : State) (k : Nat) (x : CoreSt) : (s.setCore k x).tickets = s.tickets := rfl
@[simp] theorem State.setCore_tktStamp (s : State) (k : Nat) (x : CoreSt) : (s.setCore k x).tktStamp = s.tktStamp := rfl
@[simp] theorem State.setCore_tports (s : State) (k : Nat) (x : CoreSt) : (s.setCore k x).tports = s.tports := rfl
@[simp] theorem State.setCore_tptr (s : State) (k : Nat) (x : CoreSt) : (s.setCore k x).tptr = s.tptr := rfl
@[simp] theorem State.setCore_banks (s : State) (k : Nat) (x : CoreSt) : (s.setCore k x).banks = s.banks := rfl
@[simp] theorem State.setCore_cutOp (s : State) (k : Nat) (x : CoreSt) : (s.setCore k x).cutOp = s.cutOp := rfl
@[simp] theorem State.setCore_prelOp (s : State) (k : Nat) (x : CoreSt) : (s.setCore k x).prelOp = s.prelOp := rfl
@[simp] theorem State.setCore_replayEntries (s : State) (k : Nat) (x : CoreSt) : (s.setCore k x).replayEntries = s.replayEntries := rfl
@[simp] theorem State.setCore_remoteOps (s : State) (k : Nat) (x : CoreSt) : (s.setCore k x).remoteOps = s.remoteOps := rfl
@[simp] theorem State.setCore_ix (s : State) (k : Nat) (x : CoreSt) : (s.setCore k x).ix = s.ix := rfl
@[simp] theorem State.setCore_ixTag (s : State) (k : Nat) (x : CoreSt) : (s.setCore k x).ixTag = s.ixTag := rfl
@[simp] theorem State.setCore_ixHold (s : State) (k : Nat) (x : CoreSt) : (s.setCore k x).ixHold = s.ixHold := rfl
@[simp] theorem State.setCore_ixRing (s : State) (k : Nat) (x : CoreSt) : (s.setCore k x).ixRing = s.ixRing := rfl
@[simp] theorem State.setCore_ixHeard (s : State) (k : Nat) (x : CoreSt) : (s.setCore k x).ixHeard = s.ixHeard := rfl
@[simp] theorem State.setCore_ixElse (s : State) (k : Nat) (x : CoreSt) : (s.setCore k x).ixElse = s.ixElse := rfl
@[simp] theorem State.setCore_ixIn (s : State) (k : Nat) (x : CoreSt) : (s.setCore k x).ixIn = s.ixIn := rfl
@[simp] theorem State.setCore_ffOut (s : State) (k : Nat) (x : CoreSt) : (s.setCore k x).ffOut = s.ffOut := rfl
@[simp] theorem State.setCore_noPrim (s : State) (k : Nat) (x : CoreSt) : (s.setCore k x).noPrim = s.noPrim := rfl
@[simp] theorem State.setCore_queues (s : State) (k : Nat) (x : CoreSt) : (s.setCore k x).queues = s.queues := rfl
@[simp] theorem State.setCore_qstamp (s : State) (k : Nat) (x : CoreSt) : (s.setCore k x).qstamp = s.qstamp := rfl
@[simp] theorem State.setCore_qports (s : State) (k : Nat) (x : CoreSt) : (s.setCore k x).qports = s.qports := rfl
@[simp] theorem State.setCore_qptr (s : State) (k : Nat) (x : CoreSt) : (s.setCore k x).qptr = s.qptr := rfl
@[simp] theorem State.setCore_qtags (s : State) (k : Nat) (x : CoreSt) : (s.setCore k x).qtags = s.qtags := rfl
@[simp] theorem State.setCore_orphans (s : State) (k : Nat) (x : CoreSt) : (s.setCore k x).orphans = s.orphans := rfl
@[simp] theorem State.setCore_msix (s : State) (k : Nat) (x : CoreSt) : (s.setCore k x).msix = s.msix := rfl
@[simp] theorem State.setCore_jr (s : State) (k : Nat) (x : CoreSt) : (s.setCore k x).jr = s.jr := rfl
@[simp] theorem State.setCore_weigh (s : State) (k : Nat) (x : CoreSt) : (s.setCore k x).weigh = s.weigh := rfl
@[simp] theorem State.setCore_wgSec (s : State) (k : Nat) (x : CoreSt) : (s.setCore k x).wgSec = s.wgSec := rfl
@[simp] theorem State.setCore_wgNs (s : State) (k : Nat) (x : CoreSt) : (s.setCore k x).wgNs = s.wgNs := rfl
@[simp] theorem State.setCore_own (s : State) (k : Nat) (x : CoreSt) : (s.setCore k x).own = s.own := rfl
@[simp] theorem State.setCore_claimRes (s : State) (k : Nat) (x : CoreSt) : (s.setCore k x).claimRes = s.claimRes := rfl
@[simp] theorem State.setCore_ownSel (s : State) (k : Nat) (x : CoreSt) : (s.setCore k x).ownSel = s.ownSel := rfl
@[simp] theorem State.setCore_framers (s : State) (k : Nat) (x : CoreSt) : (s.setCore k x).framers = s.framers := rfl
@[simp] theorem State.setCore_ready (s : State) (k : Nat) (x : CoreSt) : (s.setCore k x).ready = s.ready := rfl
@[simp] theorem State.setCore_dropSec (s : State) (k : Nat) (x : CoreSt) : (s.setCore k x).dropSec = s.dropSec := rfl
@[simp] theorem State.setCore_usbErr (s : State) (k : Nat) (x : CoreSt) : (s.setCore k x).usbErr = s.usbErr := rfl
@[simp] theorem State.setCore_usbTog (s : State) (k : Nat) (x : CoreSt) : (s.setCore k x).usbTog = s.usbTog := rfl
@[simp] theorem State.setCore_ctlReq (s : State) (k : Nat) (x : CoreSt) : (s.setCore k x).ctlReq = s.ctlReq := rfl
@[simp] theorem State.setCore_txHeld (s : State) (k : Nat) (x : CoreSt) : (s.setCore k x).txHeld = s.txHeld := rfl
@[simp] theorem State.setCore_wire (s : State) (k : Nat) (x : CoreSt) : (s.setCore k x).wire = s.wire := rfl
@[simp] theorem State.setCore_tmOut (s : State) (k : Nat) (x : CoreSt) : (s.setCore k x).tmOut = s.tmOut := rfl
@[simp] theorem State.setCore_tmAt (s : State) (k : Nat) (x : CoreSt) : (s.setCore k x).tmAt = s.tmAt := rfl
@[simp] theorem State.setCore_netFifo (s : State) (k : Nat) (x : CoreSt) : (s.setCore k x).netFifo = s.netFifo := rfl
@[simp] theorem State.setCore_pauseSent (s : State) (k : Nat) (x : CoreSt) : (s.setCore k x).pauseSent = s.pauseSent := rfl
@[simp] theorem State.setCore_txReports (s : State) (k : Nat) (x : CoreSt) : (s.setCore k x).txReports = s.txReports := rfl
@[simp] theorem State.setCore_roleSet (s : State) (k : Nat) (x : CoreSt) : (s.setCore k x).roleSet = s.roleSet := rfl
@[simp] theorem State.setCore_hostCpl (s : State) (k : Nat) (x : CoreSt) : (s.setCore k x).hostCpl = s.hostCpl := rfl
@[simp] theorem State.setCore_pciReq (s : State) (k : Nat) (x : CoreSt) : (s.setCore k x).pciReq = s.pciReq := rfl
@[simp] theorem State.setCore_pciSec (s : State) (k : Nat) (x : CoreSt) : (s.setCore k x).pciSec = s.pciSec := rfl
@[simp] theorem State.setCore_qmsgSec (s : State) (k : Nat) (x : CoreSt) : (s.setCore k x).qmsgSec = s.qmsgSec := rfl
@[simp] theorem State.setCore_cutAt (s : State) (k : Nat) (x : CoreSt) : (s.setCore k x).cutAt = s.cutAt := rfl
@[simp] theorem State.setCore_gcutOn (s : State) (k : Nat) (x : CoreSt) : (s.setCore k x).gcutOn = s.gcutOn := rfl
@[simp] theorem State.setCore_jsnAsked (s : State) (k : Nat) (x : CoreSt) : (s.setCore k x).jsnAsked = s.jsnAsked := rfl
@[simp] theorem State.setCore_hiEpoch (s : State) (k : Nat) (x : CoreSt) : (s.setCore k x).hiEpoch = s.hiEpoch := rfl
@[simp] theorem State.setCore_tableSeen (s : State) (k : Nat) (x : CoreSt) : (s.setCore k x).tableSeen = s.tableSeen := rfl
@[simp] theorem State.setCore_noQuorum (s : State) (k : Nat) (x : CoreSt) : (s.setCore k x).noQuorum = s.noQuorum := rfl
@[simp] theorem State.setCore_memRds (s : State) (k : Nat) (x : CoreSt) : (s.setCore k x).memRds = s.memRds := rfl
@[simp] theorem State.setCore_ixLnk (s : State) (k : Nat) (x : CoreSt) : (s.setCore k x).ixLnk = s.ixLnk := rfl
@[simp] theorem State.setCore_vault (s : State) (k : Nat) (x : CoreSt) : (s.setCore k x).vault = s.vault := rfl
@[simp] theorem State.setCore_jobs (s : State) (k : Nat) (x : CoreSt) : (s.setCore k x).jobs = s.jobs := rfl
@[simp] theorem State.setCore_unitLast (s : State) (k : Nat) (x : CoreSt) : (s.setCore k x).unitLast = s.unitLast := rfl
@[simp] theorem State.setCore_drbgJobs (s : State) (k : Nat) (x : CoreSt) : (s.setCore k x).drbgJobs = s.drbgJobs := rfl
@[simp] theorem State.setCore_recs (s : State) (k : Nat) (x : CoreSt) : (s.setCore k x).recs = s.recs := rfl
@[simp] theorem State.setCore_recLost (s : State) (k : Nat) (x : CoreSt) : (s.setCore k x).recLost = s.recLost := rfl
@[simp] theorem State.setCore_protNext (s : State) (k : Nat) (x : CoreSt) : (s.setCore k x).protNext = s.protNext := rfl
@[simp] theorem State.setCore_swCopies (s : State) (k : Nat) (x : CoreSt) : (s.setCore k x).swCopies = s.swCopies := rfl
@[simp] theorem State.setCore_clears (s : State) (k : Nat) (x : CoreSt) : (s.setCore k x).clears = s.clears := rfl
@[simp] theorem State.setCore_clearRun (s : State) (k : Nat) (x : CoreSt) : (s.setCore k x).clearRun = s.clearRun := rfl
@[simp] theorem State.setCore_opTicks (s : State) (k : Nat) (x : CoreSt) : (s.setCore k x).opTicks = s.opTicks := rfl
@[simp] theorem State.setCore_grantTicks (s : State) (k : Nat) (x : CoreSt) : (s.setCore k x).grantTicks = s.grantTicks := rfl
@[simp] theorem State.setCore_vdd (s : State) (k : Nat) (x : CoreSt) : (s.setCore k x).vdd = s.vdd := rfl
@[simp] theorem State.setCore_pwrUp (s : State) (k : Nat) (x : CoreSt) : (s.setCore k x).pwrUp = s.pwrUp := rfl
@[simp] theorem State.setCore_pwrRun (s : State) (k : Nat) (x : CoreSt) : (s.setCore k x).pwrRun = s.pwrRun := rfl
@[simp] theorem State.setCore_pmbLow (s : State) (k : Nat) (x : CoreSt) : (s.setCore k x).pmbLow = s.pmbLow := rfl
@[simp] theorem State.setCore_pmbHold (s : State) (k : Nat) (x : CoreSt) : (s.setCore k x).pmbHold = s.pmbHold := rfl
@[simp] theorem State.setCore_trip (s : State) (k : Nat) (x : CoreSt) : (s.setCore k x).trip = s.trip := rfl
@[simp] theorem State.setCore_coolRun (s : State) (k : Nat) (x : CoreSt) : (s.setCore k x).coolRun = s.coolRun := rfl
@[simp] theorem State.setCore_sugAt (s : State) (k : Nat) (x : CoreSt) : (s.setCore k x).sugAt = s.sugAt := rfl
@[simp] theorem State.setCore_sugSec (s : State) (k : Nat) (x : CoreSt) : (s.setCore k x).sugSec = s.sugSec := rfl
@[simp] theorem State.setCore_coreCe (s : State) (k : Nat) (x : CoreSt) : (s.setCore k x).coreCe = s.coreCe := rfl
@[simp] theorem State.setCore_frameCe (s : State) (k : Nat) (x : CoreSt) : (s.setCore k x).frameCe = s.frameCe := rfl
@[simp] theorem State.setCore_subs (s : State) (k : Nat) (x : CoreSt) : (s.setCore k x).subs = s.subs := rfl
@[simp] theorem State.setCore_comet (s : State) (k : Nat) (x : CoreSt) : (s.setCore k x).comet = s.comet := rfl
@[simp] theorem State.setCore_cometBack (s : State) (k : Nat) (x : CoreSt) : (s.setCore k x).cometBack = s.cometBack := rfl
@[simp] theorem State.setCore_cometHeld (s : State) (k : Nat) (x : CoreSt) : (s.setCore k x).cometHeld = s.cometHeld := rfl
@[simp] theorem State.setCore_cometTurn (s : State) (k : Nat) (x : CoreSt) : (s.setCore k x).cometTurn = s.cometTurn := rfl
@[simp] theorem State.setCore_cometCore (s : State) (k : Nat) (x : CoreSt) : (s.setCore k x).cometCore = s.cometCore := rfl
@[simp] theorem State.setCore_retireQ (s : State) (k : Nat) (x : CoreSt) : (s.setCore k x).retireQ = s.retireQ := rfl
@[simp] theorem State.setCore_retired (s : State) (k : Nat) (x : CoreSt) : (s.setCore k x).retired = s.retired := rfl
@[simp] theorem State.setCore_updHalf (s : State) (k : Nat) (x : CoreSt) : (s.setCore k x).updHalf = s.updHalf := rfl
@[simp] theorem State.setCore_boot (s : State) (k : Nat) (x : CoreSt) : (s.setCore k x).boot = s.boot := rfl
@[simp] theorem State.setCore_warmBoot (s : State) (k : Nat) (x : CoreSt) : (s.setCore k x).warmBoot = s.warmBoot := rfl
@[simp] theorem State.setCore_trained (s : State) (k : Nat) (x : CoreSt) : (s.setCore k x).trained = s.trained := rfl
@[simp] theorem State.setCore_cfgNext (s : State) (k : Nat) (x : CoreSt) : (s.setCore k x).cfgNext = s.cfgNext := rfl
@[simp] theorem State.setCore_bootHalf (s : State) (k : Nat) (x : CoreSt) : (s.setCore k x).bootHalf = s.bootHalf := rfl
@[simp] theorem State.setCore_flash (s : State) (k : Nat) (x : CoreSt) : (s.setCore k x).flash = s.flash := rfl
@[simp] theorem State.setCore_cst (s : State) (k : Nat) (x : CoreSt) : (s.setCore k x).cst = s.cst := rfl
@[simp] theorem State.setCore_romStopped (s : State) (k : Nat) (x : CoreSt) : (s.setCore k x).romStopped = s.romStopped := rfl
@[simp] theorem State.setCore_eclPart (s : State) (k : Nat) (x : CoreSt) : (s.setCore k x).eclPart = s.eclPart := rfl
@[simp] theorem State.setCore_eclWait (s : State) (k : Nat) (x : CoreSt) : (s.setCore k x).eclWait = s.eclWait := rfl
@[simp] theorem State.setCore_heldReset (s : State) (k : Nat) (x : CoreSt) : (s.setCore k x).heldReset = s.heldReset := rfl
@[simp] theorem State.setCore_traceSince (s : State) (k : Nat) (x : CoreSt) : (s.setCore k x).traceSince = s.traceSince := rfl
@[simp] theorem State.setCore_traceOwed (s : State) (k : Nat) (x : CoreSt) : (s.setCore k x).traceOwed = s.traceOwed := rfl
@[simp] theorem State.setCore_eclOut (s : State) (k : Nat) (x : CoreSt) : (s.setCore k x).eclOut = s.eclOut := rfl
@[simp] theorem State.setCore_tapIr (s : State) (k : Nat) (x : CoreSt) : (s.setCore k x).tapIr = s.tapIr := rfl
@[simp] theorem State.setCore_tapPtr (s : State) (k : Nat) (x : CoreSt) : (s.setCore k x).tapPtr = s.tapPtr := rfl
@[simp] theorem State.setCore_tapOut (s : State) (k : Nat) (x : CoreSt) : (s.setCore k x).tapOut = s.tapOut := rfl
@[simp] theorem State.setCore_dbgOp (s : State) (k : Nat) (x : CoreSt) : (s.setCore k x).dbgOp = s.dbgOp := rfl
@[simp] theorem State.setCore_bsr (s : State) (k : Nat) (x : CoreSt) : (s.setCore k x).bsr = s.bsr := rfl
@[simp] theorem State.setCore_dbgDue (s : State) (k : Nat) (x : CoreSt) : (s.setCore k x).dbgDue = s.dbgDue := rfl

/-! ### setByte -/

@[simp] theorem State.setByte_pending (s : State) (a : Nat) (b : Byte) : (s.setByte a b).pending = s.pending := rfl
@[simp] theorem State.setByte_free (s : State) (a : Nat) (b : Byte) : (s.setByte a b).free = s.free := rfl
@[simp] theorem State.setByte_ticks (s : State) (a : Nat) (b : Byte) : (s.setByte a b).ticks = s.ticks := rfl
@[simp] theorem State.setByte_creg (s : State) (a : Nat) (b : Byte) : (s.setByte a b).creg = s.creg := rfl
@[simp] theorem State.setByte_dramCap (s : State) (a : Nat) (b : Byte) : (s.setByte a b).dramCap = s.dramCap := rfl
@[simp] theorem State.setByte_fkey (s : State) (a : Nat) (b : Byte) : (s.setByte a b).fkey = s.fkey := rfl
@[simp] theorem State.setByte_ctx (s : State) (a : Nat) (b : Byte) : (s.setByte a b).ctx = s.ctx := rfl
@[simp] theorem State.setByte_core (s : State) (a : Nat) (b : Byte) : (s.setByte a b).core = s.core := rfl
@[simp] theorem State.setByte_sched (s : State) (a : Nat) (b : Byte) : (s.setByte a b).sched = s.sched := rfl
@[simp] theorem State.setByte_inval (s : State) (a : Nat) (b : Byte) : (s.setByte a b).inval = s.inval := rfl
@[simp] theorem State.setByte_eclInv (s : State) (a : Nat) (b : Byte) : (s.setByte a b).eclInv = s.eclInv := rfl
@[simp] theorem State.setByte_lockSet (s : State) (a : Nat) (b : Byte) : (s.setByte a b).lockSet = s.lockSet := rfl
@[simp] theorem State.setByte_irt (s : State) (a : Nat) (b : Byte) : (s.setByte a b).irt = s.irt := rfl
@[simp] theorem State.setByte_swi (s : State) (a : Nat) (b : Byte) : (s.setByte a b).swi = s.swi := rfl
@[simp] theorem State.setByte_intake (s : State) (a : Nat) (b : Byte) : (s.setByte a b).intake = s.intake := rfl
@[simp] theorem State.setByte_traceq (s : State) (a : Nat) (b : Byte) : (s.setByte a b).traceq = s.traceq := rfl
@[simp] theorem State.setByte_traceLost (s : State) (a : Nat) (b : Byte) : (s.setByte a b).traceLost = s.traceLost := rfl
@[simp] theorem State.setByte_stopped (s : State) (a : Nat) (b : Byte) : (s.setByte a b).stopped = s.stopped := rfl
@[simp] theorem State.setByte_tbSec (s : State) (a : Nat) (b : Byte) : (s.setByte a b).tbSec = s.tbSec := rfl
@[simp] theorem State.setByte_tbNs (s : State) (a : Nat) (b : Byte) : (s.setByte a b).tbNs = s.tbNs := rfl
@[simp] theorem State.setByte_tbFrac (s : State) (a : Nat) (b : Byte) : (s.setByte a b).tbFrac = s.tbFrac := rfl
@[simp] theorem State.setByte_acct (s : State) (a : Nat) (b : Byte) : (s.setByte a b).acct = s.acct := rfl
@[simp] theorem State.setByte_ceBase (s : State) (a : Nat) (b : Byte) : (s.setByte a b).ceBase = s.ceBase := rfl
@[simp] theorem State.setByte_fmtRanges (s : State) (a : Nat) (b : Byte) : (s.setByte a b).fmtRanges = s.fmtRanges := rfl
@[simp] theorem State.setByte_coldClear (s : State) (a : Nat) (b : Byte) : (s.setByte a b).coldClear = s.coldClear := rfl
@[simp] theorem State.setByte_tickets (s : State) (a : Nat) (b : Byte) : (s.setByte a b).tickets = s.tickets := rfl
@[simp] theorem State.setByte_tktStamp (s : State) (a : Nat) (b : Byte) : (s.setByte a b).tktStamp = s.tktStamp := rfl
@[simp] theorem State.setByte_tports (s : State) (a : Nat) (b : Byte) : (s.setByte a b).tports = s.tports := rfl
@[simp] theorem State.setByte_tptr (s : State) (a : Nat) (b : Byte) : (s.setByte a b).tptr = s.tptr := rfl
@[simp] theorem State.setByte_banks (s : State) (a : Nat) (b : Byte) : (s.setByte a b).banks = s.banks := rfl
@[simp] theorem State.setByte_cutOp (s : State) (a : Nat) (b : Byte) : (s.setByte a b).cutOp = s.cutOp := rfl
@[simp] theorem State.setByte_prelOp (s : State) (a : Nat) (b : Byte) : (s.setByte a b).prelOp = s.prelOp := rfl
@[simp] theorem State.setByte_replayEntries (s : State) (a : Nat) (b : Byte) : (s.setByte a b).replayEntries = s.replayEntries := rfl
@[simp] theorem State.setByte_remoteOps (s : State) (a : Nat) (b : Byte) : (s.setByte a b).remoteOps = s.remoteOps := rfl
@[simp] theorem State.setByte_ix (s : State) (a : Nat) (b : Byte) : (s.setByte a b).ix = s.ix := rfl
@[simp] theorem State.setByte_ixTag (s : State) (a : Nat) (b : Byte) : (s.setByte a b).ixTag = s.ixTag := rfl
@[simp] theorem State.setByte_ixHold (s : State) (a : Nat) (b : Byte) : (s.setByte a b).ixHold = s.ixHold := rfl
@[simp] theorem State.setByte_ixRing (s : State) (a : Nat) (b : Byte) : (s.setByte a b).ixRing = s.ixRing := rfl
@[simp] theorem State.setByte_ixHeard (s : State) (a : Nat) (b : Byte) : (s.setByte a b).ixHeard = s.ixHeard := rfl
@[simp] theorem State.setByte_ixElse (s : State) (a : Nat) (b : Byte) : (s.setByte a b).ixElse = s.ixElse := rfl
@[simp] theorem State.setByte_ixIn (s : State) (a : Nat) (b : Byte) : (s.setByte a b).ixIn = s.ixIn := rfl
@[simp] theorem State.setByte_ffOut (s : State) (a : Nat) (b : Byte) : (s.setByte a b).ffOut = s.ffOut := rfl
@[simp] theorem State.setByte_noPrim (s : State) (a : Nat) (b : Byte) : (s.setByte a b).noPrim = s.noPrim := rfl
@[simp] theorem State.setByte_queues (s : State) (a : Nat) (b : Byte) : (s.setByte a b).queues = s.queues := rfl
@[simp] theorem State.setByte_qstamp (s : State) (a : Nat) (b : Byte) : (s.setByte a b).qstamp = s.qstamp := rfl
@[simp] theorem State.setByte_qports (s : State) (a : Nat) (b : Byte) : (s.setByte a b).qports = s.qports := rfl
@[simp] theorem State.setByte_qptr (s : State) (a : Nat) (b : Byte) : (s.setByte a b).qptr = s.qptr := rfl
@[simp] theorem State.setByte_qtags (s : State) (a : Nat) (b : Byte) : (s.setByte a b).qtags = s.qtags := rfl
@[simp] theorem State.setByte_orphans (s : State) (a : Nat) (b : Byte) : (s.setByte a b).orphans = s.orphans := rfl
@[simp] theorem State.setByte_msix (s : State) (a : Nat) (b : Byte) : (s.setByte a b).msix = s.msix := rfl
@[simp] theorem State.setByte_jr (s : State) (a : Nat) (b : Byte) : (s.setByte a b).jr = s.jr := rfl
@[simp] theorem State.setByte_weigh (s : State) (a : Nat) (b : Byte) : (s.setByte a b).weigh = s.weigh := rfl
@[simp] theorem State.setByte_wgSec (s : State) (a : Nat) (b : Byte) : (s.setByte a b).wgSec = s.wgSec := rfl
@[simp] theorem State.setByte_wgNs (s : State) (a : Nat) (b : Byte) : (s.setByte a b).wgNs = s.wgNs := rfl
@[simp] theorem State.setByte_own (s : State) (a : Nat) (b : Byte) : (s.setByte a b).own = s.own := rfl
@[simp] theorem State.setByte_claimRes (s : State) (a : Nat) (b : Byte) : (s.setByte a b).claimRes = s.claimRes := rfl
@[simp] theorem State.setByte_ownSel (s : State) (a : Nat) (b : Byte) : (s.setByte a b).ownSel = s.ownSel := rfl
@[simp] theorem State.setByte_framers (s : State) (a : Nat) (b : Byte) : (s.setByte a b).framers = s.framers := rfl
@[simp] theorem State.setByte_ready (s : State) (a : Nat) (b : Byte) : (s.setByte a b).ready = s.ready := rfl
@[simp] theorem State.setByte_dropSec (s : State) (a : Nat) (b : Byte) : (s.setByte a b).dropSec = s.dropSec := rfl
@[simp] theorem State.setByte_usbErr (s : State) (a : Nat) (b : Byte) : (s.setByte a b).usbErr = s.usbErr := rfl
@[simp] theorem State.setByte_usbTog (s : State) (a : Nat) (b : Byte) : (s.setByte a b).usbTog = s.usbTog := rfl
@[simp] theorem State.setByte_ctlReq (s : State) (a : Nat) (b : Byte) : (s.setByte a b).ctlReq = s.ctlReq := rfl
@[simp] theorem State.setByte_txHeld (s : State) (a : Nat) (b : Byte) : (s.setByte a b).txHeld = s.txHeld := rfl
@[simp] theorem State.setByte_wire (s : State) (a : Nat) (b : Byte) : (s.setByte a b).wire = s.wire := rfl
@[simp] theorem State.setByte_tmOut (s : State) (a : Nat) (b : Byte) : (s.setByte a b).tmOut = s.tmOut := rfl
@[simp] theorem State.setByte_tmAt (s : State) (a : Nat) (b : Byte) : (s.setByte a b).tmAt = s.tmAt := rfl
@[simp] theorem State.setByte_netFifo (s : State) (a : Nat) (b : Byte) : (s.setByte a b).netFifo = s.netFifo := rfl
@[simp] theorem State.setByte_pauseSent (s : State) (a : Nat) (b : Byte) : (s.setByte a b).pauseSent = s.pauseSent := rfl
@[simp] theorem State.setByte_txReports (s : State) (a : Nat) (b : Byte) : (s.setByte a b).txReports = s.txReports := rfl
@[simp] theorem State.setByte_roleSet (s : State) (a : Nat) (b : Byte) : (s.setByte a b).roleSet = s.roleSet := rfl
@[simp] theorem State.setByte_hostCpl (s : State) (a : Nat) (b : Byte) : (s.setByte a b).hostCpl = s.hostCpl := rfl
@[simp] theorem State.setByte_pciReq (s : State) (a : Nat) (b : Byte) : (s.setByte a b).pciReq = s.pciReq := rfl
@[simp] theorem State.setByte_pciSec (s : State) (a : Nat) (b : Byte) : (s.setByte a b).pciSec = s.pciSec := rfl
@[simp] theorem State.setByte_qmsgSec (s : State) (a : Nat) (b : Byte) : (s.setByte a b).qmsgSec = s.qmsgSec := rfl
@[simp] theorem State.setByte_cutAt (s : State) (a : Nat) (b : Byte) : (s.setByte a b).cutAt = s.cutAt := rfl
@[simp] theorem State.setByte_gcutOn (s : State) (a : Nat) (b : Byte) : (s.setByte a b).gcutOn = s.gcutOn := rfl
@[simp] theorem State.setByte_jsnAsked (s : State) (a : Nat) (b : Byte) : (s.setByte a b).jsnAsked = s.jsnAsked := rfl
@[simp] theorem State.setByte_hiEpoch (s : State) (a : Nat) (b : Byte) : (s.setByte a b).hiEpoch = s.hiEpoch := rfl
@[simp] theorem State.setByte_tableSeen (s : State) (a : Nat) (b : Byte) : (s.setByte a b).tableSeen = s.tableSeen := rfl
@[simp] theorem State.setByte_noQuorum (s : State) (a : Nat) (b : Byte) : (s.setByte a b).noQuorum = s.noQuorum := rfl
@[simp] theorem State.setByte_memRds (s : State) (a : Nat) (b : Byte) : (s.setByte a b).memRds = s.memRds := rfl
@[simp] theorem State.setByte_ixLnk (s : State) (a : Nat) (b : Byte) : (s.setByte a b).ixLnk = s.ixLnk := rfl
@[simp] theorem State.setByte_vault (s : State) (a : Nat) (b : Byte) : (s.setByte a b).vault = s.vault := rfl
@[simp] theorem State.setByte_jobs (s : State) (a : Nat) (b : Byte) : (s.setByte a b).jobs = s.jobs := rfl
@[simp] theorem State.setByte_unitLast (s : State) (a : Nat) (b : Byte) : (s.setByte a b).unitLast = s.unitLast := rfl
@[simp] theorem State.setByte_drbgJobs (s : State) (a : Nat) (b : Byte) : (s.setByte a b).drbgJobs = s.drbgJobs := rfl
@[simp] theorem State.setByte_recs (s : State) (a : Nat) (b : Byte) : (s.setByte a b).recs = s.recs := rfl
@[simp] theorem State.setByte_recLost (s : State) (a : Nat) (b : Byte) : (s.setByte a b).recLost = s.recLost := rfl
@[simp] theorem State.setByte_protNext (s : State) (a : Nat) (b : Byte) : (s.setByte a b).protNext = s.protNext := rfl
@[simp] theorem State.setByte_swCopies (s : State) (a : Nat) (b : Byte) : (s.setByte a b).swCopies = s.swCopies := rfl
@[simp] theorem State.setByte_clears (s : State) (a : Nat) (b : Byte) : (s.setByte a b).clears = s.clears := rfl
@[simp] theorem State.setByte_clearRun (s : State) (a : Nat) (b : Byte) : (s.setByte a b).clearRun = s.clearRun := rfl
@[simp] theorem State.setByte_opTicks (s : State) (a : Nat) (b : Byte) : (s.setByte a b).opTicks = s.opTicks := rfl
@[simp] theorem State.setByte_grantTicks (s : State) (a : Nat) (b : Byte) : (s.setByte a b).grantTicks = s.grantTicks := rfl
@[simp] theorem State.setByte_vdd (s : State) (a : Nat) (b : Byte) : (s.setByte a b).vdd = s.vdd := rfl
@[simp] theorem State.setByte_pwrUp (s : State) (a : Nat) (b : Byte) : (s.setByte a b).pwrUp = s.pwrUp := rfl
@[simp] theorem State.setByte_pwrRun (s : State) (a : Nat) (b : Byte) : (s.setByte a b).pwrRun = s.pwrRun := rfl
@[simp] theorem State.setByte_pmbLow (s : State) (a : Nat) (b : Byte) : (s.setByte a b).pmbLow = s.pmbLow := rfl
@[simp] theorem State.setByte_pmbHold (s : State) (a : Nat) (b : Byte) : (s.setByte a b).pmbHold = s.pmbHold := rfl
@[simp] theorem State.setByte_trip (s : State) (a : Nat) (b : Byte) : (s.setByte a b).trip = s.trip := rfl
@[simp] theorem State.setByte_coolRun (s : State) (a : Nat) (b : Byte) : (s.setByte a b).coolRun = s.coolRun := rfl
@[simp] theorem State.setByte_sugAt (s : State) (a : Nat) (b : Byte) : (s.setByte a b).sugAt = s.sugAt := rfl
@[simp] theorem State.setByte_sugSec (s : State) (a : Nat) (b : Byte) : (s.setByte a b).sugSec = s.sugSec := rfl
@[simp] theorem State.setByte_coreCe (s : State) (a : Nat) (b : Byte) : (s.setByte a b).coreCe = s.coreCe := rfl
@[simp] theorem State.setByte_frameCe (s : State) (a : Nat) (b : Byte) : (s.setByte a b).frameCe = s.frameCe := rfl
@[simp] theorem State.setByte_subs (s : State) (a : Nat) (b : Byte) : (s.setByte a b).subs = s.subs := rfl
@[simp] theorem State.setByte_comet (s : State) (a : Nat) (b : Byte) : (s.setByte a b).comet = s.comet := rfl
@[simp] theorem State.setByte_cometBack (s : State) (a : Nat) (b : Byte) : (s.setByte a b).cometBack = s.cometBack := rfl
@[simp] theorem State.setByte_cometHeld (s : State) (a : Nat) (b : Byte) : (s.setByte a b).cometHeld = s.cometHeld := rfl
@[simp] theorem State.setByte_cometTurn (s : State) (a : Nat) (b : Byte) : (s.setByte a b).cometTurn = s.cometTurn := rfl
@[simp] theorem State.setByte_cometCore (s : State) (a : Nat) (b : Byte) : (s.setByte a b).cometCore = s.cometCore := rfl
@[simp] theorem State.setByte_retireQ (s : State) (a : Nat) (b : Byte) : (s.setByte a b).retireQ = s.retireQ := rfl
@[simp] theorem State.setByte_retired (s : State) (a : Nat) (b : Byte) : (s.setByte a b).retired = s.retired := rfl
@[simp] theorem State.setByte_updHalf (s : State) (a : Nat) (b : Byte) : (s.setByte a b).updHalf = s.updHalf := rfl
@[simp] theorem State.setByte_boot (s : State) (a : Nat) (b : Byte) : (s.setByte a b).boot = s.boot := rfl
@[simp] theorem State.setByte_warmBoot (s : State) (a : Nat) (b : Byte) : (s.setByte a b).warmBoot = s.warmBoot := rfl
@[simp] theorem State.setByte_trained (s : State) (a : Nat) (b : Byte) : (s.setByte a b).trained = s.trained := rfl
@[simp] theorem State.setByte_cfgNext (s : State) (a : Nat) (b : Byte) : (s.setByte a b).cfgNext = s.cfgNext := rfl
@[simp] theorem State.setByte_bootHalf (s : State) (a : Nat) (b : Byte) : (s.setByte a b).bootHalf = s.bootHalf := rfl
@[simp] theorem State.setByte_flash (s : State) (a : Nat) (b : Byte) : (s.setByte a b).flash = s.flash := rfl
@[simp] theorem State.setByte_cst (s : State) (a : Nat) (b : Byte) : (s.setByte a b).cst = s.cst := rfl
@[simp] theorem State.setByte_romStopped (s : State) (a : Nat) (b : Byte) : (s.setByte a b).romStopped = s.romStopped := rfl
@[simp] theorem State.setByte_eclPart (s : State) (a : Nat) (b : Byte) : (s.setByte a b).eclPart = s.eclPart := rfl
@[simp] theorem State.setByte_eclWait (s : State) (a : Nat) (b : Byte) : (s.setByte a b).eclWait = s.eclWait := rfl
@[simp] theorem State.setByte_heldReset (s : State) (a : Nat) (b : Byte) : (s.setByte a b).heldReset = s.heldReset := rfl
@[simp] theorem State.setByte_traceSince (s : State) (a : Nat) (b : Byte) : (s.setByte a b).traceSince = s.traceSince := rfl
@[simp] theorem State.setByte_traceOwed (s : State) (a : Nat) (b : Byte) : (s.setByte a b).traceOwed = s.traceOwed := rfl
@[simp] theorem State.setByte_eclOut (s : State) (a : Nat) (b : Byte) : (s.setByte a b).eclOut = s.eclOut := rfl
@[simp] theorem State.setByte_tapIr (s : State) (a : Nat) (b : Byte) : (s.setByte a b).tapIr = s.tapIr := rfl
@[simp] theorem State.setByte_tapPtr (s : State) (a : Nat) (b : Byte) : (s.setByte a b).tapPtr = s.tapPtr := rfl
@[simp] theorem State.setByte_tapOut (s : State) (a : Nat) (b : Byte) : (s.setByte a b).tapOut = s.tapOut := rfl
@[simp] theorem State.setByte_dbgOp (s : State) (a : Nat) (b : Byte) : (s.setByte a b).dbgOp = s.dbgOp := rfl
@[simp] theorem State.setByte_bsr (s : State) (a : Nat) (b : Byte) : (s.setByte a b).bsr = s.bsr := rfl
@[simp] theorem State.setByte_dbgDue (s : State) (a : Nat) (b : Byte) : (s.setByte a b).dbgDue = s.dbgDue := rfl

/-! ### setKeyByte -/

@[simp] theorem State.setKeyByte_pending (s : State) (n : Nat) (b : Byte) : (s.setKeyByte n b).pending = s.pending := rfl
@[simp] theorem State.setKeyByte_free (s : State) (n : Nat) (b : Byte) : (s.setKeyByte n b).free = s.free := rfl
@[simp] theorem State.setKeyByte_ticks (s : State) (n : Nat) (b : Byte) : (s.setKeyByte n b).ticks = s.ticks := rfl
@[simp] theorem State.setKeyByte_creg (s : State) (n : Nat) (b : Byte) : (s.setKeyByte n b).creg = s.creg := rfl
@[simp] theorem State.setKeyByte_mem (s : State) (n : Nat) (b : Byte) : (s.setKeyByte n b).mem = s.mem := rfl
@[simp] theorem State.setKeyByte_ue (s : State) (n : Nat) (b : Byte) : (s.setKeyByte n b).ue = s.ue := rfl
@[simp] theorem State.setKeyByte_dramCap (s : State) (n : Nat) (b : Byte) : (s.setKeyByte n b).dramCap = s.dramCap := rfl
@[simp] theorem State.setKeyByte_ctx (s : State) (n : Nat) (b : Byte) : (s.setKeyByte n b).ctx = s.ctx := rfl
@[simp] theorem State.setKeyByte_core (s : State) (n : Nat) (b : Byte) : (s.setKeyByte n b).core = s.core := rfl
@[simp] theorem State.setKeyByte_sched (s : State) (n : Nat) (b : Byte) : (s.setKeyByte n b).sched = s.sched := rfl
@[simp] theorem State.setKeyByte_inval (s : State) (n : Nat) (b : Byte) : (s.setKeyByte n b).inval = s.inval := rfl
@[simp] theorem State.setKeyByte_eclInv (s : State) (n : Nat) (b : Byte) : (s.setKeyByte n b).eclInv = s.eclInv := rfl
@[simp] theorem State.setKeyByte_lockSet (s : State) (n : Nat) (b : Byte) : (s.setKeyByte n b).lockSet = s.lockSet := rfl
@[simp] theorem State.setKeyByte_irt (s : State) (n : Nat) (b : Byte) : (s.setKeyByte n b).irt = s.irt := rfl
@[simp] theorem State.setKeyByte_swi (s : State) (n : Nat) (b : Byte) : (s.setKeyByte n b).swi = s.swi := rfl
@[simp] theorem State.setKeyByte_intake (s : State) (n : Nat) (b : Byte) : (s.setKeyByte n b).intake = s.intake := rfl
@[simp] theorem State.setKeyByte_traceq (s : State) (n : Nat) (b : Byte) : (s.setKeyByte n b).traceq = s.traceq := rfl
@[simp] theorem State.setKeyByte_traceLost (s : State) (n : Nat) (b : Byte) : (s.setKeyByte n b).traceLost = s.traceLost := rfl
@[simp] theorem State.setKeyByte_stopped (s : State) (n : Nat) (b : Byte) : (s.setKeyByte n b).stopped = s.stopped := rfl
@[simp] theorem State.setKeyByte_tbSec (s : State) (n : Nat) (b : Byte) : (s.setKeyByte n b).tbSec = s.tbSec := rfl
@[simp] theorem State.setKeyByte_tbNs (s : State) (n : Nat) (b : Byte) : (s.setKeyByte n b).tbNs = s.tbNs := rfl
@[simp] theorem State.setKeyByte_tbFrac (s : State) (n : Nat) (b : Byte) : (s.setKeyByte n b).tbFrac = s.tbFrac := rfl
@[simp] theorem State.setKeyByte_acct (s : State) (n : Nat) (b : Byte) : (s.setKeyByte n b).acct = s.acct := rfl
@[simp] theorem State.setKeyByte_ceBase (s : State) (n : Nat) (b : Byte) : (s.setKeyByte n b).ceBase = s.ceBase := rfl
@[simp] theorem State.setKeyByte_fmtRanges (s : State) (n : Nat) (b : Byte) : (s.setKeyByte n b).fmtRanges = s.fmtRanges := rfl
@[simp] theorem State.setKeyByte_coldClear (s : State) (n : Nat) (b : Byte) : (s.setKeyByte n b).coldClear = s.coldClear := rfl
@[simp] theorem State.setKeyByte_tickets (s : State) (n : Nat) (b : Byte) : (s.setKeyByte n b).tickets = s.tickets := rfl
@[simp] theorem State.setKeyByte_tktStamp (s : State) (n : Nat) (b : Byte) : (s.setKeyByte n b).tktStamp = s.tktStamp := rfl
@[simp] theorem State.setKeyByte_tports (s : State) (n : Nat) (b : Byte) : (s.setKeyByte n b).tports = s.tports := rfl
@[simp] theorem State.setKeyByte_tptr (s : State) (n : Nat) (b : Byte) : (s.setKeyByte n b).tptr = s.tptr := rfl
@[simp] theorem State.setKeyByte_banks (s : State) (n : Nat) (b : Byte) : (s.setKeyByte n b).banks = s.banks := rfl
@[simp] theorem State.setKeyByte_cutOp (s : State) (n : Nat) (b : Byte) : (s.setKeyByte n b).cutOp = s.cutOp := rfl
@[simp] theorem State.setKeyByte_prelOp (s : State) (n : Nat) (b : Byte) : (s.setKeyByte n b).prelOp = s.prelOp := rfl
@[simp] theorem State.setKeyByte_replayEntries (s : State) (n : Nat) (b : Byte) : (s.setKeyByte n b).replayEntries = s.replayEntries := rfl
@[simp] theorem State.setKeyByte_remoteOps (s : State) (n : Nat) (b : Byte) : (s.setKeyByte n b).remoteOps = s.remoteOps := rfl
@[simp] theorem State.setKeyByte_ix (s : State) (n : Nat) (b : Byte) : (s.setKeyByte n b).ix = s.ix := rfl
@[simp] theorem State.setKeyByte_ixTag (s : State) (n : Nat) (b : Byte) : (s.setKeyByte n b).ixTag = s.ixTag := rfl
@[simp] theorem State.setKeyByte_ixHold (s : State) (n : Nat) (b : Byte) : (s.setKeyByte n b).ixHold = s.ixHold := rfl
@[simp] theorem State.setKeyByte_ixRing (s : State) (n : Nat) (b : Byte) : (s.setKeyByte n b).ixRing = s.ixRing := rfl
@[simp] theorem State.setKeyByte_ixHeard (s : State) (n : Nat) (b : Byte) : (s.setKeyByte n b).ixHeard = s.ixHeard := rfl
@[simp] theorem State.setKeyByte_ixElse (s : State) (n : Nat) (b : Byte) : (s.setKeyByte n b).ixElse = s.ixElse := rfl
@[simp] theorem State.setKeyByte_ixIn (s : State) (n : Nat) (b : Byte) : (s.setKeyByte n b).ixIn = s.ixIn := rfl
@[simp] theorem State.setKeyByte_ffOut (s : State) (n : Nat) (b : Byte) : (s.setKeyByte n b).ffOut = s.ffOut := rfl
@[simp] theorem State.setKeyByte_noPrim (s : State) (n : Nat) (b : Byte) : (s.setKeyByte n b).noPrim = s.noPrim := rfl
@[simp] theorem State.setKeyByte_queues (s : State) (n : Nat) (b : Byte) : (s.setKeyByte n b).queues = s.queues := rfl
@[simp] theorem State.setKeyByte_qstamp (s : State) (n : Nat) (b : Byte) : (s.setKeyByte n b).qstamp = s.qstamp := rfl
@[simp] theorem State.setKeyByte_qports (s : State) (n : Nat) (b : Byte) : (s.setKeyByte n b).qports = s.qports := rfl
@[simp] theorem State.setKeyByte_qptr (s : State) (n : Nat) (b : Byte) : (s.setKeyByte n b).qptr = s.qptr := rfl
@[simp] theorem State.setKeyByte_qtags (s : State) (n : Nat) (b : Byte) : (s.setKeyByte n b).qtags = s.qtags := rfl
@[simp] theorem State.setKeyByte_orphans (s : State) (n : Nat) (b : Byte) : (s.setKeyByte n b).orphans = s.orphans := rfl
@[simp] theorem State.setKeyByte_msix (s : State) (n : Nat) (b : Byte) : (s.setKeyByte n b).msix = s.msix := rfl
@[simp] theorem State.setKeyByte_jr (s : State) (n : Nat) (b : Byte) : (s.setKeyByte n b).jr = s.jr := rfl
@[simp] theorem State.setKeyByte_weigh (s : State) (n : Nat) (b : Byte) : (s.setKeyByte n b).weigh = s.weigh := rfl
@[simp] theorem State.setKeyByte_wgSec (s : State) (n : Nat) (b : Byte) : (s.setKeyByte n b).wgSec = s.wgSec := rfl
@[simp] theorem State.setKeyByte_wgNs (s : State) (n : Nat) (b : Byte) : (s.setKeyByte n b).wgNs = s.wgNs := rfl
@[simp] theorem State.setKeyByte_own (s : State) (n : Nat) (b : Byte) : (s.setKeyByte n b).own = s.own := rfl
@[simp] theorem State.setKeyByte_claimRes (s : State) (n : Nat) (b : Byte) : (s.setKeyByte n b).claimRes = s.claimRes := rfl
@[simp] theorem State.setKeyByte_ownSel (s : State) (n : Nat) (b : Byte) : (s.setKeyByte n b).ownSel = s.ownSel := rfl
@[simp] theorem State.setKeyByte_framers (s : State) (n : Nat) (b : Byte) : (s.setKeyByte n b).framers = s.framers := rfl
@[simp] theorem State.setKeyByte_ready (s : State) (n : Nat) (b : Byte) : (s.setKeyByte n b).ready = s.ready := rfl
@[simp] theorem State.setKeyByte_dropSec (s : State) (n : Nat) (b : Byte) : (s.setKeyByte n b).dropSec = s.dropSec := rfl
@[simp] theorem State.setKeyByte_usbErr (s : State) (n : Nat) (b : Byte) : (s.setKeyByte n b).usbErr = s.usbErr := rfl
@[simp] theorem State.setKeyByte_usbTog (s : State) (n : Nat) (b : Byte) : (s.setKeyByte n b).usbTog = s.usbTog := rfl
@[simp] theorem State.setKeyByte_ctlReq (s : State) (n : Nat) (b : Byte) : (s.setKeyByte n b).ctlReq = s.ctlReq := rfl
@[simp] theorem State.setKeyByte_txHeld (s : State) (n : Nat) (b : Byte) : (s.setKeyByte n b).txHeld = s.txHeld := rfl
@[simp] theorem State.setKeyByte_wire (s : State) (n : Nat) (b : Byte) : (s.setKeyByte n b).wire = s.wire := rfl
@[simp] theorem State.setKeyByte_tmOut (s : State) (n : Nat) (b : Byte) : (s.setKeyByte n b).tmOut = s.tmOut := rfl
@[simp] theorem State.setKeyByte_tmAt (s : State) (n : Nat) (b : Byte) : (s.setKeyByte n b).tmAt = s.tmAt := rfl
@[simp] theorem State.setKeyByte_netFifo (s : State) (n : Nat) (b : Byte) : (s.setKeyByte n b).netFifo = s.netFifo := rfl
@[simp] theorem State.setKeyByte_pauseSent (s : State) (n : Nat) (b : Byte) : (s.setKeyByte n b).pauseSent = s.pauseSent := rfl
@[simp] theorem State.setKeyByte_txReports (s : State) (n : Nat) (b : Byte) : (s.setKeyByte n b).txReports = s.txReports := rfl
@[simp] theorem State.setKeyByte_roleSet (s : State) (n : Nat) (b : Byte) : (s.setKeyByte n b).roleSet = s.roleSet := rfl
@[simp] theorem State.setKeyByte_hostCpl (s : State) (n : Nat) (b : Byte) : (s.setKeyByte n b).hostCpl = s.hostCpl := rfl
@[simp] theorem State.setKeyByte_pciReq (s : State) (n : Nat) (b : Byte) : (s.setKeyByte n b).pciReq = s.pciReq := rfl
@[simp] theorem State.setKeyByte_pciSec (s : State) (n : Nat) (b : Byte) : (s.setKeyByte n b).pciSec = s.pciSec := rfl
@[simp] theorem State.setKeyByte_qmsgSec (s : State) (n : Nat) (b : Byte) : (s.setKeyByte n b).qmsgSec = s.qmsgSec := rfl
@[simp] theorem State.setKeyByte_cutAt (s : State) (n : Nat) (b : Byte) : (s.setKeyByte n b).cutAt = s.cutAt := rfl
@[simp] theorem State.setKeyByte_gcutOn (s : State) (n : Nat) (b : Byte) : (s.setKeyByte n b).gcutOn = s.gcutOn := rfl
@[simp] theorem State.setKeyByte_jsnAsked (s : State) (n : Nat) (b : Byte) : (s.setKeyByte n b).jsnAsked = s.jsnAsked := rfl
@[simp] theorem State.setKeyByte_hiEpoch (s : State) (n : Nat) (b : Byte) : (s.setKeyByte n b).hiEpoch = s.hiEpoch := rfl
@[simp] theorem State.setKeyByte_tableSeen (s : State) (n : Nat) (b : Byte) : (s.setKeyByte n b).tableSeen = s.tableSeen := rfl
@[simp] theorem State.setKeyByte_noQuorum (s : State) (n : Nat) (b : Byte) : (s.setKeyByte n b).noQuorum = s.noQuorum := rfl
@[simp] theorem State.setKeyByte_memRds (s : State) (n : Nat) (b : Byte) : (s.setKeyByte n b).memRds = s.memRds := rfl
@[simp] theorem State.setKeyByte_ixLnk (s : State) (n : Nat) (b : Byte) : (s.setKeyByte n b).ixLnk = s.ixLnk := rfl
@[simp] theorem State.setKeyByte_vault (s : State) (n : Nat) (b : Byte) : (s.setKeyByte n b).vault = s.vault := rfl
@[simp] theorem State.setKeyByte_jobs (s : State) (n : Nat) (b : Byte) : (s.setKeyByte n b).jobs = s.jobs := rfl
@[simp] theorem State.setKeyByte_unitLast (s : State) (n : Nat) (b : Byte) : (s.setKeyByte n b).unitLast = s.unitLast := rfl
@[simp] theorem State.setKeyByte_drbgJobs (s : State) (n : Nat) (b : Byte) : (s.setKeyByte n b).drbgJobs = s.drbgJobs := rfl
@[simp] theorem State.setKeyByte_recs (s : State) (n : Nat) (b : Byte) : (s.setKeyByte n b).recs = s.recs := rfl
@[simp] theorem State.setKeyByte_recLost (s : State) (n : Nat) (b : Byte) : (s.setKeyByte n b).recLost = s.recLost := rfl
@[simp] theorem State.setKeyByte_protNext (s : State) (n : Nat) (b : Byte) : (s.setKeyByte n b).protNext = s.protNext := rfl
@[simp] theorem State.setKeyByte_swCopies (s : State) (n : Nat) (b : Byte) : (s.setKeyByte n b).swCopies = s.swCopies := rfl
@[simp] theorem State.setKeyByte_clears (s : State) (n : Nat) (b : Byte) : (s.setKeyByte n b).clears = s.clears := rfl
@[simp] theorem State.setKeyByte_clearRun (s : State) (n : Nat) (b : Byte) : (s.setKeyByte n b).clearRun = s.clearRun := rfl
@[simp] theorem State.setKeyByte_opTicks (s : State) (n : Nat) (b : Byte) : (s.setKeyByte n b).opTicks = s.opTicks := rfl
@[simp] theorem State.setKeyByte_grantTicks (s : State) (n : Nat) (b : Byte) : (s.setKeyByte n b).grantTicks = s.grantTicks := rfl
@[simp] theorem State.setKeyByte_vdd (s : State) (n : Nat) (b : Byte) : (s.setKeyByte n b).vdd = s.vdd := rfl
@[simp] theorem State.setKeyByte_pwrUp (s : State) (n : Nat) (b : Byte) : (s.setKeyByte n b).pwrUp = s.pwrUp := rfl
@[simp] theorem State.setKeyByte_pwrRun (s : State) (n : Nat) (b : Byte) : (s.setKeyByte n b).pwrRun = s.pwrRun := rfl
@[simp] theorem State.setKeyByte_pmbLow (s : State) (n : Nat) (b : Byte) : (s.setKeyByte n b).pmbLow = s.pmbLow := rfl
@[simp] theorem State.setKeyByte_pmbHold (s : State) (n : Nat) (b : Byte) : (s.setKeyByte n b).pmbHold = s.pmbHold := rfl
@[simp] theorem State.setKeyByte_trip (s : State) (n : Nat) (b : Byte) : (s.setKeyByte n b).trip = s.trip := rfl
@[simp] theorem State.setKeyByte_coolRun (s : State) (n : Nat) (b : Byte) : (s.setKeyByte n b).coolRun = s.coolRun := rfl
@[simp] theorem State.setKeyByte_sugAt (s : State) (n : Nat) (b : Byte) : (s.setKeyByte n b).sugAt = s.sugAt := rfl
@[simp] theorem State.setKeyByte_sugSec (s : State) (n : Nat) (b : Byte) : (s.setKeyByte n b).sugSec = s.sugSec := rfl
@[simp] theorem State.setKeyByte_coreCe (s : State) (n : Nat) (b : Byte) : (s.setKeyByte n b).coreCe = s.coreCe := rfl
@[simp] theorem State.setKeyByte_frameCe (s : State) (n : Nat) (b : Byte) : (s.setKeyByte n b).frameCe = s.frameCe := rfl
@[simp] theorem State.setKeyByte_subs (s : State) (n : Nat) (b : Byte) : (s.setKeyByte n b).subs = s.subs := rfl
@[simp] theorem State.setKeyByte_comet (s : State) (n : Nat) (b : Byte) : (s.setKeyByte n b).comet = s.comet := rfl
@[simp] theorem State.setKeyByte_cometBack (s : State) (n : Nat) (b : Byte) : (s.setKeyByte n b).cometBack = s.cometBack := rfl
@[simp] theorem State.setKeyByte_cometHeld (s : State) (n : Nat) (b : Byte) : (s.setKeyByte n b).cometHeld = s.cometHeld := rfl
@[simp] theorem State.setKeyByte_cometTurn (s : State) (n : Nat) (b : Byte) : (s.setKeyByte n b).cometTurn = s.cometTurn := rfl
@[simp] theorem State.setKeyByte_cometCore (s : State) (n : Nat) (b : Byte) : (s.setKeyByte n b).cometCore = s.cometCore := rfl
@[simp] theorem State.setKeyByte_retireQ (s : State) (n : Nat) (b : Byte) : (s.setKeyByte n b).retireQ = s.retireQ := rfl
@[simp] theorem State.setKeyByte_retired (s : State) (n : Nat) (b : Byte) : (s.setKeyByte n b).retired = s.retired := rfl
@[simp] theorem State.setKeyByte_updHalf (s : State) (n : Nat) (b : Byte) : (s.setKeyByte n b).updHalf = s.updHalf := rfl
@[simp] theorem State.setKeyByte_boot (s : State) (n : Nat) (b : Byte) : (s.setKeyByte n b).boot = s.boot := rfl
@[simp] theorem State.setKeyByte_warmBoot (s : State) (n : Nat) (b : Byte) : (s.setKeyByte n b).warmBoot = s.warmBoot := rfl
@[simp] theorem State.setKeyByte_trained (s : State) (n : Nat) (b : Byte) : (s.setKeyByte n b).trained = s.trained := rfl
@[simp] theorem State.setKeyByte_cfgNext (s : State) (n : Nat) (b : Byte) : (s.setKeyByte n b).cfgNext = s.cfgNext := rfl
@[simp] theorem State.setKeyByte_bootHalf (s : State) (n : Nat) (b : Byte) : (s.setKeyByte n b).bootHalf = s.bootHalf := rfl
@[simp] theorem State.setKeyByte_flash (s : State) (n : Nat) (b : Byte) : (s.setKeyByte n b).flash = s.flash := rfl
@[simp] theorem State.setKeyByte_cst (s : State) (n : Nat) (b : Byte) : (s.setKeyByte n b).cst = s.cst := rfl
@[simp] theorem State.setKeyByte_romStopped (s : State) (n : Nat) (b : Byte) : (s.setKeyByte n b).romStopped = s.romStopped := rfl
@[simp] theorem State.setKeyByte_eclPart (s : State) (n : Nat) (b : Byte) : (s.setKeyByte n b).eclPart = s.eclPart := rfl
@[simp] theorem State.setKeyByte_eclWait (s : State) (n : Nat) (b : Byte) : (s.setKeyByte n b).eclWait = s.eclWait := rfl
@[simp] theorem State.setKeyByte_heldReset (s : State) (n : Nat) (b : Byte) : (s.setKeyByte n b).heldReset = s.heldReset := rfl
@[simp] theorem State.setKeyByte_traceSince (s : State) (n : Nat) (b : Byte) : (s.setKeyByte n b).traceSince = s.traceSince := rfl
@[simp] theorem State.setKeyByte_traceOwed (s : State) (n : Nat) (b : Byte) : (s.setKeyByte n b).traceOwed = s.traceOwed := rfl
@[simp] theorem State.setKeyByte_eclOut (s : State) (n : Nat) (b : Byte) : (s.setKeyByte n b).eclOut = s.eclOut := rfl
@[simp] theorem State.setKeyByte_tapIr (s : State) (n : Nat) (b : Byte) : (s.setKeyByte n b).tapIr = s.tapIr := rfl
@[simp] theorem State.setKeyByte_tapPtr (s : State) (n : Nat) (b : Byte) : (s.setKeyByte n b).tapPtr = s.tapPtr := rfl
@[simp] theorem State.setKeyByte_tapOut (s : State) (n : Nat) (b : Byte) : (s.setKeyByte n b).tapOut = s.tapOut := rfl
@[simp] theorem State.setKeyByte_dbgOp (s : State) (n : Nat) (b : Byte) : (s.setKeyByte n b).dbgOp = s.dbgOp := rfl
@[simp] theorem State.setKeyByte_bsr (s : State) (n : Nat) (b : Byte) : (s.setKeyByte n b).bsr = s.bsr := rfl
@[simp] theorem State.setKeyByte_dbgDue (s : State) (n : Nat) (b : Byte) : (s.setKeyByte n b).dbgDue = s.dbgDue := rfl

/-! ### Bit fields -/

theorem getF_lt (w : Word) (lo len : Nat) : getF w lo len < 2 ^ len := (w.extractLsb' lo len).isLt

theorem getF_eq (w : Word) (lo len : Nat) : getF w lo len = w.toNat / 2 ^ lo % 2 ^ len := by
  simp [getF, BitVec.extractLsb'_toNat, Nat.shiftRight_eq_div_pow]

theorem fieldMask_bit (lo len i : Nat) (hi : i < 40) :
    (fieldMask lo len).getLsbD i = (decide (lo ≤ i) && decide (i < lo + len)) := by
  simp only [fieldMask, BitVec.getLsbD_ofNat, hi, decide_true, Bool.true_and]
  rw [Nat.testBit_mul_two_pow]
  by_cases h : lo ≤ i
  · simp only [h, decide_true, Bool.true_and, Nat.testBit_two_pow_sub_one]
    exact decide_eq_decide.mpr (by omega)
  · simp [h]

theorem putF_bit (w : Word) (lo len v i : Nat) (hi : i < 40) :
    (putF w lo len v).getLsbD i =
      if lo ≤ i ∧ i < lo + len then v.testBit (i - lo) else w.getLsbD i := by
  simp only [putF, BitVec.getLsbD_or, BitVec.getLsbD_and, BitVec.getLsbD_not, hi, decide_true, Bool.true_and,
    fieldMask_bit lo len i hi, BitVec.getLsbD_ofNat, Nat.testBit_mul_two_pow, Nat.testBit_mod_two_pow]
  by_cases h1 : lo ≤ i
  · by_cases h2 : i < lo + len
    · have : i - lo < len := by omega
      simp [h1, h2, this]
    · have : ¬ (i - lo < len) := by omega
      simp [h1, h2, this]
  · simp [h1]

/-- A field reads back what was written to it. -/
theorem getF_putF_same (w : Word) (lo len v : Nat) (h : lo + len ≤ 40) : getF (putF w lo len v) lo len = v % 2 ^ len := by
  apply Nat.eq_of_testBit_eq
  intro i
  by_cases hi : i < len
  · have e : (getF (putF w lo len v) lo len).testBit i = (putF w lo len v).getLsbD (lo + i) := by
      simp [getF, hi, BitVec.getLsbD]
    rw [e, putF_bit _ _ _ _ _ (by omega)]
    simp [hi]
  · rw [Nat.testBit_lt_two_pow (Nat.lt_of_lt_of_le (getF_lt _ _ _) (Nat.pow_le_pow_right (by omega) (Nat.le_of_not_lt hi)))]
    simp [hi]

/-- A field keeps its value when a field beside it is written. -/
theorem getF_putF_disj (w : Word) (lo len v lo' len' : Nat) (h : lo' + len' ≤ lo ∨ lo + len ≤ lo') :
    getF (putF w lo len v) lo' len' = getF w lo' len' := by
  apply Nat.eq_of_testBit_eq
  intro i
  simp only [getF]
  by_cases hi : i < len'
  · by_cases h40 : lo' + i < 40
    · have e : ∀ u : Word, (u.extractLsb' lo' len').toNat.testBit i = u.getLsbD (lo' + i) := by
        intro u; simp [hi, BitVec.getLsbD]
      rw [e, e, putF_bit _ _ _ _ _ h40, if_neg (by omega)]
    · have z : ∀ u : Word, u.toNat.testBit (lo' + i) = false := fun u => BitVec.getLsbD_of_ge u _ (Nat.le_of_not_lt h40)
      simp [hi, z]
  · simp [hi]

/-- Bits outside a field keep their values when the field is written. -/
theorem putF_bit_ne (w : Word) (lo len v i : Nat) (h : i < lo ∨ lo + len ≤ i) :
    (putF w lo len v).getLsbD i = w.getLsbD i := by
  by_cases hi : i < 40
  · rw [putF_bit _ _ _ _ _ hi, if_neg (by omega)]
  · rw [BitVec.getLsbD_of_ge _ _ (Nat.le_of_not_lt hi), BitVec.getLsbD_of_ge _ _ (Nat.le_of_not_lt hi)]

/-! ### Control registers -/

/-- A register reads back the value stored in it. -/
@[simp] theorem State.reg_setReg_same (s : State) (a : Nat) (v : Word) : (s.setReg a v).reg a = v :=
  tabGet_tabSet_same _ _ _ _

/-- Storing a register leaves every other register alone. -/
theorem State.reg_setReg_ne (s : State) (a b : Nat) (v : Word) (h : a ≠ b) : (s.setReg a v).reg b = s.reg b :=
  tabGet_tabSet_ne _ _ _ _ _ _ h

@[simp] theorem State.reg_put_same (s : State) (f : Fld) (v : Nat) :
    (s.put f v).reg f.addr = putF (s.reg f.addr) f.lo f.len v := State.reg_setReg_same _ _ _

theorem State.reg_put_ne (s : State) (f : Fld) (v : Nat) (b : Nat) (h : f.addr ≠ b) : (s.put f v).reg b = s.reg b :=
  State.reg_setReg_ne _ _ _ _ h

/-- A field reads back what was put in it. -/
theorem State.get_put_same (s : State) (f : Fld) (v : Nat) (h : f.lo + f.len ≤ 40) : (s.put f v).get f = v % 2 ^ f.len := by
  simp only [State.get, State.reg_put_same]
  exact getF_putF_same _ _ _ _ h

/-- A field of another register keeps its value. -/
theorem State.get_put_ne (s : State) (f g : Fld) (v : Nat) (h : f.addr ≠ g.addr) : (s.put f v).get g = s.get g := by
  simp only [State.get, State.reg_put_ne s f v g.addr h]

/-- A field beside the one written keeps its value. -/
theorem State.get_put_disj (s : State) (f g : Fld) (v : Nat) (h : g.lo + g.len ≤ f.lo ∨ f.lo + f.len ≤ g.lo) :
    (s.put f v).get g = s.get g := by
  by_cases he : f.addr = g.addr
  · simp only [State.get, ← he, State.reg_put_same]
    exact getF_putF_disj _ _ _ _ _ _ h
  · exact State.get_put_ne s f g v he

theorem State.get_setReg_ne (s : State) (a : Nat) (v : Word) (g : Fld) (h : a ≠ g.addr) : (s.setReg a v).get g = s.get g := by
  simp only [State.get, State.reg_setReg_ne s a g.addr v h]

/-! ### Contexts, cores, memory -/

/-- A context reads back what was stored. -/
@[simp] theorem State.cx_setCx_same (s : State) (c : Cid) (x : Ctx) : (s.setCx c x).cx c = x := tabGet_tabSet_same _ _ _ _

/-- Storing a context leaves every other context alone. -/
theorem State.cx_setCx_ne (s : State) (c d : Cid) (x : Ctx) (h : c ≠ d) : (s.setCx c x).cx d = s.cx d :=
  tabGet_tabSet_ne _ _ _ _ _ _ (fun e => h (BitVec.eq_of_toNat_eq e))

@[simp] theorem State.cx_modCx_same (s : State) (c : Cid) (f : Ctx → Ctx) : (s.modCx c f).cx c = f (s.cx c) :=
  State.cx_setCx_same _ _ _

theorem State.cx_modCx_ne (s : State) (c d : Cid) (f : Ctx → Ctx) (h : c ≠ d) : (s.modCx c f).cx d = s.cx d :=
  State.cx_setCx_ne _ _ _ _ h

@[simp] theorem State.core_setCore_same (s : State) (k : Nat) (x : CoreSt) : (s.setCore k x).core_ k = x :=
  tabGet_tabSet_same _ _ _ _

theorem State.core_setCore_ne (s : State) (k j : Nat) (x : CoreSt) (h : k ≠ j) : (s.setCore k x).core_ j = s.core_ j :=
  tabGet_tabSet_ne _ _ _ _ _ _ h

/-- A byte reads back what was stored. -/
@[simp] theorem State.byte_setByte_same (s : State) (a : Nat) (b : Byte) : (s.setByte a b).byte a = b :=
  tabGet_tabSet_same _ _ _ _

/-- Storing a byte leaves every other byte alone. -/
theorem State.byte_setByte_ne (s : State) (a j : Nat) (b : Byte) (h : a ≠ j) : (s.setByte a b).byte j = s.byte j :=
  tabGet_tabSet_ne _ _ _ _ _ _ h

@[simp] theorem State.keyByte_setKeyByte_same (s : State) (n : Nat) (b : Byte) : (s.setKeyByte n b).keyByte n = b :=
  tabGet_tabSet_same _ _ _ _

theorem State.keyByte_setKeyByte_ne (s : State) (n j : Nat) (b : Byte) (h : n ≠ j) :
    (s.setKeyByte n b).keyByte j = s.keyByte j := tabGet_tabSet_ne _ _ _ _ _ _ h

/-! What a read of one table sees of an update of another. -/

@[simp] theorem State.reg_setCx (s : State) (c : Cid) (x : Ctx) (a : Nat) : (s.setCx c x).reg a = s.reg a := rfl
@[simp] theorem State.reg_modCx (s : State) (c : Cid) (f : Ctx → Ctx) (a : Nat) : (s.modCx c f).reg a = s.reg a := rfl
@[simp] theorem State.reg_setCore (s : State) (k : Nat) (x : CoreSt) (a : Nat) : (s.setCore k x).reg a = s.reg a := rfl
@[simp] theorem State.reg_setByte (s : State) (k : Nat) (x : Byte) (a : Nat) : (s.setByte k x).reg a = s.reg a := rfl
@[simp] theorem State.get_setCx (s : State) (c : Cid) (x : Ctx) (f : Fld) : (s.setCx c x).get f = s.get f := rfl
@[simp] theorem State.get_modCx (s : State) (c : Cid) (g : Ctx → Ctx) (f : Fld) : (s.modCx c g).get f = s.get f := rfl
@[simp] theorem State.get_setCore (s : State) (k : Nat) (x : CoreSt) (f : Fld) : (s.setCore k x).get f = s.get f := rfl
@[simp] theorem State.cx_setReg (s : State) (a : Nat) (v : Word) (c : Cid) : (s.setReg a v).cx c = s.cx c := rfl
@[simp] theorem State.cx_put (s : State) (f : Fld) (v : Nat) (c : Cid) : (s.put f v).cx c = s.cx c := rfl
@[simp] theorem State.cx_setCore (s : State) (k : Nat) (x : CoreSt) (c : Cid) : (s.setCore k x).cx c = s.cx c := rfl
@[simp] theorem State.cx_setByte (s : State) (k : Nat) (x : Byte) (c : Cid) : (s.setByte k x).cx c = s.cx c := rfl
@[simp] theorem State.core_setReg (s : State) (a : Nat) (v : Word) (k : Nat) : (s.setReg a v).core_ k = s.core_ k := rfl
@[simp] theorem State.core_put (s : State) (f : Fld) (v : Nat) (k : Nat) : (s.put f v).core_ k = s.core_ k := rfl
@[simp] theorem State.core_setCx (s : State) (c : Cid) (x : Ctx) (k : Nat) : (s.setCx c x).core_ k = s.core_ k := rfl
@[simp] theorem State.core_modCx (s : State) (c : Cid) (f : Ctx → Ctx) (k : Nat) : (s.modCx c f).core_ k = s.core_ k := rfl
@[simp] theorem State.byte_setReg (s : State) (a : Nat) (v : Word) (k : Nat) : (s.setReg a v).byte k = s.byte k := rfl
@[simp] theorem State.byte_put (s : State) (f : Fld) (v : Nat) (k : Nat) : (s.put f v).byte k = s.byte k := rfl
@[simp] theorem State.byte_setCx (s : State) (c : Cid) (x : Ctx) (k : Nat) : (s.setCx c x).byte k = s.byte k := rfl
@[simp] theorem State.byte_modCx (s : State) (c : Cid) (f : Ctx → Ctx) (k : Nat) : (s.modCx c f).byte k = s.byte k := rfl
@[simp] theorem State.byte_setCore (s : State) (j : Nat) (x : CoreSt) (k : Nat) : (s.setCore j x).byte k = s.byte k := rfl

end Sys2Proof.Machine
end

