-- ==== Sys2Proof/Laws/Hub.lean ====
section
/-! SUPPORT. The register hub: what a write that passes every test of R727 does, and what recording an error on a page does
(R41). -/

namespace Sys2Proof.Machine

/-! ### Recorded errors -/

theorem reqPl_lt (r : Requester) : reqPl r < 4 := by
  cases r with
  | ctx c pl => exact pl.isLt
  | host => decide
  | engine => decide

/-- An error is recorded: ERR reads 1, and a page that had none shows the code. -/
theorem State.pageErrs_pageErr (s : State) (p code off : Nat) (r : Requester) (wr : Bool) (hc : code < 256) :
    s.pageErrs (s.pageErr p code off r wr) p code := by
  have ho : (F.HDR.PG_INT_STATUS.ERR p).addr ≠ (F.HDR.PG_ERR_SYNDROME.OVF p).addr := by
    simp [F.HDR.PG_INT_STATUS.ERR, F.HDR.PG_ERR_SYNDROME.OVF, R.HDR.PG_INT_STATUS, R.HDR.PG_ERR_SYNDROME]
  unfold State.pageErrs State.pageErr
  by_cases h : s.flag (F.HDR.PG_INT_STATUS.ERR p) = true
  · rw [if_pos h]
    refine ⟨?_, fun h0 => absurd (h.symm.trans h0) (by simp)⟩
    rw [State.flag, State.get_put_ne _ _ _ _ (Ne.symm ho)]
    exact h
  · rw [if_neg h]
    have hr := reqPl_lt r
    have hb : b2n wr ≤ 1 := by cases wr <;> simp [b2n]
    have hb2 : b2n (r == .engine) ≤ 1 := by cases (r == Requester.engine) <;> simp [b2n]
    refine ⟨?_, fun _ => ?_⟩
    · rw [State.flag, State.get, State.reg_put_same, getF_putF_same _ _ _ _ (by simp [F.HDR.PG_INT_STATUS.ERR])]
      simp [F.HDR.PG_INT_STATUS.ERR]
    · rw [State.get_put_ne _ _ (F.HDR.PG_ERR_SYNDROME.CODE p) _ (by
        simp [F.HDR.PG_INT_STATUS.ERR, F.HDR.PG_ERR_SYNDROME.CODE, R.HDR.PG_INT_STATUS, R.HDR.PG_ERR_SYNDROME])]
      simp only [State.get, F.HDR.PG_ERR_SYNDROME.CODE, State.reg_setReg_same, getF, BitVec.extractLsb'_toNat, BitVec.toNat_ofNat, Nat.shiftRight_zero]
      omega

/-! ### Writes that pass every test -/

theorem slotOf_aligned (a : Nat) (h : a % 8 = 0) : slotOf a = a := by unfold slotOf; omega

/-- An access that reaches a register is made there, with nothing before it. -/
theorem State.regWrite_reaches (s : State) (r : Requester) (a : Nat) (v : Word) (h : s.reaches r a = true) :
    s.regWrite r a v = ctlWrite s r a v allBits := by
  simp only [State.reaches, Bool.and_eq_true, decide_eq_true_eq] at h
  obtain ⟨⟨⟨hr, -⟩, hi⟩, hc⟩ := h
  cases r with
  | ctx c pl =>
    simp only [Bool.and_eq_true, bne_iff_ne, ne_eq, Option.isNone_iff_eq_none] at hc
    simp only [State.regWrite, hr, hi, Bool.not_true, Bool.false_eq_true, if_false, if_neg hc.1, hc.2]
  | host => simp only [State.regWrite, hr, hi, Bool.not_true, Bool.false_eq_true, if_false]
  | engine => simp only [State.regWrite, hr, hi, Bool.not_true, Bool.false_eq_true, if_false]

/-- A field written over the register's value is a write of the register. -/
theorem State.fieldWrite_reaches (s : State) (r : Requester) (f : Fld) (v : Nat) (h : s.reaches r f.addr = true) :
    s.fieldWrite r f v = s.regWrite r f.addr (putF (s.reg f.addr) f.lo f.len v) := by
  simp only [State.reaches, Bool.and_eq_true, decide_eq_true_eq] at h
  simp only [State.fieldWrite, h.1.1.1, if_true, h.1.2]

/-- At a slot's own address the offset of an error is that of the slot. -/
theorem State.errAt_aligned (s t : State) (p a m : Nat) (h : a % 8 = 0) : s.errAt t p a m = t := by
  simp [State.errAt, h]

/-- A write that R727 lets through is the block's own effect, or the plain masked write. -/
theorem State.regWrite_writable (s : State) (r : Requester) (a : Nat) (v : Word) (h : s.writable r a = true) :
    ∃ k row, pageOf a = some k ∧ rowOf k (a % 4096) = some row ∧
      s.regWrite r a v = ((s.blockWrite drainCore r k a (coverValue row (s.reg a) v allBits)).getD
        (s.plainWrite k a (coverValue row (s.reg a) v allBits))).dbgThawed := by
  simp only [State.writable, Bool.and_eq_true, Bool.not_eq_true', decide_eq_true_eq] at h
  obtain ⟨⟨⟨⟨hr, hw⟩, hd⟩, ho⟩, hk⟩ := h
  cases hp : pageOf a with
  | none => rw [hp] at hk; exact absurd hk (by simp)
  | some k =>
    rw [hp] at hk
    simp only [Bool.and_eq_true, beq_iff_eq] at hk
    obtain ⟨⟨hpow, hg⟩, hrow⟩ := hk
    obtain ⟨row, hrow⟩ := Option.isSome_iff_exists.mp hrow
    have h8 : a % 8 = 0 := by
      simp only [State.reaches, Bool.and_eq_true, decide_eq_true_eq] at hr
      exact hr.1.1.2
    refine ⟨k, row, rfl, hrow, ?_⟩
    rw [s.regWrite_reaches r a v hr]
    simp only [ctlWrite, ctlWriteWith, slotOf_aligned a h8, State.errAt_aligned _ _ _ _ _ h8, hw, hp, hpow, hg, hrow, bne_self_eq_false,
      Bool.false_and, Bool.not_true, Bool.false_eq_true, if_false, if_neg (Nat.not_lt.mpr ho)]

end Sys2Proof.Machine
end

