-- ==== Sys2Proof/Laws/Issue.lean ====
section
/-! SUPPORT. Running the computation of an instruction: the laws of its monad, of the checks that every instruction meets,
and of its completion, for a context that is ready. -/

namespace Sys2Proof.Machine

/-! ### The monad -/

theorem Act.bind_apply {α β : Type} (x : Act α) (f : α → Act β) (s : State) :
    (x >>= f) s = match x s with
      | .ok (a, s1) => f a s1
      | .error e => .error e := by
  simp only [bind, StateT.bind, Except.bind]
  cases x s <;> rfl

/-- A computation that succeeds goes on. -/
theorem Act.bind_ok {α β : Type} {x : Act α} {f : α → Act β} {s s1 : State} {a : α} (h : x s = .ok (a, s1)) :
    (x >>= f) s = f a s1 := by rw [Act.bind_apply, h]

theorem Act.bind_error {α β : Type} {x : Act α} {f : α → Act β} {s : State} {e : Stop × State} (h : x s = .error e) :
    (x >>= f) s = .error e := by rw [Act.bind_apply, h]

@[simp] theorem Act.pure_apply {α : Type} (a : α) (s : State) : (pure a : Act α) s = .ok (a, s) := rfl
@[simp] theorem Act.get_apply (s : State) : (get : Act State) s = .ok (s, s) := rfl
@[simp] theorem Act.set_apply (t s : State) : (set t : Act PUnit) s = .ok (⟨⟩, t) := rfl
@[simp] theorem Act.modify_apply (f : State → State) (s : State) : (modify f : Act PUnit) s = .ok (⟨⟩, f s) := rfl
@[simp] theorem Act.stop_apply {α : Type} (e : Stop) (s : State) : (stop e : Act α) s = .error (e, s) := rfl

/-! ### Ready contexts -/

theorem State.poised_iff (s : State) (c : Cid) : s.poised c = true ↔
    s.canIssue c = true ∧ (s.cx c).late = none ∧ (s.cx c).pend = [] ∧ (s.cx c).prods = [] ∧ srLZ (s.cx c).sr = false ∧
      srES (s.cx c).sr = false ∧ srRP (s.cx c).sr = false ∧ srLD (s.cx c).sr = 0 ∧ s.bpHits c = [] := by
  simp [State.poised, and_assoc]

/-- The checks before an instruction leave a ready context with its body. -/
theorem preChecks_poised {α : Type} (s : State) (c : Cid) (k : IKind) (body : Act α) (h : s.poised c = true) :
    preChecks c k body s = body s := by
  obtain ⟨-, -, -, -, -, hes, hrp, hld, hb⟩ := (s.poised_iff c).mp h
  have hbp : checkBp c s = .ok ((), s) := by
    simp only [checkBp, Act.bind_apply, Act.get_apply, hb, Act.pure_apply]
  have hbl : (s.cx c).badLoop k = none := by
    simp only [Ctx.badLoop]
    split
    · rfl
    · simp [Ctx.finish, hrp, Ctx.loopEnd, hld]
  simp [preChecks, Act.bind_apply, hbp, hes, hrp, hbl]

/-- A ready context issues: the outcome is that of the instruction's own body. -/
theorem issue_poised (s : State) (c : Cid) (k : IKind) (body : Act (Option Exc)) (h : s.poised c = true) :
    issue c k body s = match body s with
      | .ok (e, s1) => s1.completed c e
      | .error (.stall, _) => s
      | .error (st, t) => (s.checked t c).onStop c st := by
  obtain ⟨hi, hl, -⟩ := (s.poised_iff c).mp h
  have hp := preChecks_poised s c k body h
  rcases hb : body s with ⟨_ | _, t⟩ | q <;> simp [issue, hi, hl, hp, hb]

/-- A body that completes. -/
theorem runInstr_ok (s s1 : State) (c : Cid) (k : IKind) (body : Act (Option Exc)) (h : s.poised c = true)
    (hb : body s = .ok (none, s1)) : runInstr c k body s = .next (s1.counted c) := by
  rw [runInstr, issue_poised s c k body h, hb]
  rfl

/-- A body that completes and takes an exception afterwards. -/
theorem runInstr_after (s s1 : State) (c : Cid) (k : IKind) (body : Act (Option Exc)) (e : Exc) (h : s.poised c = true)
    (hb : body s = .ok (some e, s1)) :
    runInstr c k body s = .next ((s1.counted c).takeException c ((s1.counted c).cx c).pc e) := by
  rw [runInstr, issue_poised s c k body h, hb]
  rfl

/-- A body that stops. -/
theorem runInstr_stop (s : State) (c : Cid) (k : IKind) (body : Act (Option Exc)) (st : Stop) (t : State) (h : s.poised c = true)
    (hb : body s = .error (st, t)) (hs : st ≠ .stall) : runInstr c k body s = .next ((s.checked t c).onStop c st) := by
  rw [runInstr, issue_poised s c k body h, hb]
  cases st with
  | stall => exact absurd rfl hs
  | _ => rfl

/-- The registers named exist and no read is outstanding on them. -/
theorem regs_ok (s : State) (c : Cid) (ds : List RegNo) (hp : (s.cx c).pend = []) (hd : s.dOpen c ds = true) :
    regs c ds s = .ok ((), s) := by
  have h1 : (ds.any (fun n => decide (8 ≤ n.val)) && srWD (s.cx c).sr == 0) = false := by
    simp only [State.dOpen, Bool.or_eq_true, List.all_eq_true, decide_eq_true_eq, bne_iff_ne, ne_eq] at hd
    rcases hd with h | h
    · have : ds.any (fun n => decide (8 ≤ n.val)) = false := by
        simp only [List.any_eq_false, decide_eq_true_eq]
        exact fun n hn => by have := h n hn; omega
      simp [this]
    · simp [h]
  simp only [regs, Act.bind_apply, Act.get_apply, h1, hp]
  simp

theorem flagsFree_ok (s : State) (c : Cid) (hp : (s.cx c).pend = []) : flagsFree c s = .ok ((), s) := by
  simp [flagsFree, Act.bind_apply, hp]

theorem need_true (s : State) (c : Cid) (vec : Nat) : need c vec true s = .ok ((), s) := rfl

theorem need_ok (s : State) (c : Cid) (vec : Nat) (b : Bool) (h : b = true) : need c vec b s = .ok ((), s) := by
  rw [h]; rfl

/-- A need that fails raises its vector at the instruction. -/
theorem need_false (s : State) (c : Cid) (vec : Nat) : need c vec false s =
    .error (.exc { vec := vec, fault := (s.cx c).pc, info := 0, synd := 0, hits := [] }, s) := rfl

theorem fillLazy_none (s : State) (c : Cid) (h : srLZ (s.cx c).sr = false) : fillLazy c s = .ok ((), s) := by
  simp [fillLazy, Act.bind_apply, h]

/-! ### Completion -/

theorem ctx_finish_plain (x : Ctx) (hrp : srRP x.sr = false) (hld : srLD x.sr = 0) :
    x.finish = .ok (x.goto (codeNext x.pc) false) := by
  simp [Ctx.finish, hrp, Ctx.loopEnd, hld]

/-- Completion in sequence where no repeat or loop is active. -/
theorem finish_plain (s : State) (c : Cid) (hrp : srRP (s.cx c).sr = false) (hld : srLD (s.cx c).sr = 0) :
    finish c s = .ok (none, s.modCx c (fun x => x.goto (codeNext x.pc) false)) := by
  simp only [finish, Act.bind_apply, Act.get_apply, ctx_finish_plain _ hrp hld]
  rfl

/-- A body that ends by completing in sequence from a state with no repeat or loop. -/
theorem runInstr_retire (s s1 : State) (c : Cid) (k : IKind) (body : Act (Option Exc)) (h : s.poised c = true)
    (hb : body s = finish c s1) (hrp : srRP (s1.cx c).sr = false) (hld : srLD (s1.cx c).sr = 0) :
    runInstr c k body s = .next (s1.retire c) :=
  runInstr_ok s _ c k body h (by rw [hb, finish_plain s1 c hrp hld])

/-! ### SR bits through writes of other bits -/

theorem srLD_putF (w : Word) (lo len v : Nat) (h : lo + len ≤ 27 ∨ 30 ≤ lo) : srLD (putF w lo len v) = srLD w :=
  getF_putF_disj _ _ _ _ _ _ (by omega)

theorem srRP_putF (w : Word) (lo len v : Nat) (h : lo + len ≤ 37 ∨ 38 ≤ lo) : srRP (putF w lo len v) = srRP w :=
  putF_bit_ne _ _ _ _ _ (by omega)

@[simp] theorem srLD_setBit (w : Word) (i : Nat) (b : Bool) (h : i < 27) : srLD (setBit w i b) = srLD w :=
  srLD_putF _ _ _ _ (by omega)
@[simp] theorem srRP_setBit (w : Word) (i : Nat) (b : Bool) (h : i < 37) : srRP (setBit w i b) = srRP w :=
  srRP_putF _ _ _ _ (by omega)
@[simp] theorem srLD_setCVZN (w : Word) (a b d e : Bool) : srLD (setCVZN w a b d e) = srLD w := by simp [setCVZN]
@[simp] theorem srRP_setCVZN (w : Word) (a b d e : Bool) : srRP (setCVZN w a b d e) = srRP w := by simp [setCVZN]
@[simp] theorem srLD_setZN (w : Word) (a b : Bool) : srLD (setZN w a b) = srLD w := by simp [setZN]
@[simp] theorem srRP_setZN (w : Word) (a b : Bool) : srRP (setZN w a b) = srRP w := by simp [setZN]

/-! ### What a write of a D or A register leaves of its context -/

theorem State.cx_setLoc_sr (s : State) (c : Cid) (l : DLoc) (v : DWord) : ((s.setLoc c l v).cx c).sr = (s.cx c).sr := by
  cases l <;> simp [State.setLoc]
theorem State.cx_setLoc_pc (s : State) (c : Cid) (l : DLoc) (v : DWord) : ((s.setLoc c l v).cx c).pc = (s.cx c).pc := by
  cases l <;> simp [State.setLoc]

@[simp] theorem State.cx_setD_sr (s : State) (c : Cid) (n : RegNo) (v : Nat) : ((s.setD c n v).cx c).sr = (s.cx c).sr :=
  s.cx_setLoc_sr c _ _
@[simp] theorem State.cx_setD_pc (s : State) (c : Cid) (n : RegNo) (v : Nat) : ((s.setD c n v).cx c).pc = (s.cx c).pc :=
  s.cx_setLoc_pc c _ _

@[simp] theorem State.cx_setA_sr (s : State) (c : Cid) (n : RegNo) (v : Word) : ((s.setA c n v).cx c).sr = (s.cx c).sr := by
  simp only [State.setA]
  split
  · split
    · split <;> simp
    · simp
  · split <;> simp
@[simp] theorem State.cx_setA_pc (s : State) (c : Cid) (n : RegNo) (v : Word) : ((s.setA c n v).cx c).pc = (s.cx c).pc := by
  simp only [State.setA]
  split
  · split
    · split <;> simp
    · simp
  · split <;> simp

@[simp] theorem State.cx_withSr_sr (s : State) (c : Cid) (w : Word) : ((s.withSr c w).cx c).sr = w := by simp [State.withSr]
@[simp] theorem State.cx_withSr_pc (s : State) (c : Cid) (w : Word) : ((s.withSr c w).cx c).pc = (s.cx c).pc := by
  simp [State.withSr]

end Sys2Proof.Machine
end

