-- ==== Sys2Proof/Laws/Memory.lean ====
section
/-! SUPPORT. Memory: a read after a write, the bytes that a write leaves alone, and the canonical form. -/

namespace Sys2Proof.Machine

/-! ### The canonical form -/

theorem State.wf_setByte (s : State) (a : Nat) (b : Byte) (h : Memory.wf s.mem = true) : Memory.wf (s.setByte a b).mem = true :=
  tabWf_tabSet (fun _ => 0#8) s.mem a b h

theorem State.wf_setBytes : ∀ (bs : List Byte) (s : State) (a : Nat), Memory.wf s.mem = true → Memory.wf (s.setBytes a bs).mem = true
  | [], _, _, h => h
  | b :: bs, s, a, h => State.wf_setBytes bs (s.setByte (a % 2 ^ 40) b) (a + 1) (State.wf_setByte s _ b h)

/-- Taking entries away, as a cold reset does with what is not kept, keeps the form. -/
theorem wf_filter (p : Nat × Byte → Bool) (m : List Host.Cell) (h : Memory.wf m = true) : Memory.wf (m.filter p) = true :=
  tabWf_filter (fun _ => 0#8) p m h

theorem wf_reset : Memory.wf State.reset.mem = true := rfl

/-! ### What a write of bytes touches -/

/-- Bytes outside a write that does not wrap keep their values. -/
theorem State.byte_setBytes_out : ∀ (bs : List Byte) (s : State) (a j : Nat), a + bs.length ≤ 2 ^ 40 → (j < a ∨ a + bs.length ≤ j) →
    (s.setBytes a bs).byte j = s.byte j
  | [], _, _, _, _, _ => rfl
  | b :: bs, s, a, j, ha, hj => by
    simp only [List.length_cons] at ha hj
    have hm : a % 2 ^ 40 = a := Nat.mod_eq_of_lt (by omega)
    rw [State.setBytes, State.byte_setBytes_out bs _ (a + 1) j (by omega) (by omega), hm, State.byte_setByte_ne]
    omega

/-- A write reads back. -/
theorem State.bytes_setBytes : ∀ (bs : List Byte) (s : State) (a : Nat), a + bs.length ≤ 2 ^ 40 → (s.setBytes a bs).bytes a bs.length = bs
  | [], _, _, _ => rfl
  | b :: bs, s, a, ha => by
    simp only [List.length_cons] at ha
    have hm : a % 2 ^ 40 = a := Nat.mod_eq_of_lt (by omega)
    rw [List.length_cons, State.bytes, State.setBytes, hm, State.bytes_setBytes bs _ (a + 1) (by omega),
      State.byte_setBytes_out bs _ (a + 1) a (by omega) (by omega), State.byte_setByte_same]

/-- Bytes that a write does not reach read as before. -/
theorem State.bytes_setBytes_out (bs : List Byte) (s : State) (a : Nat) (ha : a + bs.length ≤ 2 ^ 40) :
    ∀ (n j : Nat), j + n ≤ 2 ^ 40 → (j + n ≤ a ∨ a + bs.length ≤ j) → (s.setBytes a bs).bytes j n = s.bytes j n
  | 0, _, _, _ => rfl
  | n + 1, j, hj, ho => by
    have hm : j % 2 ^ 40 = j := Nat.mod_eq_of_lt (by omega)
    rw [State.bytes, State.bytes, hm, State.byte_setBytes_out bs s a j ha (by omega),
      State.bytes_setBytes_out bs s a ha n (j + 1) (by omega) (by omega)]

@[simp] theorem State.length_bytes (s : State) : ∀ (n a : Nat), (s.bytes a n).length = n
  | 0, _ => rfl
  | n + 1, a => by rw [State.bytes, List.length_cons, State.length_bytes s n (a + 1)]

/-- A write of memory leaves every register and context alone. -/
theorem State.setBytes_keeps {β : Type} (g : State → β) (hg : ∀ (s : State) (a : Nat) (b : Byte), g (s.setByte a b) = g s) :
    ∀ (bs : List Byte) (s : State) (a : Nat), g (s.setBytes a bs) = g s
  | [], _, _ => rfl
  | _ :: bs, s, a => by rw [State.setBytes, State.setBytes_keeps g hg bs, hg]

@[simp] theorem State.reg_setBytes (s : State) (a : Nat) (bs : List Byte) (k : Nat) : (s.setBytes a bs).reg k = s.reg k :=
  State.setBytes_keeps (fun s => s.reg k) (fun _ _ _ => rfl) bs s a

@[simp] theorem State.get_setBytes (s : State) (a : Nat) (bs : List Byte) (f : Fld) : (s.setBytes a bs).get f = s.get f :=
  State.setBytes_keeps (fun s => s.get f) (fun _ _ _ => rfl) bs s a

@[simp] theorem State.cx_setBytes (s : State) (a : Nat) (bs : List Byte) (c : Cid) : (s.setBytes a bs).cx c = s.cx c :=
  State.setBytes_keeps (fun s => s.cx c) (fun _ _ _ => rfl) bs s a

end Sys2Proof.Machine
end

