-- ==== Sys2Proof/Laws/Shapes.lean ====
section
/-! SUPPORT. What each shared shape of instruction does in a context that is poised: the state it leaves, said once. -/

namespace Sys2Proof.Machine

/-! ### Facts of a poised context -/

theorem State.poised_pend {s : State} {c : Cid} (h : s.poised c = true) : (s.cx c).pend = [] := ((s.poised_iff c).mp h).2.2.1
theorem State.poised_prods {s : State} {c : Cid} (h : s.poised c = true) : (s.cx c).prods = [] :=
  ((s.poised_iff c).mp h).2.2.2.1
theorem State.poised_lz {s : State} {c : Cid} (h : s.poised c = true) : srLZ (s.cx c).sr = false :=
  ((s.poised_iff c).mp h).2.2.2.2.1
theorem State.poised_rp {s : State} {c : Cid} (h : s.poised c = true) : srRP (s.cx c).sr = false :=
  ((s.poised_iff c).mp h).2.2.2.2.2.2.1
theorem State.poised_ld {s : State} {c : Cid} (h : s.poised c = true) : srLD (s.cx c).sr = 0 :=
  ((s.poised_iff c).mp h).2.2.2.2.2.2.2.1
theorem State.poised_bp {s : State} {c : Cid} (h : s.poised c = true) : s.bpHits c = [] :=
  ((s.poised_iff c).mp h).2.2.2.2.2.2.2.2

theorem State.width_cases (s : State) (c : Cid) : s.width c = 40 ∨ s.width c = 80 := by
  unfold State.width; split <;> simp

/-- A D register takes a value at the width of the mode. -/
theorem State.setD_mod (s : State) (c : Cid) (n : RegNo) (v : Nat) : s.setD c n (v % 2 ^ s.width c) = s.setD c n v := by
  simp [State.setD]

theorem State.setD_congr (s : State) (c : Cid) (n : RegNo) (v u : Nat) (h : v % 2 ^ s.width c = u % 2 ^ s.width c) :
    s.setD c n v = s.setD c n u := by
  simp [State.setD, h]

/-! ### Completion of a body -/

/-- A body that writes the state once and completes in sequence, leaving SR as it was. -/
theorem runInstr_keep (s s1 : State) (c : Cid) (k : IKind) (body : Act (Option Exc)) (h : s.poised c = true)
    (hb : body s = finish c s1) (hsr : (s1.cx c).sr = (s.cx c).sr) : runInstr c k body s = .next (s1.retire c) :=
  runInstr_retire s s1 c k body h hb (by rw [hsr]; exact State.poised_rp h) (by rw [hsr]; exact State.poised_ld h)

/-- A body that transfers control. -/
theorem runInstr_jump (s s1 : State) (c : Cid) (k : IKind) (body : Act (Option Exc)) (t : Word) (h : s.poised c = true)
    (hb : body s = transfer c t s1) : runInstr c k body s = .next (s1.jumped c t) :=
  runInstr_ok s _ c k body h hb

theorem targetOk_ok (s : State) (t : Word) (h : codeOk t = true) : targetOk t s = .ok ((), s) := by
  simp [targetOk, h]

/-- A branch by displacement. -/
theorem runInstr_branch (s s1 : State) (c : Cid) (body : Act (Option Exc)) (taken : Bool) (disp : BitVec 24)
    (h : s.poised c = true) (hb : body s = branch c taken disp s1) (hsr : (s1.cx c).sr = (s.cx c).sr)
    (hpc : (s1.cx c).pc = (s.cx c).pc) : runInstr c .noRep body s =
      .next (if taken then s1.jumped c (codeTarget (s.cx c).pc disp.toInt) else s1.retire c) := by
  cases taken
  · exact runInstr_keep s s1 c _ body h (by rw [hb]; rfl) hsr
  · exact runInstr_jump s s1 c _ body _ h (by rw [hb, ← hpc]; rfl)

/-- A call: the return address to A14, then the transfer. -/
theorem linkTo_eq (s : State) (c : Cid) (t : Word) :
    linkTo c t s = transfer c t (s.setA c 14 (codeNext (s.cx c).pc)) := rfl

theorem windowIn_ok (s : State) (c : Cid) (h : srWD (s.cx c).sr ≠ 4) : windowIn c s =
    .ok ((), s.withSr c (putF (putF (s.cx c).sr 22 3 (srWD (s.cx c).sr + 1)) 20 2 (srCWP (s.cx c).sr + 1))) := by
  have : (srWD (s.cx c).sr != 4) = true := by simp [h]
  simp only [windowIn, Act.bind_apply, Act.get_apply, need_ok s c 12 _ this]
  rfl

theorem windowOut_ok (s : State) (c : Cid) (h : srWD (s.cx c).sr ≠ 0) : windowOut c s =
    .ok ((), s.withSr c (putF (putF (s.cx c).sr 22 3 (srWD (s.cx c).sr - 1)) 20 2 (srCWP (s.cx c).sr + 3))) := by
  have : (srWD (s.cx c).sr != 0) = true := by simp [h]
  simp only [windowOut, Act.bind_apply, Act.get_apply, need_ok s c 12 _ this]
  rfl

/-! ### Address arithmetic -/

theorem aOp_run (s : State) (c : Cid) (rd : RegNo) (f : State → Word) (h : s.poised c = true) :
    runInstr c .plain (aOp c rd f) s = .next ((s.setA c rd (f s)).retire c) :=
  runInstr_keep s _ c _ _ h rfl (by simp)

theorem aCmp_run (s : State) (c : Cid) (f : State → Word × Word) (h : s.poised c = true) :
    runInstr c .plain (aCmp c f) s = .next ((s.withSr c
      (flagsAdd 40 (s.cx c).sr (addBinary 40 (f s).1.toNat (notW 40 (f s).2.toNat) 1))).retire c) := by
  refine runInstr_retire s _ c _ _ h ?_ ?_ ?_
  · rw [aCmp, Act.bind_ok (flagsFree_ok s c (State.poised_pend h)), Act.bind_ok (Act.get_apply s)]
    rfl
  · simp [flagsAdd, State.poised_rp h]
  · simp [flagsAdd, State.poised_ld h]

/-! ### Operations of D registers -/

/-- The state in which a D register, if one is named, holds a result. -/
def State.withD (s : State) (c : Cid) (wr : Option RegNo) (v : Nat) : State :=
  match wr with
  | some rd => s.setD c rd v
  | none => s

@[simp] theorem State.withD_some (s : State) (c : Cid) (rd : RegNo) (v : Nat) : s.withD c (some rd) v = s.setD c rd v := rfl
@[simp] theorem State.withD_none (s : State) (c : Cid) (v : Nat) : s.withD c none v = s := rfl

theorem binOp2_run (s : State) (c : Cid) (wr : Option RegNo) (ra rb : RegNo) (f : Nat → Word → Nat → Nat → Nat × Word)
    (h : s.poised c = true) (hd : s.dOpen c (wr.toList ++ [ra, rb]) = true) :
    let r := f (s.width c) (s.cx c).sr (s.dv c ra) (s.dv c rb)
    srLD r.2 = srLD (s.cx c).sr → srRP r.2 = srRP (s.cx c).sr →
    runInstr c .plain (binOp2 c wr ra rb f) s = .next (((s.withD c wr r.1).withSr c r.2).retire c) := by
  intro r hld hrp
  have hp := State.poised_pend h
  refine runInstr_retire s _ c .plain _ h ?_ ?_ ?_
  · rw [binOp2, Act.bind_ok (regs_ok s c _ hp hd), Act.bind_ok (flagsFree_ok s c hp), Act.bind_ok (Act.get_apply s)]
    cases wr <;> rfl
  · simp [hrp, State.poised_rp h]
  · simp [hld, State.poised_ld h]

theorem binOp1_eq (s : State) (c : Cid) (wr : Option RegNo) (ra : RegNo) (f : Nat → Word → Nat → Nat × Word)
    (h : s.poised c = true) (hd : s.dOpen c (wr.toList ++ [ra]) = true) :
    let r := f (s.width c) (s.cx c).sr (s.dv c ra)
    binOp1 c wr ra f s = finish c ((s.withD c wr r.1).withSr c r.2) := by
  intro r
  have hp := State.poised_pend h
  rw [binOp1, Act.bind_ok (regs_ok s c _ hp hd), Act.bind_ok (flagsFree_ok s c hp), Act.bind_ok (Act.get_apply s)]
  cases wr <;> rfl

theorem binOp1_run (s : State) (c : Cid) (wr : Option RegNo) (ra : RegNo) (f : Nat → Word → Nat → Nat × Word)
    (h : s.poised c = true) (hd : s.dOpen c (wr.toList ++ [ra]) = true) :
    let r := f (s.width c) (s.cx c).sr (s.dv c ra)
    srLD r.2 = srLD (s.cx c).sr → srRP r.2 = srRP (s.cx c).sr →
    runInstr c .plain (binOp1 c wr ra f) s = .next (((s.withD c wr r.1).withSr c r.2).retire c) := by
  intro r hld hrp
  refine runInstr_retire s _ c .plain _ h (binOp1_eq s c wr ra f h hd) ?_ ?_
  · simp [r, hrp, State.poised_rp h]
  · simp [r, hld, State.poised_ld h]

end Sys2Proof.Machine
end

