-- ==== Sys2Proof/Laws/Retire.lean ====
section
/-! SUPPORT. What the completion of an instruction leaves unchanged: counting touches control registers only, completion in
sequence only the context beside them, and a transfer of control also the trace unit's records (R699–R701). -/

namespace Sys2Proof.Machine

/-- A fold of updates that each keep an observation keeps it. -/
theorem foldl_keeps {α β : Type} (f : State → α → State) (g : State → β) (hf : ∀ s a, g (f s a) = g s) :
    ∀ (l : List α) (s : State), g (l.foldl f s) = g s
  | [], _ => rfl
  | a :: l, s => by rw [List.foldl_cons, foldl_keeps f g hf l (f s a), hf]

/-- What does not read control registers does not see an event counted. -/
theorem State.count_keeps {β : Type} (g : State → β) (hg : ∀ (s : State) (a : Nat) (v : Word), g (s.setReg a v) = g s)
    (s : State) (ev : Nat) (c : Option Cid) (n : Nat) : g (s.count ev c n) = g s := by
  unfold State.count
  apply foldl_keeps
  intro s i
  dsimp only
  split
  · split
    · exact (hg _ _ _).trans (hg _ _ _)
    · exact hg _ _ _
  · rfl

@[simp] theorem State.cx_count (s : State) (ev : Nat) (d : Option Cid) (n : Nat) (c : Cid) :
    (s.count ev d n).cx c = s.cx c := s.count_keeps (fun t => t.cx c) (fun _ _ _ => rfl) ev d n
@[simp] theorem State.core_count (s : State) (ev : Nat) (d : Option Cid) (n : Nat) (k : Nat) :
    (s.count ev d n).core_ k = s.core_ k := s.count_keeps (fun t => t.core_ k) (fun _ _ _ => rfl) ev d n
@[simp] theorem State.mem_count (s : State) (ev : Nat) (d : Option Cid) (n : Nat) : (s.count ev d n).mem = s.mem :=
  s.count_keeps (fun t => t.mem) (fun _ _ _ => rfl) ev d n
@[simp] theorem State.byte_count (s : State) (ev : Nat) (d : Option Cid) (n : Nat) (a : Nat) :
    (s.count ev d n).byte a = s.byte a := s.count_keeps (fun t => t.byte a) (fun _ _ _ => rfl) ev d n

/-- What reads neither control registers nor contexts does not see an instruction complete in sequence. -/
theorem State.retire_keeps {β : Type} (g : State → β) (hg : ∀ (s : State) (a : Nat) (v : Word), g (s.setReg a v) = g s)
    (hx : ∀ (s : State) (c : Cid) (x : Ctx), g (s.setCx c x) = g s) (s : State) (c : Cid) : g (s.retire c) = g s := by
  unfold State.retire State.counted
  rw [State.count_keeps g hg]
  unfold State.modCx
  rw [hx, hx]

/-- The context after completion in sequence. -/
@[simp] theorem State.cx_retire (s : State) (c : Cid) :
    (s.retire c).cx c = { (s.cx c).goto (codeNext (s.cx c).pc) false with skip := false } := by
  simp [State.retire, State.counted]

theorem State.cx_retire_ne (s : State) (c d : Cid) (h : c ≠ d) : (s.retire c).cx d = s.cx d := by
  simp [State.retire, State.counted, State.cx_modCx_ne _ _ _ _ h]

@[simp] theorem State.mem_retire (s : State) (c : Cid) : (s.retire c).mem = s.mem :=
  s.retire_keeps (fun t => t.mem) (fun _ _ _ => rfl) (fun _ _ _ => rfl) c
@[simp] theorem State.byte_retire (s : State) (c : Cid) (a : Nat) : (s.retire c).byte a = s.byte a :=
  s.retire_keeps (fun t => t.byte a) (fun _ _ _ => rfl) (fun _ _ _ => rfl) c
@[simp] theorem State.core_retire (s : State) (c : Cid) (k : Nat) : (s.retire c).core_ k = s.core_ k :=
  s.retire_keeps (fun t => t.core_ k) (fun _ _ _ => rfl) (fun _ _ _ => rfl) c

end Sys2Proof.Machine
end

