-- ==== Sys2Proof/Tests/Slice0.lean ====
section
/-! SUPPORT. The model's own tests: words of the spec's encodings, small worked examples, ill-formed commands, and a state
and operands that meet the hypotheses of each statement. -/

namespace Sys2Proof.Tests

-- One test after another: each holds a large state while the kernel evaluates it.
set_option Elab.async false

open Sys2Proof Sys2Proof.Machine

/-- A device in service: booted, every domain powered, the pages that a program uses enabled, context 0 of core 0 running. -/
def base : State :=
  let s0 := { State.reset with boot := .done, coldClear := false }
  let s1 := ((s0.put F.CPR.PD_STATUS.POWERED 0xFFFFF).put F.CPR.CLK_STATUS.REF_OK 0xF).put F.CPR.CLK_STATUS.LOCKED 1
  let s2 := [pgClu 0, pgTLY, pgQMG, pgJRN, pgWGH, pgLIO, pgNET, pgTB, pgPCI, pgIXL, pgDBG].foldl
    (fun (s : State) p => s.put (F.HDR.PG_CTRL.ENABLE p) 1) s1
  s2.setCx 0 { Ctx.init 0 with run := .running, sps := 0x10000, pc := 0x100040 }

/-- A warden context and the host as senders. -/
def ward : Requester := .ctx 0x200 3
def sup : Requester := .ctx 0 1
def user : Requester := .ctx 0 0

/-- The same device with cores 0 and 1 of cluster 0 joined (R111). -/
def joined : State := base.put (F.CLU.CONJ_STATUS.JOINED (pgClu 0) 0) 1

/-- The device with SR.RMD and SR.FRM of context 0 at their reserved value 7. -/
def reservedModes (s : State) : State := s.withSr 0 (putF (putF (s.cx 0).sr 8 3 7) 11 3 7)

/-! ### States that meet the hypotheses of the statements -/

theorem witness_MovesAndAddresses : base.poised 0 = true ∧ base.dOpen 0 [0, 7] = true ∧
    (joined.poised 0 = true ∧ joined.wide 0 = true ∧ joined.dOpen 0 [7] = true) ∧ (6 : Byte).toNat < 7 ∧ (39 : Byte).toNat < 40 := by
  decide +kernel

theorem witness_BranchesAndCalls : base.poised 0 = true ∧ base.dOpen 0 [3] = true ∧ bcdOk (base.digits 0) (base.dv 0 3) = true ∧
    srWD (base.cx 0).sr ≠ 4 ∧
    (let s := (base.setA 0 14 0x10000B).withSr 0 (putF (base.cx 0).sr 22 3 1)
     s.poised 0 = true ∧ codeOk (s.av 0 14) = true ∧ srWD (s.cx 0).sr ≠ 0) := by
  decide +kernel

theorem witness_CompareThenBranch :
    let s := (base.setD 0 1 0x9999999999).setD 0 2 0x0000000001
    s.poised 0 = true ∧ s.dOpen 0 [1, 2] = true ∧ bcdOk (s.digits 0) (s.dv 0 1) = true ∧ bcdOk (s.digits 0) (s.dv 0 2) = true ∧
      bcdOk 5 (0x99999#20).toNat = true := by
  decide +kernel

theorem witness_BinaryAddSubtract : base.poised 0 = true ∧ base.dOpen 0 [0, 3, 7] = true ∧ base.dOpen 0 [3, 7] = true ∧
    base.dOpen 0 [7] = true := by
  decide +kernel

theorem witness_LogicAndBits : base.poised 0 = true ∧ base.dOpen 0 [0, 3, 7] = true ∧ (38 : Byte).toNat + 2 ≤ base.width 0 := by decide +kernel

theorem witness_ShiftsAndRotates : base.poised 0 = true ∧ base.dOpen 0 [0, 3, 7] = true ∧ (39 : Byte).toNat < base.width 0 ∧
    (joined.poised 0 = true ∧ (79 : Byte).toNat < joined.width 0) := by
  decide +kernel

theorem witness_DecimalAddSubtract :
    let s := (base.setD 0 1 0x9999999999).setD 0 2 0x0000000001
    s.poised 0 = true ∧ s.dOpen 0 [3, 1, 2] = true ∧ srDVT (s.cx 0).sr = false ∧ bcdOk (s.digits 0) (s.dv 0 1) = true ∧
    bcdOk (s.digits 0) (s.dv 0 2) = true ∧ bcdOk 5 (0x99999 : BitVec 20).toNat = true := by
  decide +kernel

theorem witness_DecimalShiftsAndConversions :
    let s := base.setD 0 1 0x9999999999
    s.poised 0 = true ∧ s.dOpen 0 [3, 1] = true ∧ srDVT (s.cx 0).sr = false ∧ bcdOk (s.digits 0) (s.dv 0 1) = true ∧
    (10 : Byte).toNat ≤ s.digits 0 ∧ srRMD (s.cx 0).sr < 7 ∧
    (let u := reservedModes s
     u.poised 0 = true ∧ srRMD (u.cx 0).sr = 7 ∧ bcdOk (u.digits 0) (u.dv 0 1) = true) := by
  decide +kernel

theorem witness_BinaryProducts : base.poised 0 = true ∧ base.dOpen 0 [6, 7, 1, 2] = true ∧ (79 : Byte).toNat < 2 * base.width 0 := by
  decide +kernel

theorem witness_DecimalProducts :
    let s := (base.setD 0 1 0x9999999999).setD 0 2 0x0000000001
    let u := s.settled 0
    s.poised 0 = true ∧ s.dOpen 0 [3, 1, 2] = true ∧ srDVT (s.cx 0).sr = false ∧ bcdOk (s.digits 0) (s.dv 0 1) = true ∧
    bcdOk (s.digits 0) (s.dv 0 2) = true ∧ bcdOk (2 * s.digits 0) ((u.cx 0).ph.toNat * 2 ^ s.width 0 + (u.cx 0).pl.toNat) = true ∧
    bcdOk (s.digits 0) (u.cx 0).ph.toNat = true ∧ bcdOk (s.digits 0) (u.cx 0).pl.toNat = true ∧ (20 : Byte).toNat ≤ 2 * s.digits 0 ∧ srRMD (s.cx 0).sr < 7 ∧
    (reservedModes s).poised 0 = true ∧ srRMD ((reservedModes s).cx 0).sr = 7 := by
  decide +kernel

theorem witness_Accumulators :
    let s := (base.setD 0 1 0x9999999999).setD 0 2 0x0000000001
    s.poised 0 = true ∧ s.dOpen 0 [3, 1, 2] = true ∧ srDVT (s.cx 0).sr = false ∧ bcdOk (s.digits 0) (s.dv 0 1) = true ∧
    bcdOk (s.digits 0) (s.dv 0 2) = true ∧ bcdOk (s.xDigits 0) (s.xv 0 3) = true ∧ (22 : Byte).toNat ≤ s.xDigits 0 ∧ (2 : Byte).toNat ≤ 2 ∧
    srRMD (s.cx 0).sr < 7 ∧ (reservedModes s).poised 0 = true ∧ srRMD ((reservedModes s).cx 0).sr = 7 := by
  decide +kernel

theorem witness_Binary32 : base.poised 0 = true ∧ base.dOpen 0 [0, 3, 7] = true ∧ (5 : RegNo).val < 6 ∧ srFRM (base.cx 0).sr < 5 ∧
    (reservedModes base).poised 0 = true ∧ 5 ≤ srFRM ((reservedModes base).cx 0).sr := by decide +kernel

theorem witness_Decimal64 : base.poised 0 = true ∧ base.pairNamed 0 0 = true ∧ base.pairNamed 0 6 = true ∧
    bcdOk (base.digits 0) (base.dv 0 6) = true ∧ srFRM (base.cx 0).sr < 5 ∧ (reservedModes base).poised 0 = true ∧
    5 ≤ srFRM ((reservedModes base).cx 0).sr ∧
    (let s := joined.setD 0 3 (toBcd 20 (10 ^ 17))
     s.poised 0 = true ∧ bcdOk (s.digits 0) (s.dv 0 3) = true ∧ (decVal (s.digits 0) (s.dv 0 3)).natAbs = 10 ^ 15 * 10 ^ 2) := by
  decide +kernel

/-- Packed fields, zoned fields and a string in memory, A0 to A5 pointing at them. -/
def fields : State :=
  let s := base.setBytes 0x2000 [0x12#8, 0x3C#8, 0#8, 0x45#8, 0x6D#8, 0#8, 0x31#8, 0x32#8, 0x33#8]
  (((s.setA 0 0 0x2000).setA 0 1 0x2003).setA 0 2 0x2006).setA 0 3 0x2040

theorem witness_Loads : fields.poised 0 = true ∧ fields.plainAt 0 (fields.effAddr 0 0 (.disp 0)).1 1 false = some 0x2000 ∧
    fields.plainAt 0 (fields.effAddr 0 0 (.disp 62)).1 2 false = some 0x203E ∧
    fields.plainAt 0 (fields.effAddr 0 0 (.post 4)).1 5 false = some 0x2000 ∧
    fields.plainAt 0 (fields.effAddr 0 0 (.pre 8)).1 8 false = some 0x2008 ∧ fields.dOpen 0 [7] = true ∧ fields.pairNamed 0 6 = true := by
  decide +kernel

theorem witness_Stores : fields.poised 0 = true ∧ fields.plainAt 0 (fields.effAddr 0 0 (.disp 59)).1 5 true = some 0x203B ∧
    fields.plainAt 0 (fields.effAddr 0 0 (.disp 0)).1 8 true = some 0x2000 ∧ fields.dOpen 0 [7] = true ∧ fields.pairNamed 0 6 = true := by
  decide +kernel

theorem witness_PackedFields : fields.poised 0 = true ∧ fields.dOpen 0 [3] = true ∧ srDVT (fields.cx 0).sr = false ∧
    fields.plainAt 0 (fields.av 0 0) 2 false = some 0x2000 ∧ packedVal (fields.bytes 0x2000 2) = some 123 ∧
    bcdOk (fields.digits 0) (fields.dv 0 3) = true ∧ fields.plainAt 0 (fields.av 0 3) 16 true = some 0x2040 := by
  decide +kernel

theorem witness_Atomics : fields.poised 0 = true ∧
    fields.plainAt 0 (fields.av 0 0 + (0 : BitVec 22).signExtend 40) (fields.width 0 / 8) true = some 0x2000 ∧
    fields.wpHits 0 (fields.av 0 0 + (0 : BitVec 22).signExtend 40) (fields.width 0 / 8) false = [] ∧ fields.dOpen 0 [6, 7] = true := by
  decide +kernel

theorem witness_StoreBufferDrains :
    let e : SbEntry := { cid := 0, pl := 1, addr := 0x2000, data := [1, 2, 3], dev := false }
    let s := base.pushStore e
    s.coreLive 0 = true ∧ (s.core_ 0).sb = [e] ∧ s.regionOf 0 0x2000 = .dram ∧ e.addr % 64 + e.data.length ≤ 64 ∧
      s.keyed e.addr = true ∧ (s.core_ (coreIdx e.cid)).keys = [] := by
  decide +kernel

theorem witness_StringsBegin :
    let s := (((fields.setD 0 0 3).setD 0 1 2).setD 0 2 2).setD 0 3 (4 + 2 * 2 ^ 16)
    s.poised 0 = true ∧ s.dv 0 0 % 2 ^ 40 ≤ 2 ^ 24 ∧ s.dOpen 0 [0, 1, 2] = true ∧ s.noDevice 0 [(0x2000, 3), (0x2003, 3)] = true ∧
    s.noDevice 0 [(0x2000, 3), (0x2003, 3), (0x2006, 256)] = true ∧ s.plainAt 0 (s.av 0 0) 2 false = some 0x2000 ∧
    (packedVal (s.bytes 0x2000 2)).isSome = true ∧ bitsOf (s.dv 0 3) 0 13 = 4 ∧ bitsOf (s.dv 0 3) 16 5 = 2 ∧
    s.plainAt 0 (s.av 0 1) 2 false = some 0x2003 ∧ (packedVal (s.bytes 0x2003 2)).isSome = true ∧
    s.plainAt 0 (s.av 0 3) 3 true = some 0x2040 ∧ overlaps 0x2040 3 0x2000 2 = false ∧ overlaps 0x2040 3 0x2003 2 = false := by
  decide +kernel

/-- A string instruction under way: 70 bytes from A1 to A0 or against them, A1's set of 32 bytes, D0 and D1 the lengths. -/
def inString (owner : Byte) (r4 r5 : RegNo) : State :=
  (((fields.setA 0 1 0x2080).setD 0 0 70).setD 0 1 80).modCx 0 (fun x => { x with strOp := some {
    owner := owner, r1 := 0, r2 := 1, r3 := 0, r4 := r4, r5 := r5, r6 := 0, live := owner.setWidth 40, begun := false } })

theorem witness_StringUnits : [0x80#8, 0x81, 0x82, 0x84].all (fun o =>
    let s := inString o 1 2
    s.canRun 0 && !s.haltDue 0 && s.dv 0 0 == 70 && s.dv 0 1 == 80 && s.plainAt 0 (s.av 0 1) 64 false == some 0x2080 && s.plainAt 0 (s.av 0 0) 64 true == some 0x2000 &&
    s.plainAt 0 (s.av 0 0) 64 false == some 0x2000 && s.plainAt 0 (s.av 0 1) 32 false == some 0x2080) = true ∧
    (let s := inString 0x80 1 2
     srRP (s.cx 0).sr = false ∧ srLD (s.cx 0).sr = 0 ∧ srCT (s.cx 0).sr = false) := by
  decide +kernel

theorem witness_StorageDecimal :
    let s := (fields.setD 0 0 2).setD 0 1 2
    s.poised 0 = true ∧ srDVT (s.cx 0).sr = false ∧ s.dOpen 0 [0, 1] = true ∧ s.noDevice 0 [(0x2000, 2), (0x2003, 2)] = true ∧
    overlaps 0x2000 2 0x2003 2 = false ∧ s.plainAt 0 (s.av 0 1) 2 false = some 0x2003 ∧ packedVal (s.bytes 0x2003 2) = some (-456) ∧
    s.plainAt 0 (s.av 0 0) 2 true = some 0x2000 ∧ s.plainAt 0 (s.av 0 0) 2 false = some 0x2000 ∧ packedVal (s.bytes 0x2000 2) = some 123 := by
  decide +kernel

theorem witness_FieldConversions :
    let s := (fields.setD 0 0 (2 + 3 * 2 ^ 8)).setD 0 1 2
    let u := s.setD 0 0 (31 + 7 * 2 ^ 8)
    s.poised 0 = true ∧ srDVT (s.cx 0).sr = false ∧ s.dOpen 0 [0, 1] = true ∧ s.noDevice 0 [(0x2006, 3), (0x2003, 2)] = true ∧
    s.plainAt 0 (s.av 0 2) 3 false = some 0x2006 ∧ s.plainAt 0 (s.av 0 1) 2 true = some 0x2003 ∧ zonedVal 0 (s.bytes 0x2006 3) = some 123 ∧
    s.noDevice 0 [(0x2003, 2), (0x2006, 3)] = true ∧ s.plainAt 0 (s.av 0 1) 2 false = some 0x2003 ∧ packedVal (s.bytes 0x2003 2) = some (-456) ∧
    s.plainAt 0 (s.av 0 2) 3 true = some 0x2006 ∧ s.noDevice 0 [(0x2003, 2)] = true ∧
    u.poised 0 = true ∧ sint 8 (bitsOf (u.dv 0 0) 0 8) = 31 ∧ bitsOf (u.dv 0 0) 8 4 = 7 ∧ srRMD (u.cx 0).sr < 7 := by
  decide +kernel

theorem witness_LoopsAndRepeat :
    let s := ((base.setBytes 0x100040 ((List.range 12).flatMap (fun _ => leBytes 5 0x1F00000000))).setD 0 1 3).modCx 0 (fun x =>
      { x with le := x.le.set 0 x.pc, ls := x.ls.set 0 0x100040, lc := x.lc.set 0 2, rc := 2 })
    let u := base.modCx 0 (fun x => { x with rc := 1 })
    s.poised 0 = true ∧ s.dOpen 0 [1] = true ∧ ((slotWord 0 (codeNext (s.cx 0).pc) s).map repForbids).getD false = false ∧
    (s.cx 0).le[0] = (s.cx 0).pc ∧ codeOk (s.cx 0).ls[0] = true ∧ 1 < (s.cx 0).lc[0].toNat ∧ 1 < (s.cx 0).rc.toNat ∧
    u.poised 0 = true ∧ (u.cx 0).rc = 1 ∧ (∀ i : Fin 4, (u.cx 0).le[i] ≠ (u.cx 0).pc) := by
  decide +kernel

theorem witness_SpecialRegisters :
    let u := base.withSr 0 (putF (base.cx 0).sr 17 2 0)
    base.poised 0 = true ∧ base.dOpen 0 [7] = true ∧ (srPL (base.cx 0).sr == 0#2) = false ∧ srRMD (BitVec.ofNat 40 (base.dv 0 7)) ≠ 7 ∧
    srFRM (BitVec.ofNat 40 (base.dv 0 7)) < 5 ∧ (srPL (BitVec.ofNat 40 (base.dv 0 7))).toNat < 2 ∧
    u.poised 0 = true ∧ (srPL (u.cx 0).sr == 0#2) = true ∧
    (∀ i : Fin 15, bitsOf (u.dv 0 7) (2 * i.val + 2) 2 ≤ bitsOf (u.cx 0).krr.toNat (2 * i.val + 2) 2) := by
  decide +kernel

theorem witness_ExceptionEntry :
    let s := { base.withSr 0 (setBit (base.cx 0).sr 30 true) with
      irt := [(512, { target := 0, level := 15, urgent := true, enable := true })], swi := [(512, true)] }
    (s.cx 0).late = none ∧ (s.stopStr 0).framePa 0 = some (0x10000 - frameSize false) ∧ s.canRun 0 = true ∧
    [0, 16, 48].all (fun v => takenVector v == (v != 0)) = true ∧
    (s.stopStr 0).entryClear 0 16 = true ∧ s.pendingInt 0 = some 512 ∧ (s.stopStr 0).entryClear 0 48 = true ∧ s.poised 0 = true ∧
    s.entryClear 0 18 = true := by
  decide +kernel

theorem witness_PrivilegedInUserMode :
    let s := base.withSr 0 (putF (base.cx 0).sr 17 2 0)
    s.poised 0 = true ∧ s.dOpen 0 [3, 7] = true ∧ srPL (s.cx 0).sr = 0#2 ∧ s.framePa 0 = some (0x10000 - frameSize false) ∧
    s.entryClear 0 3 = true := by
  decide +kernel

theorem witness_ReturnFromException :
    let fr : List Nat := [0x10004B, 0x420100, 77, 0x12345678, 99, 0x7000, 0x123, 18 + 256 + 512 + 2 ^ 24 * 0x7E10]
    let s := base.setBytes 0x10000 (fr.flatMap (leBytes 5))
    let fw (i : Nat) : Nat := leVal (s.bytes (0x10000 + 5 * i) 5)
    let sr := BitVec.ofNat 40 (fw 1)
    s.poised 0 = true ∧ srPL (s.cx 0).sr ≠ 0#2 ∧ (s.cx 0).sps.toNat % 8 = 0 ∧
    s.plainSpan 0 (s.cx 0).sps (frameSize false) false = some 0x10000 ∧ bitsOf (fw 7) 24 16 = 0x7E10 ∧ bitsOf (fw 7) 12 12 = 0 ∧
    bitsOf (fw 7) 6 2 = b2n (s.wide 0) ∧ (srPL sr).toNat < 2 ∧ srWD sr ≤ 4 ∧ srLD sr ≤ 4 ∧ sr &&& 0xC0060040C0#40 = 0 ∧
    codeOk (BitVec.ofNat 40 (fw 0)) = true := by
  decide +kernel

theorem witness_ContextAreas :
    let s := ((base.setA 0 3 0x2000).setBytes 0x2000 (leBytes 5 0x3000)).setBytes (0x2005 + 80) (leBytes 5 0x420100 ++ leBytes 5 0x10004B)
    let u := base.modCx 1 (fun x => { x with run := .ready })
    let sr := BitVec.ofNat 40 (leVal (s.bytes (0x2005 + 40 + 8 * (s.width 0 / 8)) 5))
    s.poised 0 = true ∧ srPL (s.cx 0).sr ≠ 0#2 ∧ srFB (s.cx 0).sr = false ∧ (s.av 0 3).toNat % 8 = 0 ∧
    s.plainSpan 0 (s.av 0 3 + 5) (50 + 8 * (s.width 0 / 8)) true = some 0x2005 ∧
    s.plainSpan 0 (s.av 0 3 + 5) (50 + 8 * (s.width 0 / 8)) false = some 0x2005 ∧ (srPL sr).toNat < 2 ∧ srFB sr = false ∧ srWD sr ≤ 4 ∧
    srLD sr ≤ 4 ∧ sr &&& 0xC0060040C0#40 = 0 ∧ codeOk (BitVec.ofNat 40 (leVal (s.bytes (0x2005 + 45 + 8 * (s.width 0 / 8)) 5))) = true ∧
    s.plainSpan 0 (s.av 0 3) 5 false = some 0x2000 ∧ leVal (s.bytes 0x2000 5) = 0x3000 ∧ s.plainSpan 0 0x3000 370 true = some 0x3000 ∧
    s.plainSpan 0 0x3000 370 false = some 0x3000 ∧ leVal (s.bytes 0x3000 5) = b2n (s.wide 0) ∧ s.samePrio 0 = none ∧
    u.poised 0 = true ∧ u.samePrio 0 = some 1 := by
  decide +kernel

theorem witness_TranslationAndKeys :
    let s := base.setD 0 1 63
    let u := base.setD 0 1 0x12340000
    s.poised 0 = true ∧ srPL (s.cx 0).sr ≠ 0#2 ∧ s.dOpen 0 [7, 1] = true ∧ s.dv 0 1 % 2 ^ 40 < 64 ∧ s.regionOf 0 (s.av 0 3).toNat = .dram ∧
    u.poised 0 = true ∧ BitVec.ofNat 40 (u.dv 0 1) &&& 0xFFFF = 0 ∧ BitVec.ofNat 40 (s.dv 0 1) &&& 0xFFFFFFFF80 = 0 ∧
    getF (BitVec.ofNat 40 (base.dv 0 1)) 2 2 ≠ 3 ∧ base.poised 0 = true := by
  decide +kernel

theorem witness_InvalidationAndOrder :
    let e : SbEntry := { cid := 0, pl := 1, addr := 0x2000, data := [1, 2, 3], dev := false }
    let s := { base.setCore 0 { base.core_ 0 with sb := [e, e] } with inval := [(0, .tlbVa 5 9)] }
    s.poised 0 = true ∧ s.dOpen 0 [7] = true ∧ srPL (s.cx 0).sr ≠ 0#2 ∧ s.inval.head? = some (0, .tlbVa 5 9) ∧
    (∀ e ∈ (s.core_ (coreIdx 0)).sb, e.cid = 0 ∧ s.regionOf 0 e.addr = .dram ∧ e.data.length ≤ 4096 ∧ e.addr + e.data.length ≤ s.dramEnd) ∧
    (∀ k : Fin 68, ∀ e ∈ (s.core_ k).sb, s.regionOf e.cid e.addr = .dram) ∧ s.remoteStores = false ∧ s.postsWaiting 0 = false ∧
    ({ s with tports := s.tports.set (tallyPort 0) [TOp.of .post 0 5 false] }).postsWaiting 0 = true ∧
    ({ s with ixHold := [{ type := 0x72, src := 0, dst := 3, vc := 1, seq := 0, hops := 7, bcast := false, tag := 1, args := [], payload := [] }]
       } : State).remoteStores = true := by
  decide +kernel

theorem witness_PipelineEvents :
    let s := base.modCx 0 (fun x => { x with prods := [(1, 2)], run := .waiting, wait := some .line })
    let t := s.modCx 1 (fun x => { x with run := .ready })
    let u := (base.modCx 1 (fun x => { x with run := .ready })).put (F.CORE.CTX_CFG.PRIO (base.corePage 1) 1) 5
    let v := base.setBytes 0x100040 (leBytes 5 0x1F00000000)
    let w := base.setBytes (0x100040 + 60) [0#8, 8#8, 0#8, 0#8]
    let z := base.setBytes 0x100040 (leBytes 5 0xFFFFFFFFFF)
    (s.cx 0).prods.head? = some (1, 2) ∧ t.coreLive 0 = true ∧ t.running 0 = none ∧ t.choice 0 = some 1 ∧
    (u.coreLive 0 = true ∧ u.choice 0 = some 1 ∧ u.running 0 = some 0 ∧ u.prio 0 < u.prio 1 ∧ u.pendingInt 0 = none ∧ u.pendingInt 1 = none ∧
      srFB (u.cx 0).sr = false ∧ (u.cx 0).atEngine = false ∧ u.haltDue 0 = false) ∧
    ((s.cx 0).run = .waiting ∧ (s.cx 0).wait = some .line) ∧
    (v.canIssue 0 = true ∧ (v.cx 0).onVector = false ∧ v.fetchPa 0 = some 0x100040 ∧ (v.cx 0).pc.toNat % 64 < 12 ∧
      leVal (v.bytes (0x100040 + 60) 4) < 2048 ∧ (decodeWord 0 (BitVec.ofNat 40 (leVal (v.bytes 0x100040 5)))).isSome = true) ∧
    (w.fetchPa 0 = some 0x100040 ∧ w.framePa 0 = some (0x10000 - frameSize false) ∧ leVal (w.bytes (0x100040 + 60) 4) = 2048 ∧
      w.entryClear 0 4 = true ∧ w.canIssue 0 = true) ∧
    (z.fetchPa 0 = some 0x100040 ∧ z.framePa 0 = some (0x10000 - frameSize false) ∧ z.canIssue 0 = true ∧
      (decodeWord 0 (BitVec.ofNat 40 (leVal (z.bytes 0x100040 5)))).isNone = true ∧ z.entryClear 0 1 = true) := by
  decide +kernel

/-- The tally engine in service: its SELF.ID 0, SEEDED, every account key 0. -/
def tally : State := base.put F.TLY.SEEDED 1

theorem witness_TallyPostings : tally.poised 0 = true ∧ tally.dOpen 0 [6, 7, 1, 2, 3] = true ∧ tally.enabled pgTLY = true ∧
    (tally.tports[tallyPort 0]).length < 64 ∧ tally.dv 0 7 % 2 ^ 40 / 2 ^ 18 = tally.selfId ∧
    2 ≤ keyRight (tally.cx 0).krr (srPL (tally.cx 0).sr) (tally.acctKey (tally.dv 0 7 % 2 ^ 18)) ∧ bcdOk 10 (tally.dv 0 1) = true ∧
    tally.ticketFree 0 = true ∧ bcdOk 22 (tally.xv 0 3 % 2 ^ 88) = true ∧ srPL (tally.cx 0).sr ≠ 0#2 := by
  decide +kernel

theorem witness_TallyReadsAndTickets :
    let k : Ticket := { tally.ticket 3 with held := true, done := true, flushed := false, cid := 0, gen := 5 }
    let s := { (tally.put F.TLY.CUT_STATUS.HELD 1).setD 0 7 (3 + 2 ^ 15 + 2 ^ 16 * 5) with tickets := [(3, k)] }
    tally.poised 0 = true ∧ tally.dOpen 0 [6, 7, 7] = true ∧ tally.enabled pgTLY = true ∧ tally.dv 0 7 % 2 ^ 40 / 2 ^ 18 = tally.selfId ∧
    1 ≤ keyRight (tally.cx 0).krr (srPL (tally.cx 0).sr) (tally.acctKey (tally.dv 0 7 % 2 ^ 18)) ∧ (tally.tports[tallyPort 0]).length < 64 ∧
    srFB (tally.cx 0).sr = false ∧
    (s.poised 0 = true ∧ s.flag F.TLY.CUT_STATUS.HELD = true ∧ s.dv 0 7 / 2 ^ 15 % 2 = 1 ∧
      s.dv 0 7 / 2 ^ 16 % 256 = (s.ticket 3).gen.toNat ∧ s.dv 0 7 / 2 ^ 24 = 0 ∧ (s.ticket 3).held = true ∧ (s.ticket 3).flushed = false ∧
      (s.ticket 3).cid = 0 ∧ s.wide 0 = false ∧ k.status < 16 ∧ k.device < 8 ∧ k.op < 8 ∧ srFB (s.cx 0).sr = false ∧
      ({ s with tickets := [(3, { k with done := false })] }).poised 0 = true) := by
  decide +kernel

/-- An operation of the engine. -/
def topOf (k : TKind) : TOp := TOp.of k 0 5 false

theorem witness_TallyEngine :
    let o := topOf .post
    let bk := bankOf (acctOf o.acct)
    let s := { tally with tports := tally.tports.set 2 [o] }
    let b (k : TKind) : State := { tally with banks := tally.banks.set bk [topOf k] }
    let c := { tally.put F.TLY.CUT_STATUS.HELD 1 with cutOp := some (topOf .pcut), prelOp := some (topOf .prel) }
    let r := (((tally.put F.TLY.REPLAY_STATUS.STATE 1).put F.TLY.REPLAY_ADDR.ADDR 0x2000).put F.TLY.REPLAY_LEN.LEN 16).setBytes 0x2000 [2#8]
    (s.tallyRuns = true ∧ s.flag F.TLY.SEEDED = true ∧ (∀ q : Fin 11, s.tports[q] = if q = 2 then [o] else []) ∧ devOf o.acct = s.selfId ∧
      (s.banks[bk]).length < 64 ∧ s.cutAt = none ∧ s.ixIn = []) ∧
    ((b .post).banksRun = true ∧ (b .post).flag F.TLY.ECC_INJECT.GO = false ∧ (b .pset).banks[bk] = [topOf .pset] ∧
      (b .pread).banks[bk] = [topOf .pread] ∧ ((b .post).account (acctOf o.acct)).bad = false ∧ o.ticket = none ∧ o.origin = none ∧
      o.b = (b .post).fmt (acctOf o.acct)) ∧
    (c.banksRun = true ∧ c.cutOp = some (topOf .pcut) ∧ (∀ q : Fin 8, ∀ u ∈ c.banks[q], u.kind ≠ .pcut) ∧ c.flag F.TLY.CUT_STATUS.HELD = true ∧
      (topOf .pcut).ticket = none ∧ (topOf .pcut).origin = none) ∧
    (let e := { c with cutOp := none }
     e.prelOp = some (topOf .prel) ∧ e.cutOp = none ∧ (∀ q : Fin 8, ∀ u ∈ e.banks[q], u.kind ≠ .preadc) ∧ e.banksRun = true ∧
      e.flag F.TLY.ECC_INJECT.GO = false ∧ (topOf .prel).ticket = none ∧ (topOf .prel).origin = none) ∧
    (tally.put F.TLY.STAMPING 1).flag F.TLY.STAMPING = true ∧ (tally.put F.TLY.STAMPING 1).banksRun = true ∧ State.reset.coldClear = true ∧
    (r.powered 11 = true ∧ r.frozen none = false ∧ r.replayEntries = [] ∧ r.flag F.TLY.REPLAY_CTRL.FINISH = false ∧ r.byte 0x2000 ≠ 1#8 ∧
      16 + leVal (r.bytes 0x2002 2) ≤ r.get F.TLY.REPLAY_LEN.LEN ∧ r.get F.TLY.REPLAY_STATUS.STATE = 1) ∧
    (let w := base.modCx 0 (fun x => { x with run := .waiting, wait := some .freeTicket })
     (w.cx 0).run = .waiting ∧ (w.cx 0).wait = some .freeTicket ∧ w.ticketFree 0 = true) ∧
    (let w := { base with remoteOps := [{ topOf .pread with tag := 7 }] }
     w.remoteOps.head? = some { topOf .pread with tag := 7 }) := by
  decide +kernel

/-- Warden context 0 of warden core 0 as the requester of a write: it runs, and the pages' domains are on. -/
def served : State :=
  let s := ((base.put (F.HDR.PG_CTRL.ENABLE pgWRD) 1).put (F.HDR.PG_CTRL.ENABLE pgSEC) 1).put F.PCI.PSTATUS.LINK 1
  s.modCx 0x200 (fun x => { x with run := .running })

theorem witness_TallyControl :
    let s := served.put (F.HDR.PG_CTRL.ENABLE pgTLY) 0
    s.headWritable ward pgTLY 0x10 = true ∧ s.enabled pgTLY = false ∧ s.flag (F.HDR.PG_CTRL.BLOCK_RESET pgTLY) = false ∧
    served.writable ward R.TLY.PSN_NEXT = true ∧ served.writable ward R.TLY.REPLAY_CTRL = true ∧
    served.flag F.TLY.REPLAY_CTRL.FINISH = false ∧ served.flag F.TLY.REPLAY_CTRL.START = false ∧ served.flag F.TLY.REPLAY_OPEN = true ∧
    served.get F.TLY.REPLAY_STATUS.STATE ≠ 1 ∧ served.writable ward R.TLY.TKT_FLUSH = true ∧ (served.tickets.map (·.1)).Nodup ∧
    (served.put (F.HDR.PG_CTRL.EXPERT pgTLY) 1).writable ward R.TLY.ECC_INJECT = true := by
  decide +kernel

/-- Queue 3: 16 slots at 0x4000, valid, bound to context 0, waking it, `k` elements of epoch 0 in it. -/
def queued (k : BitVec 17) : State :=
  let q : Queue := { Queue.init with base := 0x4000, depth := 4, valid := true, wake := true, cid := 0, bound := true, tail := k }
  let s := ((base.setQueue 3 q).setD 0 7 3).setA 0 3 0x2000
  (List.range 4).foldl (fun (s : State) i => s.setBytes (0x4000 + 64 * i) [3, 0, 0, 0]) s

theorem witness_QueueInstructions :
    let s := queued 1
    let u := (s.modCx 0 (fun x => { x with run := .waiting, wait := some (.queues 6) }))
    s.poised 0 = true ∧ s.dOpen 0 [6, 7] = true ∧ s.dv 0 7 % 2 ^ 40 = 3 ∧ 2 ≤ keyRight (s.cx 0).krr (srPL (s.cx 0).sr) (s.queue 3).key ∧
    (s.queue 3).pmode = false ∧ (s.av 0 3).toNat % 64 = 0 ∧ s.plainAt 0 (s.av 0 3) 64 false = some 0x2000 ∧
    s.plainAt 0 (s.av 0 3) 64 true = some 0x2000 ∧ (s.queue 3).ckind = 0 ∧ (s.queue 3).bound = true ∧ (s.queue 3).cid = 0 ∧
    srFB (s.cx 0).sr = false ∧ s.handsOver 0 = false ∧ s.queues.any (fun p => p.2.mine 0 && p.2.wake) = true ∧
    (u.cx 0).run = .waiting ∧ (u.cx 0).wait = some (.queues 6) ∧ u.queueRuns = true ∧ srRP (u.cx 0).sr = false ∧ srLD (u.cx 0).sr = 0 ∧
    (u.select 0).1.isSome = true ∧
    (u.cx 0).moving = false ∧ s.qtags.length < 2048 ∧ s.restarting pgQMG = false ∧ (s.select 0).1.isSome = true ∧
    ((queued 0).select 0).1.isSome = false ∧ ({ s with qtags := List.replicate 2048 true }).poised 0 = true ∧
    (s.put (F.HDR.PG_CTRL.BLOCK_RESET pgQMG) 1).restarting pgQMG = true ∧ (s.put (F.HDR.PG_CTRL.BLOCK_RESET pgQMG) 1).poised 0 = true := by
  decide +kernel

theorem witness_QueueControl : [0, 0x08, 0x10, 0x30].all (fun o => served.winWritable ward (qwBase + 64 * (3 : BitVec 13).toNat + o) &&
    served.winWritable sup (qwBase + 64 * (8191 : BitVec 13).toNat + o)) = true ∧ reqWarden ward = true ∧ reqWarden sup = false := by decide +kernel

theorem witness_QueueEngine :
    let e : QOp := { queue := 3, take := false, warden := false, src := 0, origin := .ctx 0 (.own 5), type := 0x40, len := 56
                     payload := List.replicate 56 7#8, dest := 0x2000 }
    let put (s : State) (o : QOp) : State := { s with qports := s.qports.set 4 [o] }
    let s := put (queued 16) e
    let d := put (queued 1) { e with take := true }
    let z := put (queued 0) { e with take := true }
    let n := (({ queued 15 with orphans := [List.replicate 14 9#8] }).put F.QMG.ORPHAN_QUEUE.QUEUE 3).put F.QMG.ORPHAN_QUEUE.VALID 1
    let a := ((queued 1).put (F.HDR.PG_CTRL.ENABLE pgGFLO) 1).put (F.GALL.GCTRL.MODE pgGFLO) 1
    (s.queueRuns = true ∧ s.qtags.length < 2048 ∧ (∀ j : Fin 15, s.qports[j] = if j = 4 then [e] else []) ∧ s.inDram 0x4000 64 = true) ∧
    (d.queueRuns = true ∧ (d.queue 3).valid = true ∧ (d.queue 3).bound = true ∧ (d.queue 3).cid = 0 ∧ (d.queue 3).ckind = 0 ∧
      (d.queue 3).orphan = false ∧ d.headBad 3 = false ∧ d.regionOf 0 0x2000 = .dram ∧ d.enabled pgQMG = true ∧
      leVal (((d.bytes 0x4000 64).drop 2).take 2) = (d.queue 3).epoch.toNat ∧ (d.queue 3).epoch = (d.cx 0).role) ∧
    (z.queueRuns = true ∧ (z.queue 3).head = (z.queue 3).tail ∧ z.headBad 3 = false) ∧
    (n.orphans.head? = some (List.replicate 14 9#8) ∧ n.flag F.QMG.ORPHAN_QUEUE.VALID = true ∧ n.get F.QMG.ORPHAN_QUEUE.QUEUE = 3 ∧
      n.live pgQMG = true ∧ n.tagFree true = true ∧ n.inDram (0x4000 + 64 * 15) 64 = true ∧ (n.queue 3).valid = true ∧ n.enabled pgQMG = true ∧
      (n.queue 3).pmode = false ∧ ((n.queue 3).tail - (n.queue 3).head).toNat < 2 ^ (n.queue 3).depth) ∧
    (a.live pgQMG = true ∧ a.enabled pgGFLO = true ∧ a.flowMode = 1 ∧ (a.queues.map (·.1)).Nodup) := by
  decide +kernel

theorem witness_ControlPages :
    let a := R.GPWR.HYST
    let h := R.GPWR.HYST
    let u := (served.put (F.HDR.PG_CTRL.ENABLE pgGPWR) 1).put (F.HDR.PG_CTRL.BLOCK_RESET 0xFFF00A0000) 1
    a % 8 = 0 ∧ pageOf a = some .gpwr ∧ (rowOf .gpwr (a % 4096)).isSome = true ∧ served.writable ward a = true ∧
    (served.blockWrite drainCore ward .gpwr a 600).isNone = true ∧ pageOf 0xFFF00F9000 = none ∧ inWindow 0xFFF00F9000 = false ∧
    inControl 0xFFF00F9000 = true ∧ served.canReach ward = true ∧ served.inOrder ward = served ∧
    served.writable .host h = true ∧ (served.blockWrite drainCore .host .gpwr h 600).isNone = true ∧
    served.readEffect .host .gpwr h = (served.reg h, served) ∧
    served.headWritable ward pgTLY 0x20 = true ∧ served.headWritable sup pgTLY 0x10 = true ∧ served.headWritable ward pgTLY 0x38 = true ∧
    served.flag (F.HDR.PG_CTRL.BLOCK_RESET pgTLY) = false ∧ served.enabled pgTLY = true ∧ restartPresent .tly = true ∧
    served.writable ward R.SYS.EXPERT_GRANT = true ∧ served.live pgWRD = true ∧
    (served.put F.WRD.GRANT_EXPIRE.LEFT 1).get F.WRD.GRANT_EXPIRE.LEFT ≠ 0 ∧
    (tabGet false served.lockSet pgTLY = false ∧ ({ served with lockSet := [(pgTLY, true)] }).headWritable ward pgTLY 0x38 = true) ∧
    (rowOf .gpwr (h % 4096)).any (fun row => row.touches 0xFFFFFFFF#40) = true ∧
    u.flag (F.HDR.PG_CTRL.BLOCK_RESET (0xFFF0000000 + 0x10000 * (10 : Fin 25).val)) = true ∧ u.restartMayEnd 10 = true := by
  decide +kernel

theorem witness_ContextControl :
    let s := served.setReg (R.CORE.CTX_PC (served.corePage 5) 5) 0x10004B
    let h := (served.put ⟨R.CORE.CTX_CTRL (served.corePage 0), 8, 1⟩ 1)
    let w := served.modCx 5 (fun x => { x with run := .waiting })
    let m := ((({ queued 15 with free := 0 }).put F.SYS.HALT_QUEUE.QUEUE 3).put F.SYS.HALT_QUEUE.VALID 1).modCx 5 (fun x =>
      { x with heldMsg := some (List.replicate 34 9#8) })
    let i := { w with irt := [(512, { target := 5, level := 15, urgent := false, enable := true })], swi := [(512, true)] }
    (validCid 5 = true ∧ s.writable ward (R.CORE.CTX_CTRL (s.corePage 5)) = true ∧
      s.pageCore .core (R.CORE.CTX_CTRL (s.corePage 5)) = some (coreIdx 5) ∧ s.flag (F.CORE.CORE_STATUS.MOVING (s.corePage 5)) = false ∧
      (s.cx 5).run = .halted ∧ codeOk (s.reg (R.CORE.CTX_PC (s.corePage 5) 5)) = true ∧ s.romStopped = false ∧
      s.oddJoined (coreIdx 5) = false) ∧
    ((w.cx 5).run ≠ .halted ∧ (w.cx 5).atEngine = false ∧ w.writable ward (R.CORE.CTX_CTRL (w.corePage 5)) = true) ∧
    (h.flag ⟨R.CORE.CTX_CTRL (h.corePage 0), 8, 1⟩ = true ∧ h.canRun 0 = true ∧ srFB (h.cx 0).sr = false) ∧
    ((m.cx 5).heldMsg = some (List.replicate 34 9#8) ∧ m.flag F.SYS.HALT_QUEUE.VALID = true ∧ m.get F.SYS.HALT_QUEUE.QUEUE = 3 ∧
      m.enabled pgQMG = true ∧ m.live pgQMG = true ∧ m.tagFree true = true ∧ m.inDram (0x4000 + 64 * 15) 64 = true ∧ (m.queue 3).valid = true ∧ (m.queue 3).pmode = false) ∧
    ((i.irtOf 512).target = 5 ∧ (i.cx 5).run = .waiting ∧ (i.withSr 5 (setBit (i.cx 5).sr 30 true)).takes 5 512 = true) ∧
    (served.writable ward R.SYS.IRT_WRITE = true ∧ reqWarden ward = true ∧ served.writable sup R.SYS.SWI = true ∧ reqSup sup = true) := by
  decide +kernel

theorem witness_Conjunction :
    let s := served
    let b := ((served.put (F.CLU.CONJ_STATUS.BUSY (pgClu 0) 1) 1).put ⟨R.CLU.CONJ_CTRL (pgClu 0), 1, 1⟩ 1)
    let e := served.put (F.CLU.CONJ_STATUS.BUSY (pgClu 0) 1) 1
    (s.writable sup (R.CLU.CONJ_CTRL (pgClu 0)) = true ∧ reqSup sup = true ∧ s.frozen (some 0) = false ∧
      s.flag ⟨R.CLU.CONJ_CTRL (pgClu 0), 1, 1⟩ = false ∧ b.flag ⟨R.CLU.CONJ_CTRL (pgClu 0), 1, 1⟩ = true ∧
      b.writable sup (R.CLU.CONJ_CTRL (pgClu 0)) = true) ∧
    (b.flag (F.CLU.CONJ_STATUS.BUSY (pgClu 0) 1) = true ∧
      (coreCids 2).all (fun d => !(b.cx d).atEngine) = true ∧ b.frozen (some 0) = false ∧
      e.flag (F.CLU.CONJ_STATUS.BUSY (pgClu 0) 1) = true ∧ e.flag ⟨R.CLU.CONJ_CTRL (pgClu 0), 1, 1⟩ = false) := by
  decide +kernel


/-- A cartridge of 8 blocks of 64 pages a chip select, with nothing on it. -/
def cart0 : Cartridge := { id := 0x1234, model := 5, capacity := 960, rated := 3000, retention := 30, date := 0x20250101, pub := 7, cert := 9, erases := 0, grown := 0, closed := false, blocks := 8, ppb := 64
                           spare := 1112, pageBytes := 16384, factory := [], retired := [], pages := [] }

/-- An open batch of three records' bytes. -/
def batch0 : Batch := { number := 7, bytes := List.replicate 96 5#8, count := 3, first := 1, last := 3, zcut := false, link := false
                        close := none, trailer := [], sigDue := false, sigDone := false }

/-- The journal in ACTIVE with cartridge 0 in service and the batch `b` open. -/
def journal (b : Option Batch) (c : Cartridge) : State :=
  let s := ((served.setJslot 0 { served.jslot 0 with cart := some c }).put (F.CRT.STATUS.STATE (pgCrt 0)) 4).put
    (F.CRT.STATUS.PRESENT (pgCrt 0)) 1
  let t := s.put F.JRN.STATE.STATE 2
  { t with jr := { t.jr with batch := b, prevHash := List.replicate 32 9#8 } }

/-- A page programmed, none left of the batch: the journal after batch 7 of one page. -/
def onCart : State :=
  let b := { batch0 with close := some 1, trailer := (journal (some batch0) cart0).buildTrailer batch0 1 false false (List.replicate 10 0) }
  let s := (journal (some b) cart0).putPage 0 (b.toPage 0) (List.replicate 8 0)
  ({ s with jr := { s.jr with batch := none } }).put F.JRN.COMMIT_BATCH.BATCH 7

/-- A page of a batch in metadata alone. -/
def page0 (n : Nat) : NandPage := { pos := 0, data := [], info := pageInfo 0 n 0 true 0, spare := [], errs := [0] }

theorem witness_JournalBatches :
    let s := journal (some batch0) cart0
    let e : List Byte := [3, 0, 0, 0, 0x10, 16, 0, 0, 0x80] ++ List.replicate 55 0#8
    let q : Queue := { Queue.init with base := 0x4000, depth := 4, valid := true, ckind := 1, tail := 1 }
    let t := (((((s.put (F.HDR.PG_CTRL.ENABLE pgIXL) 0).setQueue 3 q).put (F.JRN.INQ.QUEUE 0) 3).put (F.JRN.INQ.VALID 0) 1).setBytes 0x4000 e)
    let f := (t.setBytes 0x4000 (e.set 4 0x99#8))
    let b := { batch0 with close := some 1, trailer := List.replicate 256 0#8 }
    let p := journal (some b) cart0
    let g := { b with sigDue := true }
    let k := ((((journal (some g) cart0).put (F.VAULT.SLOT_ATTR.VALID 0) 1).put (F.VAULT.SLOT_ATTR.TYPE 0) 3).put
      (F.VAULT.SLOT_ATTR.USAGE 0) 0xFF).put F.SEC.RNG_STATUS.READY 1
    let a := (s.put ⟨R.JRN.RD_ADDR, 0, 40⟩ 0x8000).put ⟨R.JRN.RD_LEN, 0, 40⟩ 0x1000
    let run : RdRun := { slot := 0, next := 7, left := 1, prev := some (List.replicate 32 9#8) }
    let d := { onCart with jr := { onCart.jr with rd := some run } }
    (t.intakeOpen = true ∧ t.cascade = false ∧ t.nextQueue = some 3 ∧ (t.hwHead 3).1 = some e ∧ (t.elementRecord e).1 = 0 ∧
      t.fitsBatch (t.elementRecord e).2.1 = true ∧ (t.hwHead 3).2 = t) ∧
    (f.nextQueue = some 3 ∧ (f.elementRecord (e.set 4 0x99#8)).1 = 1) ∧
    (s.jr.batch = some batch0 ∧ batch0.close = none ∧ 0 < batch0.count ∧ s.jr.prevHash.length = 32 ∧ s.live pgJRN = true ∧
      s.writable ward R.JRN.CTRL = true ∧ s.enabled pgJRN = true) ∧
    (p.jr.batch = some b ∧ p.nextPage 0 = some 0 ∧ p.journalRuns = true ∧ (p.jslot 0).cart = some cart0 ∧ p.jstate ≠ 6) ∧
    (k.journalRuns = true ∧ k.jr.batch = some g ∧ g.sigDue = true ∧ g.sigDone = false ∧ k.canSign = true ∧ 152 ≤ g.trailer.length) ∧
    (a.writable ward R.JRN.RD_CTRL = true ∧ a.jr.rd = none ∧ a.inDram (a.reg R.JRN.RD_ADDR).toNat (a.reg R.JRN.RD_LEN).toNat = true ∧
      a.flag F.JRN.RD_CTRL.MODE = false ∧ a.readSlot = some 0) ∧
    (d.live pgJRN = true ∧ d.jr.rd = some run ∧ run.next ≤ d.get F.JRN.COMMIT_BATCH.BATCH ∧ (d.jslot 0).cart.isSome = true) ∧
    s.writable ward R.JRN.ARCHIVED = true := by
  decide +kernel

/-- The last page of batch 7 holds its image: the read clause's premise on the cartridge. -/
theorem witness_JournalImage :
    (onCart.jslot 0).cart.any (fun c => (c.find onCart.journalId 7).any (fun im => im.prev == List.replicate 32 9#8)) = true := by
  decide +kernel

theorem witness_JournalSlots :
    let s := (journal none cart0).put F.JRN.STATE.STATE 1
    let t := { s with jr := { s.jr with scanned := some none } }
    let u := (journal (some batch0) cart0).put (F.CRT.STATUS.STATE (pgCrt 1)) 3
    let v := { u with jr := { u.jr with roll := some (1, 0) } }
    let w := journal none { cart0 with pages := [(2048, { page0 3 with pos := 128 })] }
    let w1 := w.put F.JRN.ARCHIVED.BATCH 3 |>.put F.JRN.ERASE_AHEAD.STRIPES 2
    let e := w.setJslot 0 { w.jslot 0 with erasing := some 1 }
    let d := journal none cart0 |>.put (F.CRT.STATUS.STATE (pgCrt 0)) 1
    let z := (d.put (F.CRT.STATUS.STATE (pgCrt 0)) 0).setJslot 0 { d.jslot 0 with cart := none } |>.put (F.CRT.STATUS.PRESENT (pgCrt 0)) 0
    (s.live pgJRN = true ∧ s.jstate = 1 ∧ s.jr.scanned = none ∧ s.scanSlots = [0] ∧ (s.chainBreak 0).isSome = false) ∧
    (t.live pgJRN = true ∧ t.jstate = 1 ∧ t.jr.scanned = some none ∧ t.jr.carry = none) ∧
    ((s.put F.JRN.STATE.STATE 3).writable ward R.JRN.CTRL = true ∧ reqWarden ward = true ∧ (s.put F.JRN.STATE.STATE 3).jstate = 3) ∧
    (u.writers = [0] ∧ u.jstate = 2 ∧ u.crtState 1 = 3 ∧ u.mirror = false ∧ u.jr.roll = none ∧ u.writable ward R.JRN.CTRL = true) ∧
    (v.live pgJRN = true ∧ v.jr.roll = some (1, 0) ∧ v.crtState 1 = 3 ∧ v.crtState 0 = 4) ∧
    (w1.live pgJRN = true ∧ w1.jstate ≠ 6 ∧ w1.crtState 0 = 4 ∧ (w1.jslot 0).erasing = none ∧ w1.pointBlocked 0 = false ∧
      (w1.jslot 0).cart.any (fun c => (aheadOf c [] 2 0).any (fun q => !(c.inStripe q).isEmpty && c.erasable w1.journalId 3 false q)) = true) ∧
    (e.stopped = false ∧ (e.jslot 0).erasing = some 1 ∧ (e.jslot 0).cart.isSome = true) ∧
    (d.journalRuns = true ∧ d.flag (F.CRT.STATUS.PRESENT (pgCrt 0)) = !(none : Option Cartridge).isSome ∧
      z.flag (F.CRT.STATUS.PRESENT (pgCrt 0)) = !(some cart0).isSome ∧ z.journalRuns = true ∧ (z.jslot 0).cart = none) ∧
    (d.live pgJRN = true ∧ d.crtState 0 = 1 ∧ (d.jslot 0).cart = some cart0 ∧
      (d.put F.SEC.RNG_STATUS.READY 1).flag F.SEC.RNG_STATUS.READY = true) ∧
    (d.writable ward (R.CRT.CTRL (pgCrt 0)) = true ∧ d.flag (F.CRT.CTRL.IDENTIFY (pgCrt 0)) = false ∧ (d.put (F.CRT.STATUS.STATE (pgCrt 0)) 2).crtState 0 = 2 ∧
      (d.put (F.CRT.STATUS.STATE (pgCrt 0)) 0).crtState 0 = 0) := by
  decide +kernel

/-- Channel 5 in service: dormant seal, decimal point 2, 3000 divisions of 5, line 7, stable or not, with `w` its engine's data. -/
def channel (w : Weigh) (stable : Bool) : State :=
  let p := pgCh 5
  let s1 := ((served.setReg (p + 0x100) 0x307).setReg (p + 0x110) 0x100000000).setReg (p + 0x118) (BitVec.ofNat 40 (3000 + 2 ^ 24 * 5))
  let s2 := (s1.setReg (p + 0x130) (BitVec.ofNat 40 (10 + 64 * 2 + 2 ^ 10 * 3 + 2 ^ 14 * 8 + 2 ^ 18 * 4 + 2 ^ 26 * 50))).setReg (p + 0x138) 10000
  let s3 := (((s2.put (F.CH.SEAL_STATUS.CAL_VALID p) 1).put (F.WGH.CLK_CFG.EN 0) 1).put (F.GPIO.GP.IN 7) 1).put (F.CH.CH_STATUS.STABLE p) (b2n stable)
  ((s3.put (F.HDR.PG_CTRL.EXPERT p) 1).setWc 5 w).setChState 5 2

theorem witness_WeighCommands :
    let p := pgCh 5
    let s := channel Weigh.init true
    let w := channel { Weigh.init with wait := some 0, chk := some { tag := 77, expect := 5, tol := 2, ref := none } } false
    let a := ((s.setReg (R.CH.CHK_EXPECT p) 0x1234).setReg (R.CH.CHK_TOL p) 0x10).put (F.CH.CHK_CTRL.TIMEOUT p) 4
    (s.writable ward (R.CH.CMD p) = true ∧ (s.wc 5).wait = none ∧ s.chState 5 = 2 ∧ s.flag (F.CH.CH_STATUS.STABLE p) = true) ∧
    ((s.setChState 5 1).chState 5 ≠ 2 ∧ (w.wc 5).wait.isSome = true ∧ w.wghRuns = true ∧ (w.wc 5).chk.isSome = true ∧
      w.writable ward (R.CH.CMD p) = true ∧ w.writable ward (R.CH.CHK_CTRL p) = true) ∧
    (a.writable ward (R.CH.CHK_CTRL p) = true ∧ getF (a.reg (R.CH.CHK_CTRL p)) 18 12 ≠ 0 ∧ bcdOk 10 (a.reg (R.CH.CHK_EXPECT p)).toNat = true ∧
      bcdOk 10 (a.reg (R.CH.CHK_TOL p)).toNat = true) ∧
    (s.writable ward (R.CH.CH_CTRL p) = true ∧ getF 0xC801 10 6 = 50 ∧ s.flag (F.CH.CH_CTRL.ENABLE p) = false) ∧
    s.writable ward R.WGH.CLK_CFG = true := by
  decide +kernel

theorem witness_WeighSeal :
    let p := pgCh 5
    let s := channel Weigh.init true
    let b := { s with weigh := [(5, Weigh.init)] }
    let d := { s with weigh := [(5, { Weigh.init with commit := true })] }
    let o := (s.put (F.CH.SEAL_STATUS.OPEN p) 1)
    let g := ((s.put (F.HDR.PG_CTRL.ENABLE pgGFIL) 1).setReg (R.CH.NOISE p) 0x40000000).modWc 5 (fun w => { w with motionRun := 1000000 })
    (b.wghRuns = true ∧ (b.wc 5).heldW = none ∧ (b.wc 5).heldV = none ∧ (b.wc 5).fresh = [] ∧ (b.wc 5).commit = false ∧ b.chState 5 ≠ 0 ∧
      b.flag (F.WGH.CLK_CFG.EN (getF (b.committed 5).decim 0 3)) = true ∧ b.flag (F.CH.CH_STATUS.MODFAULT p) = false ∧ (b.wc 5).eqRun < 4095 ∧
      (b.wc 5).nbits + 1 < (b.committed 5).dec) ∧
    ((d.wc 5).commit = true ∧ d.wghRuns = true ∧ d.weigh = [(5, d.wc 5)]) ∧
    (s.writable ward R.WGH.SEAL_OPEN = true ∧ reqWarden ward = true ∧ o.sealOpen 5 = true ∧ o.writable ward R.WGH.SEAL_OPEN = true ∧ o.wghRuns = true) ∧
    ((List.range 64).find? (fun d => (o.committed d).line.getLsbD 9 && getF (o.committed d).line 0 8 == 7) = some 5) ∧
    (o.writable ward (R.CH.SEAL_CTRL p) = true ∧ (o.wc 5).cal = none) ∧
    (s.writable ward (p + sealedReg 8) = true ∧ o.writable ward (p + sealedReg 10) = true) ∧
    (g.wghRuns = true ∧ g.enabled pgGFIL = true ∧ (g.filterWish 5).isSome = true ∧
      (g.filterWish 5).all (fun w => decide (w.1 < 16 ∧ w.2 < 256)) = true) ∧
    (s.writable ward (R.CH.MOTION_WIN p) = true ∧ s.writable ward (R.CH.IIR_K p) = true) := by
  decide +kernel

/-- Lines 7 to 9, timer 7 and ports USB 2, UART 2 and CAN 2 belong to the boot warden's context 0x200, with quotas of 2 units; profile 3
keeps frames that a pause ends; queue 3 feeds transmit paths. -/
def lanes : State :=
  let ow : OwnRec := { held := true, owner := ownerId ward, units := 2 }
  let s1 := (((((served.setClaim 0 7 ow).setClaim 0 8 ow).setClaim 0 9 ow).setClaim 1 7 ow).setClaim 2 2 ow).setClaim 2 18 ow |>.setClaim 2 66 ow
  let s2 := ((s1.setReg (R.PROFP.LIMITS (pgProf 3) 3) (BitVec.ofNat 40 (100 + 2 ^ 13 * 7))).setReg (R.PROFP.FRAME (pgProf 3) 3)
    (BitVec.ofNat 40 (2 ^ 24 + 2))).setReg (bindAddr 258) (BitVec.ofNat 40 (3 + 2 ^ 13 + 2 ^ 14 * 3))
  let s3 := (((s2.put (F.USBP.PORT_CTRL.ENABLE (pgUsb 2) 2) 1).put (F.USBP.PORT_STATUS.ENABLED (pgUsb 2) 2) 1).put
    (F.UARTP.UA_CFG.ENABLE (pgUart 2) 2) 1).put (F.CANP.CAN_CFG.ENABLE 2) 1
  (s3.put F.LIO.POOL.FREE 2000).setQueue 3 { Queue.init with base := 0x4000, depth := 4, valid := true, ckind := 2, tail := 1 }

theorem witness_LaneOwners :
    let s := lanes
    let g := (s.put (F.GPIO.GP.FUNC 9) 1).put (F.GPIO.GP.COND 9) 3
    let t (m : Nat) : State := (s.put (F.TIMER.TM_CFG.GO 7) 1).put (F.TIMER.TM_CFG.MODE 7) m
    (s.writable sup R.OWN.CLAIM = true ∧ s.writable ward R.OWN.CLAIM = true ∧ (s.claimOf 2 2).owner = ownerId ward) ∧
    (s.writable sup (bindAddr 258) = true ∧ reqWarden sup = false ∧ bindPort 258 = 18 ∧ (s.claimOf 2 18).owner ≠ ownerId sup) ∧
    (s.writable ward (bindAddr 258) = true ∧ reqWarden ward = true ∧ s.writable ward (txqAddr 2) = true) ∧
    (s.writable ward (R.PROFP.FRAME (pgProf 3) 3) = true ∧ s.writable ward (R.PROFP.FRAME (pgProf 63) 15) = true) ∧
    (s.writable ward (R.LIO.AREA_BASE 31) = true ∧ s.flag (F.LIO.AREA_BASE.VALID 31) = false) ∧
    (s.writable ward (R.USBP.PORT_CTRL (pgUsb 2) 2) = true ∧ s.writable ward (R.USBP.PIPE_BIND (pgUsb 2) 2 15) = true) ∧
    (s.writable ward (R.GPIO.GP 191) = true ∧ s.writable ward (R.TIMER.TM_CFG 63) = true) ∧
    (g.lioRuns = true ∧ g.get (F.GPIO.GP.FUNC 9) ≠ 0) ∧
    ((t 1).lioRuns = true ∧ (t 1).flag (F.TIMER.TM_CFG.GO 7) = true ∧ (t 1).get (F.TIMER.TM_CFG.MODE 7) = 1 ∧
      (t 3).get (F.TIMER.TM_CFG.MODE 7) = 3 ∧ (t 4).get (F.TIMER.TM_CFG.MODE 7) = 4 ∧ (t 5).get (F.TIMER.TM_CFG.MODE 7) = 5 ∧
      (t 6).get (F.TIMER.TM_CFG.MODE 7) = 6) := by
  decide +kernel

theorem witness_LaneTraffic :
    let s := lanes
    let h := (s.setReg (R.PROFP.FRAME (pgProf 3) 3) (BitVec.ofNat 40 (2 ^ 24 + 2 + 8 * 2))).setReg (R.PROFP.PREFIX (pgProf 3) 3) 0x5AA5
    let f0 : Framer := { Framer.hunt with phase := 2, prof := s.profile 3, bind := s.reg (bindAddr 258), buf := [1, 2, 3] }
    let f := s.setFramer 258 f0
    let m : RxMsg := { b := 258, bind := s.reg (bindAddr 258), bytes := [1, 2, 3], size := 64 }
    let r : State := { s with ready := [m] }
    let e : List Byte := [3, 0, 0, 0, 0x40, 10, 0, 0] ++ List.replicate 56 1#8
    let x := ((s.setReg (R.UARTP.UA_TXQ (pgUart 2) 2) (BitVec.ofNat 40 (3 + 2 ^ 13 + 2 ^ 14 * 3))).setBytes 0x4000 e)
    let z := x.setBytes 0x4000 (e.set 4 9#8)
    (h.portRuns (bindPort 258) = true ∧ (h.framer 258).phase = 0 ∧ (h.reg (bindAddr 258)).getLsbD 13 = true ∧
      (h.profile (getF (h.reg (bindAddr 258)) 14 6)).valid = true ∧ 1 < (h.profile (getF (h.reg (bindAddr 258)) 14 6)).prefixBytes.length) ∧
    (f.portRuns (bindPort 258) = true ∧ (f.framer 258).phase = 2 ∧ (f.framer 258).dead = false ∧ (f.framer 258).prof.ends = 2 ∧ (f.framer 258).len = none ∧
      f.usedBytes (bindPort 258) + 64 ≤ 1024 * (f.claimOf 2 (bindPort 258)).units) ∧
    (f.lioRuns = true ∧ f0.prof.ito ≠ 0 ∧ f0.prof.nsuf = 0 ∧ f0.prof.checkLen = 0 ∧ 3 ≤ f0.prof.maxlen ∧ f0.prof.cstart ≤ 3) ∧
    (r.lioRuns = true ∧ r.portTagFree = true ∧ r.ready.head? = some m ∧ m.bind.getLsbD 20 = false) ∧
    (x.txQueue 258 = some 3 ∧ x.portRuns (txPort 258) = true ∧ x.txProfile 258 = true ∧ x.canSends 258 = true ∧ tabGet [] x.txHeld 258 = [] ∧
      x.hwHead 3 = (some e, x) ∧ x.portTagFree = true ∧ x.chosenQueue 2 x.laneServes = some 3 ∧
      x.usedBytes (txPort 258) + 64 ≤ 1024 * (x.claimOf 2 (txPort 258)).units ∧ ((x.txBytes e).bind (x.framed 258)).any (fun w => !w.isEmpty && decide (w.length ≤ 64)) = true) ∧
    (z.hwHead 3 = (some (e.set 4 9#8), z) ∧ z.chosenQueue 2 z.laneServes = some 3 ∧ (z.txBytes (e.set 4 9#8)).bind (z.framed 258) = none) ∧
    (s.portRuns 18 = true ∧ (s.put (F.USBP.PORT_CTRL.RESET (pgUsb 2) 2) 1).flag (F.USBP.PORT_CTRL.RESET (pgUsb 2) 2) = true ∧
      s.live pgLIO = true ∧ s.refClk 3 = true) := by
  decide +kernel

theorem witness_LaneTraffic_ports :
    let s := lanes
    let q : State := { s with ctlReq := [(2, [3, 0x80, 6, 0, 0, 0, 0, 10, 0])] }
    let pipe (t : Nat) : State := (s.setReg (R.USBP.PIPE_CFG (pgUsb 2) 2 1) (BitVec.ofNat 40 (2 ^ 11 + 2 ^ 12 * t + 2 ^ 14 * 64))).setReg
      (bindAddr 33) (BitVec.ofNat 40 (2 ^ 13))
    let fr : CanFrame := { id := 5, ide := true, fdf := false, brs := false, esi := false, rtr := false, len := 2, data := [1, 2] }
    let c := ((s.put (F.CANP.FILT_ID.VALID 2 0) 1).put (F.CANP.FILT_ID.IDE 2 0) 1).setReg (bindAddr 320) (BitVec.ofNat 40 (3 + 2 ^ 13)) |>.put
      (F.CANP.FILT_ID.ID 2 0) 5
    let d : State := { s with txHeld := [(306, [7, 8])] }
    let o := (s.put (F.CANP.CAN_CFG.AUTO 2) 1).put (F.CANP.CAN_STATUS.STATE 2) 2
    (∀ t : Fin 2, let u := pipe (t.val + 1)
      u.portRuns 2 = true ∧ u.flag ⟨bindAddr 33, 13, 1⟩ = true ∧ u.flag (F.USBP.PIPE_CFG.DIR (pgUsb 2) 2 1) = true ∧
      u.get (F.USBP.PIPE_CFG.TYPE (pgUsb 2) 2 1) = t.val + 1 ∧ u.usedBytes 2 + u.get (F.USBP.PIPE_CFG.MPS (pgUsb 2) 2 1) ≤ 1024 * (u.claimOf 2 2).units) ∧
    (q.portRuns 2 = true ∧ tabGet [] q.ctlReq 2 = [3, 0x80, 6, 0, 0, 0, 0, 10, 0] ∧ (q.reg (bindAddr 35)).getLsbD 20 = false) ∧
    (c.portRuns 66 = true ∧ (List.range 8).find? (fun k => c.flag (F.CANP.FILT_ID.VALID 2 k) && c.get (F.CANP.FILT_ID.IDE 2 k) == b2n fr.ide &&
        ((fr.id ^^^ BitVec.ofNat 29 (c.get (F.CANP.FILT_ID.ID 2 k))) &&& BitVec.ofNat 29 (c.get (F.CANP.FILT_MASK.MASK 2 k))) == 0) = some 0 ∧
      (c.reg (bindAddr 320)).getLsbD 13 = true ∧ (c.reg (bindAddr 320)).getLsbD 20 = false ∧ c.usedBytes 66 + 64 ≤ 1024 * (c.claimOf 2 66).units) ∧
    (d.portRuns 66 = true ∧ tabGet [] d.txHeld 306 = [7, 8]) ∧
    (o.lioRuns = true ∧ o.flag (F.CANP.CAN_CFG.ENABLE 2) = true ∧ o.flag (F.CANP.CAN_CFG.AUTO 2) = true ∧ o.get (F.CANP.CAN_STATUS.STATE 2) = 2) := by
  decide +kernel

/-- Port 3 up, steering rule 4 to area 2, whose queue is 3; transmit queue 3 with `e` at its head. -/
def wired (e : List Byte) : State :=
  let g := pgNport 3
  let s1 := ((((served.put (F.NPORT.PCFG.ENABLE g 3) 1).put (F.NPORT.PSTATUS.LINK g 3) 1).put (F.NPORT.PCFG.MAXLEN g 3) 1518).put
    (F.NPORT.PCFG.PROMISC g 3) 1).put (F.NPORT.PCFG.PAUSE_RX g 3) 1
  let s2 := (((s1.put (F.NET.RULE_ACTION.VALID 4) 1).put (F.NET.RULE_ACTION.AREA 4) 2).setReg (R.NET.RULE_PORTS 4) 8)
  let s3 := (((s2.put (F.NET.AREA_BASE.SIZE 2) 4).put (F.NET.AREA_BASE.BASE 2) 16).put (F.NET.AREA_QUEUE.QUEUE 2) 3).put (F.NET.AREA_BASE.VALID 2) 1
  let s4 := ((s3.put (F.NPORT.TXQ.ENABLE g 3) 1).put (F.NPORT.TXQ.QUEUE g 3) 3).setQueue 3
    { Queue.init with base := 0x4000, depth := 4, valid := true, ckind := 3, tail := 1 }
  s4.setBytes 0x4000 e

/-- A transmit element of 20 bytes at 0x20, with a report. -/
def txEl : List Byte := [3, 0, 0, 0, 0x41, 14, 0, 0] ++ leBytes 5 0x20 ++ leBytes 2 20 ++ [1] ++ List.replicate 48 0#8

theorem witness_NetworkAndHost :
    let s := wired txEl
    let g := pgNport 3
    let f : List Byte := List.replicate 60 2#8
    let rp : TxReport := { port := 3, tag := 77, ts := true, sec := 9, ns := 8 }
    let t := ({ s with txReports := [rp] }).put F.NET.TS_QUEUE.VALID 1
    let h := s.put F.PCI.PSTATUS.LINK 1
    let r := ((((h.put F.PCI.PCFG.ROLE 1).put (F.PCI.OUT_CFG.VALID 1) 1).put (F.PCI.OUT_CFG.SIZE 1) 24).put (F.PCI.OUT_CFG.OFFSET 1) 4096)
    (s.ethUp 3 = true ∧ s.macAccept 3 f = true ∧ (List.range 64).find? (fun k => s.ruleMatches k 3 f) = some 4 ∧ s.fifo 3 = [] ∧
      s.netBusy 2 = false ∧ s.flag (F.NET.AREA_BASE.VALID 2) = true ∧ s.portTagFree = true ∧
      s.inDram (4096 * s.get (F.NET.AREA_BASE.BASE 2)) f.length = true ∧ f.length + 4 ≤ s.get (F.NPORT.PCFG.MAXLEN g 3) ∧ (s.put (F.NPORT.PCFG.PROMISC g 3) 0).macAccept 3 f = false ∧
      (List.range 64).all (fun k => !(s.put (F.NET.RULE_ACTION.VALID 4) 0).ruleMatches k 3 f) = true) ∧
    (s.flag (F.NPORT.PCFG.PAUSE_RX g 3) = true ∧ s.flag (F.NPORT.TXQ.ENABLE g 3) = true ∧ s.flag (F.NPORT.PSTATUS.PAUSED g 3) = false ∧
      s.hwHead (s.get (F.NPORT.TXQ.QUEUE g 3)) = (some txEl, s) ∧ s.chosenQueue 3 s.ethServes = some 3 ∧
      (s.ethFrame 3 txEl).isSome = true) ∧
    (t.netRuns = true ∧ t.flag F.NET.TS_QUEUE.VALID = true ∧ t.txReports.find? (fun x => x.port == 3) = some rp) ∧
    (s.netRuns = true ∧ s.flag (F.NPORT.PCFG.ENABLE g 3) = true ∧ s.refClk 1 = true) ∧
    (s.writable ward R.TB.TB_CTRL = true ∧ s.flag F.TB.TB_CTRL.SNAP = false ∧ s.flag F.TB.TB_CTRL.STEP = false ∧ s.flag F.TB.TB_CTRL.SET = false) ∧
    (s.live pgPCI = true ∧ s.enabled pgPCI = true ∧ s.refClk 2 = true) ∧
    (h.pciUp = true ∧ h.pciRoot = false ∧ r.pciUp = true ∧ r.pciRoot = true ∧ r.live pgPCI = true ∧ r.enabled pgPCI = true ∧
      (r.outAddr 0xC010000000).isSome = true ∧ (r.put F.PCI.PSTATUS.LINK 0).pciUp = false ∧ r.outAddr 0xC011000000 = none) := by
  decide +kernel

/-- Device 2 of a site of three, port 0 of the Ixlink ACTIVE, device 3 behind it; primary or satellite of device 3. -/
def site (prim : Bool) : State :=
  let s1 := ((served.put (F.HDR.PG_CTRL.ENABLE pgIXL) 1).put F.TLY.SELF.ID 2).put (F.IXP.XSTATUS.STATE (pgIxp 0)) 4
  let s2 := (((s1.put F.IXL.ROLE.IS_PRIMARY (b2n prim)).put F.IXL.ROLE.KNOWN 1).put F.IXL.ROLE.PRIMARY_ID (if prim then 2 else 3)).put F.IXL.ROLE.EPOCH 1
  let s3 := ((s2.put (F.IXL.RT_ENTRY.PRESENT 2) 1).put (F.IXL.RT_ENTRY.PRESENT 3) 1).setReg R.IXL.LIVE 0x0C
  (s3.put F.IXL.REMOTE_KRR.RIGHTS 0xFFFFFFFF).put (F.IXP.XCTRL.ENABLE (pgIxp 0)) 1

/-- A packet from device 3 to device 2. -/
def pkt (ty : Nat) (args payload : List Byte) : IxPkt :=
  { type := ty, src := 3, dst := 2, vc := 1, seq := 0, hops := 7, bcast := false, tag := 9, args, payload }

theorem witness_IxlinkPackets :
    let s := site true
    let pe : IxPeer := { version := 1, site := 0, id := 3, port := 1, delay := 77 }
    let x (n : Nat) : State := s.put (F.IXP.XSTATUS.STATE (pgIxp 0)) n
    let o : TOp := { TOp.of .post 0 (BitVec.ofNat 21 (3 * 2 ^ 18)) false with tag := 9, ticket := some 4 }
    let r := { s with remoteOps := [o], memRds := [(9, 3)] }
    let e : List Byte := [3, 0, 0, 0, 0x41, 10, 0, 0, 5, 0, 3] ++ List.replicate 53 1#8
    let q := (s.setQueue 3 { Queue.init with base := 0x4000, depth := 4, valid := true, ckind := 4, tail := 1 }).setBytes 0x4000 e
    (s.writable ward (R.IXP.XCTRL (pgIxp 0)) = true ∧ s.flag (F.IXP.XCTRL.ENABLE (pgIxp 0)) = true ∧ s.get (F.IXP.XCTRL.MAXW (pgIxp 0)) ≠ 3) ∧
    (s.ixlRuns = true ∧ pe.id < 8 ∧ s.refClk 1 = true ∧ (∀ n : Fin 8, (x n.val).get (F.IXP.XSTATUS.STATE (pgIxp 0)) = n.val) ∧
      (x 7).flag (F.IXP.XCTRL.ENABLE (pgIxp 0)) = true) ∧
    (s.ix[(0 : Fin 2)].txq = [] ∧ s.ixHold = []) ∧
    (s.ixActive 0 = true ∧ s.ix[(0 : Fin 2)].rxSeq = (pkt 0x10 [] []).seq ∧ ixWellFormed (pkt 0x70 (List.replicate 8 0) []) = true) ∧
    (r.remoteOps.find? (fun x => x.tag == 9 && devOf x.acct == 3) = some o ∧ (r.ticket 4).flushed = false ∧
      r.memRds.find? (fun x => x.1 == 9 && x.2 == 3) = some (9, 3) ∧ r.memRds.find? (fun x => x.1 == 9) = some (9, 3)) ∧
    (q.chosenQueue 4 (fun m => (q.hwHead m).1.isSome) = some 3 ∧ q.ixlRuns = true ∧ q.ixIdle (q.ixRoute 3) = false ∧
      q.hwHead 3 = (some e, q) ∧ ((q.ix[0].txq ++ q.ix[1].txq ++ q.ixHold).any (fun x => x.vc == 2)) = false) ∧
    (s.remoteOk 0x2000 64 true = true ∧ s.remoteOk 0x2000 1 false = true) := by
  decide +kernel

theorem witness_Cascade :
    let m := site true
    let s := site false
    let g := ({ m with gcutOn := true }).put F.IXL.GCUT_CTRL.NUMBER 5
    let w : CutWait := { number := 5, sec := 0, ns := 0, late := false, due := false }
    let c := ({ s with cutAt := some w }).put F.TLY.SEEDED 1
    let l (n : Nat) : State := m.put F.IXL.GCUT_CTRL.LEAD n
    let d := (s.setReg R.IXL.LIVE 0x0C).put F.IXL.ROLE.PRIMARY_ID 3
    (m.ixlRuns = true ∧ s.ixlRuns = true ∧ m.isPrimary = true ∧ s.isPrimary = false ∧ m.selfId = 2 ∧ g.gcutOn = true ∧
      g.get F.IXL.GCUT_CTRL.NUMBER = 5) ∧
    (c.cutAt = some w ∧ c.tallyRuns = true ∧ c.flag F.TLY.SEEDED = true ∧ (List.finRange 8).all (fun b => decide (c.banks[b].length < 64)) = true) ∧
    ((l 100).writable ward R.IXL.GCUT_CTRL = true ∧ (l 100).get F.IXL.GCUT_CTRL.LEAD = 100 ∧ (l 10000).get F.IXL.GCUT_CTRL.LEAD = 10000 ∧
      (l 100).flag F.IXL.GCUT_CTRL.RELEASE = false ∧ (l 100).flag F.IXL.GCUT_CTRL.START = false) ∧
    (({ s with jsnAsked := true }).ixlRuns = true ∧ s.intake.length < 64 ∧ s.flag F.IXL.ROLE.STRAP = false ∧ s.ixIdle (s.ixRoute 3) = false ∧
      ({ s with ixHeard := true }).ixHeard = true ∧ s.ixHeard = false ∧ (s.flag F.IXL.ROLE.KNOWN && !s.isPrimary) = true) ∧
    (bitOf (d.get F.IXL.LIVE.LIVE) 3 = true ∧ d.isPrimary = false ∧ d.ixlRuns = true) ∧
    (s.flag F.IXL.ROLE.KNOWN = true ∧ s.get F.IXL.ROLE.EPOCH = 1 ∧ s.get F.IXL.ROLE.PRIMARY_ID = 3 ∧ s.get F.IXL.RT_CTRL.RT_EPOCH ≠ 7) ∧
    (m.writable ward R.IXL.RT_CTRL = true ∧ m.writable ward R.IXL.HANDOVER = true ∧ reqWarden ward = true) := by
  decide +kernel

/-- Channel 1 with a job of operation `op` in its descriptor at 0xC0, keys 40 and 41 of the given types, `al` bytes of AUX, `sl` of source
and `dl` of destination. -/
def job (op ty ty2 al aad sl dl : Nat) : State :=
  let s1 := ((served.put (F.HDR.PG_CTRL.ENABLE pgSEC) 1).put (F.SEC.JOB_ADDR.ADDR 1) 3).put F.SEC.RNG_STATUS.READY 1
  let s2 := (((s1.put F.SEC.BOOT_STATUS.VERIFIED 1).put (F.VAULT.SLOT_ATTR.TYPE 40) ty).put (F.VAULT.SLOT_ATTR.USAGE 40) 0xFF).setKey 40
    (List.replicate 32 1#8)
  let s3 := (s2.put (F.VAULT.SLOT_ATTR.TYPE 41) ty2).setBytes 192 ([BitVec.ofNat 8 op, 40, 41, 0] ++ leBytes 5 0x200 ++ leBytes 3 sl ++
    leBytes 5 0x400 ++ leBytes 3 dl ++ leBytes 5 0x300 ++ leBytes 2 al ++ leBytes 3 aad)
  { s3 with jobs := s3.jobs.set 1 { run := true, addr := 192, res := none } }

/-- Is the job of channel 1 ready for its unit, with no check failing? -/
def jobReady (s : State) : Bool :=
  let d := s.desc 1
  s.secRuns && !s.internalWaits && s.unitFree (s.opUnit d) && s.nextJob (s.opUnit d) == some 1 && !s.flag (F.VAULT.SLOT_ATTR.INUSE d.slot2) &&
    s.jobCheck 1 d == 0

theorem witness_CryptoJobs :
    [(1, 0, 0, 0, 0, 20, 32), (2, 2, 0, 0, 0, 20, 32), (3, 1, 0, 12, 4, 20, 32), (4, 1, 0, 12, 4, 40, 20), (5, 1, 0, 16, 0, 20, 20),
      (6, 1, 0, 16, 0, 32, 32), (7, 1, 0, 16, 0, 48, 48), (8, 3, 0, 0, 0, 32, 64), (9, 3, 0, 0, 0, 96, 0), (10, 3, 2, 64, 0, 0, 0),
      (11, 0, 1, 0, 0, 0, 0), (12, 3, 0, 0, 0, 0, 64), (13, 1, 1, 12, 0, 48, 0), (14, 0, 0, 0, 0, 0, 20), (15, 0, 0, 0, 0, 0, 0),
      (16, 0, 4, 0, 0, 64, 0)].all (fun x => jobReady (job x.1 x.2.1 x.2.2.1 x.2.2.2.1 x.2.2.2.2.1 x.2.2.2.2.2.1 x.2.2.2.2.2.2)) = true ∧
    (let s := job 1 0 0 0 0 20 31
     s.jobCheck 1 (s.desc 1) ≠ 0 ∧ s.secRuns = true ∧ s.internalWaits = false ∧ s.unitFree (s.opUnit (s.desc 1)) = true ∧ s.nextJob (s.opUnit (s.desc 1)) = some 1) ∧
    (let s := { job 1 0 0 0 0 20 32 with jobs := (job 1 0 0 0 0 20 32).jobs.set 1 { run := true, addr := 192, res := some { unit := 0, status := 15, outlen := 32, slots := [] } } }
     s.secRuns = true ∧ s.jobs[(1 : Fin 4)].res = some { unit := 0, status := 15, outlen := 32, slots := [] } ∧ s.live pgSEC = true ∧
      s.jobAddr 1 = 192 ∧ s.inDram 192 64 = true ∧ s.flag F.SEC.RNG_STATUS.FAIL = false ∧ s.writable sup (R.SEC.JOB_CTRL 1) = true ∧ s.writable ward R.SEC.RNG_CTRL = true) := by
  decide +kernel

theorem witness_WardenAndRecorder :
    let s := (served.put (F.HDR.PG_CTRL.ENABLE pgSEC) 1).put F.SEC.RNG_STATUS.READY 1
    let e : RecEvent := { code := 0x0123, source := 9, severity := 2, p0 := 1, p1 := 2, p2 := 3 }
    let w := s.put F.WRD.WDOG_CFG.EN 1
    let q : ClearReq := { auth := List.replicate 96 0, seq := 5 }
    let run : ClearRun := { part := 0, upto := 3, seq := 5 }
    (s.writable ward R.WRD.WDOG_KICK = true ∧ ward = .ctx 0x200 3#2 ∧ w.live pgWRD = true ∧ bitOf (w.get F.WRD.WDOG_CFG.EN) 0 = true) ∧
    (s.writable ward R.SEC.REVOKE = true ∧ s.flag F.DBG.ECL_CFG.REC_EN = false ∧ protectedEvent 0x0123 = false) ∧
    (({ s with intake := [e] }).intake = e :: [] ∧ s.recLost = 0 ∧ s.get F.REC.COUNTS.CLEAR < 256 ∧ s.get F.REC.COUNTS.PROT < 3840) ∧
    (s.writable ward R.REC.SW_CTRL = true ∧ s.intake.length < 64 ∧ s.writable sup R.REC.RD_SLOT = true ∧ s.writable ward R.REC.CLEAR_CTRL = true) ∧
    (s.live pgSEC = true ∧ s.enabled pgSEC = true ∧ s.flag F.SEC.RNG_STATUS.READY = true ∧ ({ s with clears := [q] }).clears.head? = some q ∧ ({ s with clearRun := some run }).clearRun = some run) := by
  decide +kernel

/-- The governors in service, with a joule budget of 60 W, every cluster at step 0 of at most 3, mode `m` of the health governor's page
and of the power governor's. -/
def governed (m : Nat) : State :=
  let s1 := [pgGPWR, pgGHEA, pgGWEA, pgGOV].foldl (fun (s : State) p => s.put (F.HDR.PG_CTRL.ENABLE p) 1) served
  let s2 := ((s1.put (F.GALL.GCTRL.MODE pgGPWR) m).put (F.GALL.GCTRL.MODE pgGHEA) m).put (F.GALL.GCTRL.MODE pgGWEA) m
  let s3 := (s2.put F.GHEA.CORE_THRESH.COUNT 2).put F.GHEA.CORE_THRESH.HOURS 24
  { s3.put F.GHEA.COMET_CFG.EN 1 |>.put F.GHEA.SCRUB_CFG.EN 1 with trained := true }

theorem witness_Governors :
    let s := governed 1
    let pg := pgGPWR
    let a := (s.setReg (R.GALL.SUGGEST pg) (BitVec.ofNat 40 (1 + 2 ^ 8 * 7 + 2 ^ 36)))
    let q : SubReq := { clu := 0, lc := 1, phys := 1, unc := false, noted := false }
    let b := { s with subs := [q] }
    let x := b.put (F.CLU.CORE_MAP.SPARE (pgClu 0)) 0xF
    (s.writable ward (R.GALL.GCTRL pg) = true ∧ s.flag (F.GALL.GCTRL.APPLY pg) = false ∧ pg = pgGOV + 0x1000 * (0 + 1) ∧ a.get (F.GALL.SUGGEST.ACTION pg) = 1 ∧
      a.get (F.GALL.SUGGEST.TARGET pg) = 7 ∧ a.get (F.GALL.SUGGEST.VALUE pg) = 1) ∧
    (s.govRuns = true ∧ s.trip = none ∧ s.govMode pgGPWR = 1 ∧ (governed 2).govMode pgGPWR = 2 ∧ (governed 0).govMode pgGPWR = 0 ∧
      s.get F.GPWR.TJ_LIMIT.C < 94 ∧ (∀ m : Fin 8, s.stepOf m.val < s.get (F.GPWR.CLU_LIMITS.MAXSTEP m.val)) ∧
      (∀ m : Fin 8, s.prioOf m.val = s.prioOf 7 ∧ s.stepOf m.val = s.stepOf 7)) ∧
    (({ s with pwrUp := some (7, 3) }).pwrUp = some (7, 3) ∧ s.pmbHold = false) ∧
    (s.powered 2 = true ∧ s.serves 0 1 = some 1 ∧ s.get F.GHEA.CORE_THRESH.COUNT = 2 ∧ s.govMode pgGHEA = 1) ∧
    ((∀ i : Fin 8, (s.core_ (8 * 0 + i.val)).sb = []) ∧ s.comet = none ∧ s.cometHeld = none ∧ s.cometBack = none ∧ s.clusterFrozen 0 = false ∧ s.flag F.DBG.ECL_CFG.REC_EN = false ∧
      s.joined 0 1 = false ∧ s.spareOf 0 = 8 ∧ s.physOf 0 1 = 1 ∧ s.subs = [] ∧ validCid 8 = true ∧ isWardenCid 8 = false ∧
      coreIdx 8 = 8 * 0 + 1 ∧ s.coreLive (coreIdx 8) = true ∧ b.subs = [q] ∧ x.spareOf 0 = 0xF ∧ x.subs = [q] ∧ q.noted = false) := by
  decide +kernel

theorem witness_Governors_rest :
    let s := governed 1
    let ct : Comet := { clu := 0, lc := 1, phys := 1, spare := 8, retest := false }
    let c := { s.put F.GHEA.COMET_STATUS.ACTIVE 1 with comet := some ct }
    let e := { s with cometTurn := 0, cometCore := s.cometCore.set 0 1 }
    let f := (s.put F.GHEA.RETIRE_REQ.VALID 1).put F.GHEA.RETIRE_REQ.FRAME 500
    let w := (s.setJslot 0 { s.jslot 0 with cart := some cart0 }).put (F.CRT.STATUS.STATE (pgCrt 0)) 4 |>.put F.GWEA.ROLL_DAYS.DAYS 0
    let u := (s.put F.GOV.UPD_STATUS.STATE 1)
    (e.cometTurn = 0 ∧ e.enabled (pgClu 0) = true ∧ e.cometCore[(0 : Fin 8)] = 1 ∧ e.flag F.GHEA.COMET_CFG.EN = true ∧
      e.writable ward R.GHEA.COMET_CTRL = true ∧ e.govMode pgGHEA = 1) ∧
    ((s.setFailed 0 1 true).failed 0 1 = true ∧ c.govRuns = true ∧ c.comet = some ct ∧ ct.spare < 9) ∧
    (s.powered 15 = true ∧ s.frozen none = false ∧ s.trained = true ∧ s.flag F.GHEA.SCRUB_CFG.EN = true ∧ s.inDram 0x2000 64 = true ∧
      (s.keyByte 2).getLsbD 6 = false ∧ s.flag F.GHEA.RETIRE_REQ.VALID = false) ∧
    (f.writable ward R.GHEA.RETIRE_CTRL = true ∧ f.flag F.GHEA.RETIRE_REQ.VALID = true ∧ f.retired.length < 256 ∧
      f.get F.GHEA.RETIRE_REQ.FRAME = 500 ∧ 500 ∉ f.retired ∧ f.retireQ = [] ∧ f.keyed (500 * 4096) = true ∧
      f.writable ward R.GHEA.LIST_CLEAR = true) ∧
    ((w.jslot 0).cart = some cart0 ∧ w.crtState 0 = 4 ∧ w.govMode pgGWEA = 1 ∧ w.get F.GWEA.ROLL_DAYS.DAYS = 0) ∧
    (s.writable ward R.GOV.UPD_CTRL = true ∧ reqSup ward = true ∧ u.get F.GOV.UPD_STATUS.STATE = 1 ∧ u.govRuns = true ∧
      u.writable ward R.GOV.UPD_CTRL = true) := by
  decide +kernel

/-- A committed half `h` whose header is in order: 128 bytes of body at 0x2000, `n` entries of its table there, boot key 0. -/
def withHalf (s : State) (h n : Nat) : State :=
  (s.setBytes (halfBase h) ([0x52, 0x49, 0x4D, 0x47, 1, 0, 0, 0] ++ leBytes 4 3 ++ leBytes 4 128 ++ leBytes 5 0x2000 ++ leBytes 3 0x2000 ++
    leBytes 2 n ++ leBytes 3 0x2000)).setBytes (halfBase h + 4092) [0x43, 0x4D, 0x49, 0x54]

theorem witness_PowerAndBoot :
    let s := { base with boot := .done }
    let r := withHalf { base with boot := .rom } 0 0
    let g := withHalf { base with boot := .config, bootHalf := 0, cfgNext := 0 } 0
    let w := (withHalf { base with boot := .config, bootHalf := 0, trained := false } 0 1).setBytes 0xFE00002000
      (leBytes 5 R.GPWR.BUDGET ++ leBytes 5 20000)
    let p := ((served.put F.CPR.PD_CTRL.ON 0xFFFFF).put (F.HDR.PG_CTRL.ENABLE (pgClu 7)) 0)
    let d := (p.put F.CPR.PD_STATUS.POWERED 0xFFDFF)
    let j : CstJob := { commit := false, half := 1, src := 0x4000, flash := false, dst := 0x2000, len := 128 }
    let l := s.put F.CPR.CLK_STATUS.HOLDOVER 1
    (s.stopped = false ∧ (∀ k : Fin 5, ({ s with boot := [Boot.pll, .again, .pcie, .train, .recovery].getD k.val .done }).stopped = false) ∧
      ({ s with boot := .warm }).journalSettled = true ∧ ({ journal (some { batch0 with close := some 0 }) cart0 with boot := .warm }).journalSettled = false ∧
      s.cst = none ∧ r.boot = .rom ∧ r.get F.CPR.STRAPS.BOOTSRC = 0) ∧
    (r.candidate 0 = true ∧ r.candidate 1 = false ∧ r.imageCheck (r.halfImg 0) ≠ 0 ∧ r.flag F.SEC.BOOT_STATUS.ENFORCE = false ∧
      s.candidate 0 = false ∧ s.candidate 1 = false ∧ headerOk s.flashImg = false) ∧
    ((g 0).frozen none = false ∧ (g 0).cfgCount ≤ (g 0).cfgNext ∧ w.cfgCount = w.cfgNext + 1 ∧ w.trained = false ∧
      (w.cfgEntry 0).zero = true ∧ (w.cfgEntry 0).op = 0 ∧ (w.cfgEntry 0).addr = R.GPWR.BUDGET ∧
      w.writable (.ctx 0x200 3) R.GPWR.BUDGET = true ∧ (w.cfgEntry 0).value = 20000) ∧
    (s.get F.DBG.ECL_STATUS.STATE ≠ 1 ∧ s.writable ward R.CPR.RST_CTRL = true ∧ s.boot = .done) ∧
    (s.flag F.CPR.CLK_STATUS.LOCKED = true ∧ s.flag F.CPR.CLK_STATUS.HOLDOVER = false ∧ l.flag F.CPR.CLK_STATUS.HOLDOVER = true) ∧
    (p.writable ward R.CPR.PD_CTRL = true ∧ reqSup ward = true ∧ pdSwitched 9 = true ∧ p.pdIdle 9 = true ∧
      (∀ k : Fin 20, (bitOf (p.get F.CPR.PD_CTRL.ON) k.val != bitOf 0xFFDFF k.val) = (k == 9))) ∧
    (bitOf (d.get F.CPR.PD_CTRL.ON) 9 = true ∧ d.powered 9 = false ∧ d.boot = .done ∧ d.stopped = false) ∧
    (s.writable ward R.CST.WR_CTRL = true ∧ s.flag (halfRunning 1) = false ∧ s.get F.GOV.UPD_STATUS.STATE ≠ 1 ∧
      s.flag F.CST.WR_STATUS.BUSY = false ∧ s.live pgCST = true ∧ j.half < 2 ∧ j.dst + j.len ≤ 0x1000000) ∧
    (s.boot ≠ .hold ∧ ({ s with stopped := true }).flag F.CPR.RST_CAUSE.LG_DONE = false) := by
  decide +kernel

theorem witness_EclipseAndDebug :
    let s := served.put F.DBG.ECL_CFG.PIN_EN 1
    let f := s.put F.DBG.ECL_STATUS.STATE 1
    let w := { s with eclWait := some (0, 2) }
    let p := { s.put F.DBG.ECL_STATUS.STATE 2 with eclPart := some 0 }
    let o := s.put F.DBG.AUTH.TAP_OPEN 1
    let d := o.setReg R.DBG.DUMP_SEL 1
    let rd : List Byte := List.replicate 16 7
    let t := { ((s.put F.DBG.TR_SIZE.LOG2 12).put F.DBG.TR_BASE.BASE 9).put F.DBG.TR_CTRL.EN 1 with traceq := [rd] }
    (s.flag F.DBG.ECL_CFG.PIN_EN = true ∧ s.get F.DBG.ECL_STATUS.STATE ≠ 1 ∧ s.eclWait = none ∧ s.stopped = false ∧ s.writable ward R.DBG.ECL_CTRL = true ∧
      s.enabled (pgClu 0) = true ∧ s.powered 2 = true ∧ f.get F.DBG.ECL_STATUS.STATE = 1 ∧ f.flag F.DBG.ECL_CFG.PIN_EN = true) ∧
    (w.eclWait = some (0, 2) ∧ w.flag F.DBG.ECL_CFG.REC_EN = false ∧ w.inval = [] ∧ w.ue = [] ∧ w.readsLanded 0 = true ∧ w.regionOf 7 0x4000 = .dram ∧ w.get F.DBG.ECL_STATUS.STATE ≠ 1) ∧
    (s.heldReset = none ∧ s.cometBack = none ∧ reqWarden ward = true ∧ p.eclPart = some 0 ∧
      p.get F.DBG.ECL_STATUS.STATE ≠ 1 ∧ p.writable ward R.DBG.ECL_CTRL = true) ∧
    (o.tapOpen = true ∧ o.dbgDue = false ∧ (o.put F.DBG.ECL_STATUS.STATE 1).tapOpen = true ∧ ((s.put F.SEC.BOOT_STATUS.ENFORCE 1).put
      F.DBG.AUTH.TAP_OPEN 0).tapOpen = false) ∧
    (bitOf (getF (d.reg R.DBG.DUMP_SEL) 0 3) 0 = true ∧ d.powered (domainOf pgSYS) = true ∧ (rowOf .sys (8 * 8)).isSome = true ∧
      o.gate .engine .dbg R.DBG.TR_BASE false = .pass ∧ o.writable .engine R.DBG.TR_BASE = true ∧
      R.DBG.TR_BASE = pgDBG + 8 * (BitVec.ofNat 8 ((R.DBG.TR_BASE - pgDBG) / 8)).toNat) ∧
    (p.reaches ward R.DBG.PDUMP_DATA = true ∧ p.powered 0 = true ∧ p.gate ward .dbg R.DBG.PDUMP_DATA false = .pass ∧ s.writable ward R.DBG.SKIP = true ∧
      validCid 7 = true) ∧
    (t.traceRuns = true ∧ rd.length = 16 ∧ t.get F.DBG.TR_PTR.BYTES + 16 ≤ 2 ^ 12 ∧ t.traceSince < 65535 ∧ t.traceLost = 0 ∧
      t.traceOwed = false ∧ t.get F.DBG.TR_SIZE.LOG2 = 12) ∧
    (s.writable ward R.DBG.TR_CTRL = true ∧ s.flag F.DBG.TR_CTRL.EN = false) := by
  decide +kernel

theorem witness_StepRunsFront : ({ base with pending := [.nop 0, .lpop 0] }).pending = [.nop 0, .lpop 0] ∧ base.pending = [] := by decide +kernel

theorem witness_EveryStepKeepsMemoryForm :
    Memory.wf State.reset.mem = true ∧ Memory.wf (queued 3).mem = true ∧ (match step State.reset with | .next _ => true | _ => false) = true := by decide +kernel

theorem witness_EncodeDecode : (Instr.wellFormed (.nop 5)) = true ∧ (Instr.issuer (.nop 5)) = some 5 ∧ wordOf (.nop 5) = some 0x1F00000000 ∧
    validCid 5 = true ∧ decodeWord 5 0x1F00000000 = some (.nop 5) := by decide +kernel

theorem witness_LockedPages :
    let a : Word := BitVec.ofNat 40 R.TLY.TICKET_LIMIT
    let s := served.put (F.HDR.PG_LOCK.LOCK (pageBase a.toNat)) 1
    a.toNat % 8 = 0 ∧ pageOf a.toNat = some .tly ∧ inWindow a.toNat = false ∧ s.flag (F.HDR.PG_LOCK.LOCK (pageBase a.toNat)) = true ∧
    reqWarden sup = false ∧ a.toNat % 4096 ≠ 0x20 ∧ a.toNat % 4096 ≠ 0x30 ∧ s.dbgDue = false ∧ s.canReach sup = true ∧ s.reaches sup a.toNat = true ∧
    s.powered (domainOf (pageBase a.toNat)) = true ∧ s.region a.toNat = .control ∧ 2 ≤ s.reqRight sup (s.get (F.HDR.PG_LOCK.KEY (pageBase a.toNat))) ∧
    s.pageHeld (pageBase a.toNat) = false ∧ (rowOf .tly (a.toNat % 4096)).isSome = true ∧
    (let h : Word := BitVec.ofNat 40 (R.HDR.PG_INT_STATUS (pageBase a.toNat))
     h.toNat % 8 = 0 ∧ pageOf h.toNat = some .tly ∧ inWindow h.toNat = false ∧ h.toNat % 4096 = 0x20 ∧ pageBase h.toNat = pageBase a.toNat ∧
      s.region h.toNat = .control) := by
  decide +kernel

theorem witness_ResetState : isWardenCid 0x200 = true ∧ isWardenCid 0 = false ∧ validCid 0 = true ∧ (0 : Cid) ≠ 0x200 := by decide +kernel

/-! ### Ill-formed commands are refused -/

theorem smoke_no_such_context : (Instr.nop 0xFFF).wellFormed = false ∧ (Instr.nop 0x219).wellFormed = true ∧ (Instr.nop 0x21A).wellFormed = false := by decide +kernel

theorem smoke_condition_without_mnemonic : (Instr.bd 0 6 0 0).wellFormed = false ∧ (Instr.bd 0 5 0 0).wellFormed = true := by decide +kernel

theorem smoke_lengths : (Instr.hostAccess 0 4 (some [1, 2, 3])).wellFormed = false ∧ (Instr.hostBar2Access 0 2 (some [1])).wellFormed = false ∧
    (Instr.outboundAccess 0 1 (some []) (.ok [])).wellFormed = false ∧ (Instr.inboundMemoryRequest 0 1 (some [])).wellFormed = false ∧
    (Instr.hostAccess 0 4 (some [1, 2, 3, 4])).wellFormed = true := by decide +kernel

theorem smoke_cartridge : (Instr.presenceDebounced 0 (some { cart0 with pages := [(0, page0 1)] })).wellFormed = false ∧
    (Instr.presenceDebounced 0 (some cart0)).wellFormed = true := by decide +kernel

theorem smoke_collector_channel : (Instr.collectorPeriod [(64, [true])]).wellFormed = false ∧
    (Instr.collectorPeriod [(63, [true])]).wellFormed = true := by decide +kernel

theorem smoke_can_frame :
    let f : CanFrame := { id := 5, ide := false, fdf := false, brs := false, esi := false, rtr := false, len := 2, data := [1, 2] }
    (Instr.canRxFrame 0 (.frame { f with len := 9, data := List.replicate 9 1#8 })).wellFormed = false ∧
    (Instr.canRxFrame 0 (.frame { f with id := 0x800 })).wellFormed = false ∧ (Instr.canRxFrame 0 (.frame f)).wellFormed = true := by decide +kernel

theorem smoke_packet : (Instr.ack 0 (pkt 1 [] [])).wellFormed = false ∧
    (Instr.ixlPacketRx 0 (pkt 0x70 (List.replicate 8 0#8) [1]) true).wellFormed = false ∧
    (Instr.ack 0 (pkt 1 (List.replicate 8 0#8) [])).wellFormed = true := by decide +kernel

theorem smoke_requester : (Instr.registerWrite (.ctx 0xFFF 3) 0 0).wellFormed = false ∧ (Instr.ctxStart sup 0xFFF).wellFormed = false ∧
    (Instr.longOpLands 0xFFF).wellFormed = false ∧ (Instr.ctxHalt sup 0).wellFormed = true := by decide +kernel

/-! ### Words of the spec's examples (R118 and the encoding rule of each group) -/

theorem test_words_moves_and_branches : decodeWord 5 0x3905001299 = some (.movi 5 5 0x01299) ∧ decodeWord 5 0x3915099999 = some (.movhi 5 5 0x99999) ∧
    decodeWord 5 0x1010000005 = some (.bc 5 1 5) ∧ decodeWord 5 0x1020FFFFF9 = some (.bc 5 2 0xFFFFF9) ∧ decodeWord 5 0x1604000000 = some (.retw 5) ∧
    decodeWord 5 0x333FFFFFF8 = some (.stw 5 3 15 (.pre 0x3FFFF8)) ∧ decodeWord 5 0x263F800008 = some (.ldw 5 3 15 (.post 8) false) ∧
    decodeWord 5 0x264257000C = some (.ldw 5 4 2 (.indexed 5 3 0xC) false) := by decide +kernel

theorem test_words_arithmetic : decodeWord 5 0x8004023000 = some (.dmul 5 2 3) ∧ decodeWord 5 0x8100700003 = some (.dprs 5 7 0 3) ∧
    decodeWord 5 0x6000002001 = some (.dadd 5 0 0 2 true) ∧ decodeWord 5 0x6106600001 = some (.daddi 5 6 6 1) ∧
    decodeWord 5 0x6400320003 = some (.ldpk 5 3 2 3 false) ∧ decodeWord 5 0x8301040000 = some (.ddstep 5 4) ∧
    decodeWord 5 0x9301420002 = some (.ddtf 5 4 2 2) ∧ decodeWord 5 0x9203846000 = some (.dfdiv 5 8 4 6 0) ∧
    decodeWord 5 0x9300A80502 = some (.dftod 5 10 8 5 2) := by decide +kernel

theorem test_words_strings_and_system : decodeWord 5 0xA305123456 = some (.dmls 5 1 2 3 4 5 6) ∧ decodeWord 5 0xA100123400 = some (.edt 5 1 2 3 4) ∧
    decodeWord 5 0xA101123456 = some (.edm 5 1 2 3 4 5 6) ∧ decodeWord 5 0xC00080300C = some (.loop 5 (.imm 0xC) 3) ∧
    decodeWord 5 0xE20004001A = some (.mtbtr 5 4 0x1A) ∧ decodeWord 5 0xE300060000 = some (.setkr 5 6) ∧
    decodeWord 5 0xE301034007 = some (.setfk 5 3 4 7) ∧ decodeWord 5 0xE303230001 = some (.clrfr 5 2 3 1) := by decide +kernel

theorem test_words_tally_and_queues : decodeWord 5 0xD001812300 = some (.postT 5 8 1 2 3 false) ∧
    decodeWord 5 0xD004812304 = some (.postl 5 8 1 2 3 4 false) ∧ decodeWord 5 0xD102080000 = some (.waitt 5 8) ∧
    decodeWord 5 0xD104A80000 = some (.tkrd 5 10 8) ∧ decodeWord 5 0xD101460000 = some (.preadc 5 0 4 6) ∧ decodeWord 5 0xD201000000 = some (.pcut 5 0) ∧
    decodeWord 5 0xD300296000 = some (.enq 5 2 9 6) ∧ decodeWord 5 0xD301215000 = some (.deq 5 2 1 5) ∧ decodeWord 5 0xD302100000 = some (.waitq 5 1) ∧
    decodeWord 5 0xD303310000 = some (.qcnt 5 3 1) := by decide +kernel

/-- Unassigned words take vector 1 and are no instruction (R121): all ones, and MOVD with a bit of RB set. -/
theorem test_words_unassigned : decodeWord 5 0xFFFFFFFFFF = none ∧ decodeWord 5 0x3800123000 = none := by decide +kernel

/-! ### Worked examples of the spec, one step each -/

/-- What a field of the next state is. -/
def after (i : Instr) (s : State) (f : State → Nat) : Option Nat :=
  match exec i s with
  | .next t => some (f t)
  | _ => none

/-- R127: a BEQ at slot 9 of 0x0001234540 with +5 goes to slot 2 of the next line, a BNE with −7 to slot 2 of its own. -/
theorem test_branch_slots :
    let s := base.modCx 0 (fun x => { x with pc := 0x1234549, sr := setBit x.sr 2 true })
    after (.bc 0 1 5) s (fun t => (t.cx 0).pc.toNat) = some 0x1234582 ∧
    after (.bc 0 2 0xFFFFF9) (base.modCx 0 (fun x => { x with pc := 0x1234549 })) (fun t => (t.cx 0).pc.toNat) = some 0x1234542 := by decide +kernel

/-- R137: −12.99 is made by MOVI and MOVHI. -/
theorem test_movi_movhi : after (.movi 0 5 0x98701) base (fun t => t.dv 0 5) = some 0xFFFFF98701 ∧
    after (.movhi 0 5 0x99999) (base.setD 0 5 0xFFFFF98701) (fun t => t.dv 0 5) = some 0x9999998701 := by decide +kernel

/-- R134: STW D3, [A15 − 8]! moves A15 down by 8. -/
theorem test_push : after (.stw 0 3 15 (.pre 0x3FFFF8)) (base.setA 0 15 0x10000) (fun t => (t.av 0 15).toNat) = some 0xFFF8 := by decide +kernel

/-- R146: +49,999,999.99 plus +0.01 in one word is 5000000000 with DV 1. -/
theorem test_dadd_overflow :
    let s := (base.setD 0 0 0x4999999999).setD 0 2 1
    after (.dadd 0 0 0 2 false) s (fun t => t.dv 0 0) = some 0x5000000000 := by decide +kernel

/-- R161: LDPK of 00 19 9C is +1.99; of 00 19 9B it changes no register. -/
theorem test_ldpk :
    let s := (base.setA 0 2 0x4000).setBytes 0x4000 [0x00, 0x19, 0x9C]
    after (.ldpk 0 3 2 3 false) s (fun t => t.dv 0 3) = some 0x199 ∧
    after (.ldpk 0 3 2 3 false) ((s.setD 0 3 7).setByte 0x4002 0x9B) (fun t => t.dv 0 3) = some 7 := by decide +kernel

/-- R166, R168: 1.236 kg at 1.99 a kilogram: the product 245964, shifted by 3 half-up, is 2.46. -/
theorem test_dprs :
    let s := base.modCx 0 (fun x => { x with pl := 0x245964 })
    after (.dprs 0 7 0 3) s (fun t => t.dv 0 7) = some 0x246 := by decide +kernel

/-- R64, R66: 12.34 as decimal64 is 0x2230000000000534, in the pair D4:D5. -/
theorem test_ddtf : after (.ddtf 0 4 2 2) (base.setD 0 2 0x1234) (fun t => t.dv 0 4 * 2 ^ 40 + t.dv 0 5) = some (0x223000 * 2 ^ 40 + 0x534) := by
  decide +kernel

end Sys2Proof.Tests
end

section
/-! Locked pages (R38): which refusal of R727 a write to a locked page meets, what a refused write leaves unchanged, and the
clear of PG_INT_STATUS (R41) that the lock lets through. -/

namespace Sys2Proof.Machine

/-! ### A recorded error touches two registers of its page -/

@[simp] theorem State.pageErr_mem (s : State) (p code off : Nat) (r : Requester) (wr : Bool) :
    (s.pageErr p code off r wr).mem = s.mem := by
  unfold State.pageErr; split <;> rfl

@[simp] theorem State.pageErr_ctx (s : State) (p code off : Nat) (r : Requester) (wr : Bool) :
    (s.pageErr p code off r wr).ctx = s.ctx := by
  unfold State.pageErr; split <;> rfl

@[simp] theorem State.pageErr_pending (s : State) (p code off : Nat) (r : Requester) (wr : Bool) :
    (s.pageErr p code off r wr).pending = s.pending := by
  unfold State.pageErr; split <;> rfl

theorem State.reg_pageErr_ne (s : State) (p code off : Nat) (r : Requester) (wr : Bool) (b : Nat)
    (hi : b ≠ R.HDR.PG_INT_STATUS p) (he : b ≠ R.HDR.PG_ERR_SYNDROME p) : (s.pageErr p code off r wr).reg b = s.reg b := by
  unfold State.pageErr
  split
  · exact s.reg_put_ne (F.HDR.PG_ERR_SYNDROME.OVF p) _ b he.symm
  · rw [State.reg_put_ne _ (F.HDR.PG_INT_STATUS.ERR p) _ b hi.symm, s.reg_setReg_ne _ b _ he.symm]

/-! ### The clear of PG_INT_STATUS -/

theorem State.clearInt_intStatus (s : State) (p : Nat) (v : Word) :
    (s.clearInt p v).reg (R.HDR.PG_INT_STATUS p) = s.reg (R.HDR.PG_INT_STATUS p) &&& ~~~v := by
  have hne : (F.HDR.PG_ERR_SYNDROME.OVF p).addr ≠ R.HDR.PG_INT_STATUS p := by
    simp [F.HDR.PG_ERR_SYNDROME.OVF, R.HDR.PG_ERR_SYNDROME, R.HDR.PG_INT_STATUS]
  unfold State.clearInt
  split
  · rw [State.reg_put_ne _ _ _ _ hne, State.reg_setReg_same]
  · exact State.reg_setReg_same _ _ _

/-- A value that clears bit 0 of a register clears the one-bit field there. -/
theorem getF_zero_andNot (w v : Word) (h : v.getLsbD 0 = true) : getF (w &&& ~~~v) 0 1 = 0 := by
  have hbit : (w &&& ~~~v).toNat.testBit 0 = false := by
    change (w &&& ~~~v).getLsbD 0 = false
    simp [h]
  rw [Nat.testBit_zero, decide_eq_false_iff_not] at hbit
  rw [getF_eq]
  omega

theorem State.clearInt_err (s : State) (p : Nat) (v : Word) (h : v.getLsbD 0 = true) :
    (s.clearInt p v).flag (F.HDR.PG_INT_STATUS.ERR p) = false := by
  have h0 : (s.clearInt p v).get (F.HDR.PG_INT_STATUS.ERR p) = 0 := by
    simp only [State.get, F.HDR.PG_INT_STATUS.ERR, State.clearInt_intStatus, getF_zero_andNot _ _ h]
  simp [State.flag, h0]

theorem State.clearInt_ovf (s : State) (p : Nat) (v : Word) (h : v.getLsbD 0 = true) :
    (s.clearInt p v).flag (F.HDR.PG_ERR_SYNDROME.OVF p) = false := by
  have hfit : (F.HDR.PG_ERR_SYNDROME.OVF p).lo + (F.HDR.PG_ERR_SYNDROME.OVF p).len ≤ 40 := by simp [F.HDR.PG_ERR_SYNDROME.OVF]
  simp [State.flag, State.clearInt, h, State.get_put_same _ _ _ hfit]

/-! ### The tests of R727 on a locked page -/

/-- The code of the first test of R727 that refuses a write to a locked page by other than a warden context. -/
def State.lockedCode (s : State) (r : Requester) (k : PageKind) (a : Nat) : Nat :=
  if r = .host ∧ s.reqRight r (s.get (F.HDR.PG_LOCK.KEY (pageBase a))) < 2 then 8
  else if s.pageHeld (pageBase a) then 6
  else match rowOf k (a % 4096) with
    | none => 4
    | some row => if row.expert && !s.flag (F.HDR.PG_CTRL.EXPERT (pageBase a)) then 1 else 2

theorem State.lockedCode_lt (s : State) (r : Requester) (k : PageKind) (a : Nat) : s.lockedCode r k a < 256 := by
  unfold State.lockedCode
  repeat' split
  all_goals decide

/-- R38: but for the two re-armable registers, no write of a locked page passes, unless a warden context makes it. -/
theorem State.gate_locked (s : State) (r : Requester) (k : PageKind) (a : Nat) (hl : s.flag (F.HDR.PG_LOCK.LOCK (pageBase a)) = true)
    (hr : reqWarden r = false) (h20 : a % 4096 ≠ 0x20) (h30 : a % 4096 ≠ 0x30) :
    s.gate r k a true = .refuse (some (s.lockedCode r k a)) := by
  simp only [State.gate, State.lockedCode, if_true, Bool.true_or, Bool.and_true, hl, hr, Bool.not_false,
    bne_iff_ne.mpr h20, bne_iff_ne.mpr h30]
  by_cases hkey : r = .host ∧ s.reqRight r (s.get (F.HDR.PG_LOCK.KEY (pageBase a))) < 2
  · rw [if_pos hkey, if_pos hkey]
  · rw [if_neg hkey, if_neg hkey]
    by_cases hheld : s.pageHeld (pageBase a) = true
    · rw [if_pos hheld, if_pos hheld]
    · rw [if_neg hheld, if_neg hheld]
      cases rowOf k (a % 4096) with
      | none => rfl
      | some row => exact (apply_ite (fun c => GateRes.refuse (some c)) _ 1 2).symm

/-- PG_INT_STATUS is a basic register of every page. -/
theorem rowOf_intStatus (k : PageKind) : ∃ row, rowOf k 0x20 = some row ∧ row.expert = false := by
  simp [rowOf, rowsHdr, rowAt]

/-- R38: a write of PG_INT_STATUS by a requester with the page's key passes, locked page or not, while the page is not held. -/
theorem State.gate_intStatus (s : State) (r : Requester) (k : PageKind) (a : Nat) (ho : a % 4096 = 0x20)
    (hk : 2 ≤ s.reqRight r (s.get (F.HDR.PG_LOCK.KEY (pageBase a)))) (hh : s.pageHeld (pageBase a) = false) :
    s.gate r k a true = .pass := by
  obtain ⟨row, hrow, hbasic⟩ := rowOf_intStatus k
  have hkey : ¬ (r = .host ∧ s.reqRight r (s.get (F.HDR.PG_LOCK.KEY (pageBase a))) < 2) := fun hlow => absurd hk (Nat.not_le.mpr hlow.2)
  simp only [State.gate, if_true, if_neg hkey, hh, Bool.false_and, Bool.false_eq_true, if_false, ho, hrow, hbasic, bne_self_eq_false,
    Bool.and_false]

/-! ### A register write that meets those tests -/

/-- Every page lies in control space. -/
theorem inControl_of_pageOf {a : Nat} {k : PageKind} (hp : pageOf a = some k) : inControl a = true := by
  unfold pageOf at hp
  dsimp only at hp
  split at hp
  · cases hp
  · next hlow =>
    split at hp
    · next hidx =>
      simp only [ctlBase] at hlow hidx
      simp only [inControl, Bool.and_eq_true, decide_eq_true_eq]
      omega
    · cases hp

/-- An aligned register write on a page is the requester's access, host or not. -/
theorem exec_registerWrite_page (s : State) (r : Requester) (a v : Word) (k : PageKind) (h8 : a.toNat % 8 = 0) (hp : pageOf a.toNat = some k) :
    exec (.registerWrite r a v) s = .next (s.regWrite r a.toNat v) := by
  have hno : ¬ (r = .host ∧ a.toNat % 8 ≠ 0) := fun h => h.2 h8
  change execRegisterWrite r a v s = _
  cases hc : s.canReach r with
  | false => simp [execRegisterWrite, State.regWrite, hc]
  | true => simp [execRegisterWrite, inControl_of_pageOf hp, hno, hc]

theorem State.regWrite_unreached (s : State) (r : Requester) (a : Nat) (v : Word) (h : s.canReach r = false) : s.regWrite r a v = s := by
  simp [State.regWrite, h]

theorem State.reaches_aligned {s : State} {r : Requester} {a : Nat} (h : s.reaches r a = true) : a % 8 = 0 := by
  simp only [State.reaches, Bool.and_eq_true, decide_eq_true_eq] at h
  exact h.1.1.2

/-- A page whose power domain is off is not reached. -/
theorem State.regWrite_unpowered (s : State) (r : Requester) (a : Nat) (v : Word) (k : PageKind) (h : s.reaches r a = true)
    (hp : pageOf a = some k) (hw : inWindow a = false) (hd : s.powered (domainOf (pageBase a)) = false) : s.regWrite r a v = s := by
  rw [s.regWrite_reaches r a v h]
  simp [ctlWrite, ctlWriteWith, slotOf_aligned a (State.reaches_aligned h), hw, hp, hd]

/-- A write that a test of R727 refuses with a code records it on the page, and does no more. -/
theorem State.regWrite_refused (s : State) (r : Requester) (a c : Nat) (v : Word) (k : PageKind) (h : s.reaches r a = true)
    (hp : pageOf a = some k) (hw : inWindow a = false) (hd : s.powered (domainOf (pageBase a)) = true)
    (hg : s.gate r k a true = .refuse (some c)) : s.regWrite r a v = s.pageErr (pageBase a) c (a % 4096) r true := by
  rw [s.regWrite_reaches r a v h]
  simp [ctlWrite, ctlWriteWith, slotOf_aligned a (State.reaches_aligned h), hw, hp, hd, hg]

/-- A write that covers a register whole writes the value given. -/
theorem coverValue_allBits (row : RegRow) (old v : Word) : coverValue row old v allBits = v := by
  have hall : allBits = BitVec.allOnes 40 := by decide
  simp only [coverValue, hall, BitVec.and_allOnes, BitVec.not_allOnes, BitVec.and_zero, BitVec.zero_and, BitVec.or_zero]

/-- A write of PG_INT_STATUS that passes the tests clears the bits given. -/
theorem State.regWrite_intStatus (s : State) (r : Requester) (a : Nat) (v : Word) (k : PageKind) (h : s.reaches r a = true)
    (hp : pageOf a = some k) (hw : inWindow a = false) (hd : s.powered (domainOf (pageBase a)) = true) (ho : a % 4096 = 0x20)
    (hg : s.gate r k a true = .pass) : s.regWrite r a v = s.clearInt (pageBase a) (v &&& 0xFFFFFFFF) := by
  have h8 := State.reaches_aligned h
  obtain ⟨row, hrow, -⟩ := rowOf_intStatus k
  rw [s.regWrite_reaches r a v h]
  simp [ctlWrite, ctlWriteWith, slotOf_aligned a h8, State.errAt_aligned _ _ _ _ _ h8, hw, hp, hd, hg, ho, hrow, coverValue_allBits,
    State.writeHeader]

/-! ### The statement -/

/-- What a write to a locked page comes to: nothing, where the requester or the page cannot be reached, or else one recorded error. -/
theorem State.regWrite_locked (s : State) (r : Requester) (a : Nat) (v : Word) (k : PageKind) (hp : pageOf a = some k)
    (hw : inWindow a = false) (hl : s.flag (F.HDR.PG_LOCK.LOCK (pageBase a)) = true) (hr : reqWarden r = false)
    (hreach : s.canReach r = true → s.reaches r a = true) (h20 : a % 4096 ≠ 0x20) (h30 : a % 4096 ≠ 0x30) :
    s.regWrite r a v = if s.canReach r && s.powered (domainOf (pageBase a))
      then s.pageErr (pageBase a) (s.lockedCode r k a) (a % 4096) r true else s := by
  cases hc : s.canReach r with
  | false => simp [s.regWrite_unreached r a v hc]
  | true =>
    cases hd : s.powered (domainOf (pageBase a)) with
    | false => simp [s.regWrite_unpowered r a v k (hreach hc) hp hw hd]
    | true => simp [s.regWrite_refused r a _ v k (hreach hc) hp hw hd (s.gate_locked r k a hl hr h20 h30)]

/-- The code recorded, read off the tests in R727's order, where the page key lets the requester in. -/
theorem State.lockedCode_cases (s t : State) (r : Requester) (k : PageKind) (a : Nat)
    (hk : 2 ≤ s.reqRight r (s.get (F.HDR.PG_LOCK.KEY (pageBase a)))) (h : s.pageErrs t (pageBase a) (s.lockedCode r k a)) :
    if s.pageHeld (pageBase a) then s.pageErrs t (pageBase a) 6
    else (rowOf k (a % 4096) = none → s.pageErrs t (pageBase a) 4) ∧ ∀ row, rowOf k (a % 4096) = some row →
      if row.expert = true ∧ s.flag (F.HDR.PG_CTRL.EXPERT (pageBase a)) = false then s.pageErrs t (pageBase a) 1
      else s.pageErrs t (pageBase a) 2 := by
  have hkey : ¬ (r = .host ∧ s.reqRight r (s.get (F.HDR.PG_LOCK.KEY (pageBase a))) < 2) := fun hlow => absurd hk (Nat.not_le.mpr hlow.2)
  rw [State.lockedCode, if_neg hkey] at h
  split
  · next hheld => rwa [if_pos hheld] at h
  · next hheld =>
    rw [if_neg hheld] at h
    refine ⟨fun hrow => ?_, fun row hrow => ?_⟩
    · rwa [hrow] at h
    · rw [hrow] at h
      simp only [Bool.and_eq_true, Bool.not_eq_true'] at h
      rwa [apply_ite (s.pageErrs t (pageBase a))] at h

/-- Settles O60. The gate of R727 refuses every write of a locked page by other than a warden context, and a refused write records
one error; PG_INT_STATUS alone passes, and its write is the clear of R41. -/
theorem lockedPages : Obligations.LockedPages := by
  unfold Obligations.LockedPages
  intro s r a v k b
  dsimp only
  intro h8 hp hw hl hr _ hreach
  have hexec := exec_registerWrite_page s r a v k h8 hp
  constructor
  · intro h20 h30
    refine ⟨_, hexec, ?_⟩
    rw [s.regWrite_locked r a.toNat v k hp hw hl hr hreach h20 h30]
    split
    · refine ⟨by simp, by simp, by simp, s.reg_pageErr_ne _ _ _ _ _ b, fun ⟨_, _, _, hkey⟩ => ?_⟩
      exact s.lockedCode_cases _ r k a.toNat hkey (s.pageErrs_pageErr _ _ _ _ _ (s.lockedCode_lt r k a.toNat))
    · next hno => exact ⟨rfl, rfl, rfl, fun _ _ => rfl, fun ⟨hc, hd, _, _⟩ => absurd (by simp [hc, hd]) hno⟩
  · intro ho ⟨hc, hd, _, hkey⟩ hheld
    refine ⟨_, hexec, ?_⟩
    rw [s.regWrite_intStatus r a.toNat v k (hreach hc) hp hw hd ho (s.gate_intStatus r k a.toNat ho hkey hheld)]
    refine ⟨s.clearInt_intStatus _ _, fun h0 => ?_⟩
    have hbit : (v &&& 0xFFFFFFFF#40).getLsbD 0 = true := by simp [h0]
    exact ⟨s.clearInt_err _ _ hbit, s.clearInt_ovf _ _ hbit⟩

end Sys2Proof.Machine
end

section
/-! Compares (R145, R147): the flags that CMP, DCMP and DCMPI write, and the comparisons that the conditions of BC (R139) read
in them. -/

namespace Sys2Proof.Machine

/-! ### SR after a write of C, V, Z and N -/

theorem setBit_bit_same (w : Word) (i : Nat) (b : Bool) (hi : i < 40) : (setBit w i b).getLsbD i = b := by
  rw [setBit, putF_bit _ _ _ _ _ hi, if_pos (by omega)]
  cases b <;> simp [b2n]

theorem setBit_bit_ne (w : Word) (i j : Nat) (b : Bool) (h : j ≠ i) : (setBit w i b).getLsbD j = w.getLsbD j :=
  putF_bit_ne _ _ _ _ _ (by omega)

section
variable (sr : Word) (c v z n : Bool)

@[simp] theorem srC_setCVZN : srC (setCVZN sr c v z n) = c := by
  simp (disch := decide) only [srC, setCVZN, setBit_bit_same, setBit_bit_ne]
@[simp] theorem srV_setCVZN : srV (setCVZN sr c v z n) = v := by
  simp (disch := decide) only [srV, setCVZN, setBit_bit_same, setBit_bit_ne]
@[simp] theorem srZ_setCVZN : srZ (setCVZN sr c v z n) = z := by
  simp (disch := decide) only [srZ, setCVZN, setBit_bit_same, setBit_bit_ne]
@[simp] theorem srN_setCVZN : srN (setCVZN sr c v z n) = n := by
  simp (disch := decide) only [srN, setCVZN, setBit_bit_same]
@[simp] theorem srDC_setCVZN : srDC (setCVZN sr c v z n) = srDC sr := by
  simp (disch := decide) only [srDC, setCVZN, setBit_bit_ne]
@[simp] theorem srDV_setCVZN : srDV (setCVZN sr c v z n) = srDV sr := by
  simp (disch := decide) only [srDV, setCVZN, setBit_bit_ne]

end

/-! ### The conditions of BC that follow a compare (R139) -/

section
variable (sr : Word)

theorem condHolds_eq : condHolds sr 1 = srZ sr := rfl
theorem condHolds_ne : condHolds sr 2 = !srZ sr := rfl
theorem condHolds_hi : condHolds sr 9 = (srC sr && !srZ sr) := rfl
theorem condHolds_ls : condHolds sr 10 = (!srC sr || srZ sr) := rfl
theorem condHolds_ge : condHolds sr 11 = !(srN sr != srV sr) := (Bool.not_not _).symm
theorem condHolds_lt : condHolds sr 12 = (srN sr != srV sr) := rfl
theorem condHolds_gt : condHolds sr 13 = (!srZ sr && !(srN sr != srV sr)) :=
  congrArg (!srZ sr && ·) (Bool.not_not _).symm
theorem condHolds_le : condHolds sr 14 = (srZ sr || (srN sr != srV sr)) := rfl

end

/-! ### The flags of a binary compare -/

/-- The sign of a difference modulo 2P, corrected by its overflow, is that of the true difference. -/
theorem sign_ne_overflow_iff (P a b r : Nat) (sa sb : Int) (hr : r < 2 * P) (hs : r + b = a ∨ r + b = a + 2 * P)
    (hsa : (a < P ∧ sa = a) ∨ (P ≤ a ∧ sa = a - 2 * P)) (hsb : (b < P ∧ sb = b) ∨ (P ≤ b ∧ sb = b - 2 * P))
    (ha : a < 2 * P) (hb : b < 2 * P) :
    ¬ (P ≤ r ↔ ¬ (-(P : Int) ≤ sa - sb ∧ sa - sb < P)) ↔ sa < sb := by
  omega

/-- A difference formed as R150 says: exact, or a borrow of 2^W. -/
theorem sub_mod_cases (m a b : Nat) (ha : a < m) (hb : b < m) :
    (a + (m - 1 - b) + 1) % m + b = a ∨ (a + (m - 1 - b) + 1) % m + b = a + m := by
  rcases Nat.lt_or_ge a b with h | h
  · right; rw [Nat.mod_eq_of_lt (by omega)]; omega
  · left; rw [Nat.mod_eq_sub_mod (by omega), Nat.mod_eq_of_lt (by omega)]; omega

theorem sint_inj (k a b : Nat) (ha : a < 2 ^ (k + 1)) (hb : b < 2 ^ (k + 1)) : sint (k + 1) a = sint (k + 1) b ↔ a = b := by
  have hca := sint_cases k a ha
  have hcb := sint_cases k b hb
  omega

section
variable (k : Nat) (sr : Word) (a b : Nat) (ha : a < 2 ^ (k + 1)) (hb : b < 2 ^ (k + 1))

/-- C after CMP: no borrow. -/
theorem srC_cmp : srC (subSr (k + 1) sr a b 1) = decide (b ≤ a) := by simp [subSr]

include ha hb

theorem srZ_cmp : srZ (subSr (k + 1) sr a b 1) = decide (a = b) := by
  have hs := sub_mod_cases _ a b ha hb
  rw [subSr, srZ_setCVZN, Bool.eq_iff_iff, beq_iff_eq, decide_eq_true_eq]
  omega

/-- N and V after CMP differ where the true signed difference is negative. -/
theorem srN_ne_srV_cmp :
    (srN (subSr (k + 1) sr a b 1) != srV (subSr (k + 1) sr a b 1)) = decide (sint (k + 1) a < sint (k + 1) b) := by
  have hP : 2 ^ (k + 1) = 2 * 2 ^ k := by omega
  have hr := Nat.mod_lt (a + (2 ^ (k + 1) - 1 - b) + 1) (Nat.two_pow_pos (k + 1))
  have hs := sub_mod_cases _ a b ha hb
  have hd : sint (k + 1) a - sint (k + 1) b - 1 + ((1 : Nat) : Int) = sint (k + 1) a - sint (k + 1) b := by omega
  rw [subSr, srN_setCVZN, srV_setCVZN, hd, Bool.eq_iff_iff]
  simp only [inRange, Nat.add_sub_cancel, ← Bool.decide_and, ← decide_not, bne_iff_ne, ne_eq, decide_eq_decide, decide_eq_true_eq]
  exact sign_ne_overflow_iff (2 ^ k) a b _ _ _ (by omega) (by omega) (sint_cases k a ha) (sint_cases k b hb) (by omega) (by omega)

end

/-- The conditions of BC read in SR as the comparisons of two `w`-bit values. -/
def ReadsBinary (sr : Word) (w a b : Nat) : Prop :=
  condHolds sr 1 = decide (a = b) ∧ condHolds sr 2 = decide (a ≠ b) ∧ condHolds sr 9 = decide (b < a) ∧
  condHolds sr 10 = decide (a ≤ b) ∧ condHolds sr 11 = decide (sint w b ≤ sint w a) ∧
  condHolds sr 12 = decide (sint w a < sint w b) ∧ condHolds sr 13 = decide (sint w b < sint w a) ∧
  condHolds sr 14 = decide (sint w a ≤ sint w b)

theorem readsBinary_cmp (w : Nat) (hw : 0 < w) (sr : Word) (a b : Nat) (ha : a < 2 ^ w) (hb : b < 2 ^ w) :
    ReadsBinary (subSr w sr a b 1) w a b := by
  obtain ⟨k, rfl⟩ : ∃ k, w = k + 1 := ⟨w - 1, by omega⟩
  have hinj := sint_inj k a b ha hb
  simp only [ReadsBinary, condHolds_eq, condHolds_ne, condHolds_hi, condHolds_ls, condHolds_ge, condHolds_lt, condHolds_gt, condHolds_le,
    srC_cmp, srZ_cmp k sr a b ha hb, srN_ne_srV_cmp k sr a b ha hb, ← decide_not, ← Bool.decide_and, ← Bool.decide_or,
    decide_eq_decide, true_and]
  omega

/-! ### The flags of a decimal compare -/

/-- SR holds the flags of R147 for two signed values, with DC and DV as before, and all six conditions compare the values. -/
def ReadsDecimal (old sr : Word) (x y : Int) : Prop :=
  srZ sr = decide (x = y) ∧ srN sr = decide (x < y) ∧ srV sr = false ∧ srC sr = decide (y ≤ x) ∧
  srDC sr = srDC old ∧ srDV sr = srDV old ∧
  condHolds sr 9 = decide (y < x) ∧ condHolds sr 10 = decide (x ≤ y) ∧ condHolds sr 11 = decide (y ≤ x) ∧
  condHolds sr 12 = decide (x < y) ∧ condHolds sr 13 = decide (y < x) ∧ condHolds sr 14 = decide (x ≤ y)

theorem readsDecimal_flagsDcmp (sr : Word) (x y : Int) : ReadsDecimal sr (flagsDcmp sr x y) x y := by
  simp only [ReadsDecimal, flagsDcmp, condHolds_hi, condHolds_ls, condHolds_ge, condHolds_lt, condHolds_gt, condHolds_le, srC_setCVZN,
    srV_setCVZN, srZ_setCVZN, srN_setCVZN, srDC_setCVZN, srDV_setCVZN, Bool.bne_false, Bool.beq_eq_decide_eq, ← decide_not, ← Bool.decide_and,
    ← Bool.decide_or, decide_eq_decide, true_and]
  omega

/-! ### A decimal immediate extended to the register's digits (R157) -/

/-- Valid digits have a value that fits them. -/
theorem decFits_decVal (k v : Nat) (h : bcdOk (k + 1) v = true) : decFits (k + 1) (decVal (k + 1) v) = true := by
  have hlt := bcdVal_lt (k + 1) v h
  simp only [decFits, decVal, Nat.add_sub_cancel, Bool.and_eq_true, decide_eq_true_eq]
  split <;> omega

theorem decFits_mono {k m : Nat} (hkm : k ≤ m) {i : Int} (h : decFits (k + 1) i = true) : decFits (m + 1) i = true := by
  have hp : 10 ^ k ≤ 10 ^ m := Nat.pow_le_pow_right (by omega) hkm
  simp only [decFits, Nat.add_sub_cancel, Bool.and_eq_true, decide_eq_true_eq] at h ⊢
  omega

/-- A value that fits its digits reads back from them. -/
theorem decVal_decOf (k : Nat) (i : Int) (h : decFits (k + 1) i = true) : decVal (k + 1) (decOf (k + 1) i) = i := by
  have hp : 0 < 10 ^ k := Nat.pow_pos (by omega)
  simp only [decFits, Nat.add_sub_cancel, Bool.and_eq_true, decide_eq_true_eq] at h
  simp only [decVal, decOf, bcdVal_toBcd, Nat.add_sub_cancel]
  have hP : 10 ^ (k + 1) = 10 * 10 ^ k := by omega
  rw [hP]
  generalize 10 ^ k = P at *
  have hm : (0 ≤ i ∧ i % ((10 * P : Nat) : Int) = i) ∨ (i < 0 ∧ i % ((10 * P : Nat) : Int) = i + (10 * P : Nat)) := by
    rcases Int.lt_or_le i 0 with hi | hi
    · right; exact ⟨hi, by rw [← Int.add_emod_right, Int.emod_eq_of_lt (by omega) (by omega)]⟩
    · left; exact ⟨hi, Int.emod_eq_of_lt hi (by omega)⟩
  rw [Nat.mod_eq_of_lt (by omega)]
  split <;> omega

theorem State.digits_cases (s : State) (c : Cid) : s.digits c = 10 ∨ s.digits c = 20 := by
  unfold State.digits; split <;> simp

/-- R157: extended to the digits of a register, an immediate keeps its value. -/
theorem decVal_decImm (s : State) (c : Cid) (imm : BitVec 20) (h : bcdOk 5 imm.toNat = true) :
    decVal (s.digits c) (decImm (s.digits c) imm) = decVal 5 imm.toNat := by
  have hfit : ∀ m, 4 ≤ m → decFits (m + 1) (decVal 5 imm.toNat) = true := fun m hm => decFits_mono hm (decFits_decVal 4 _ h)
  rcases s.digits_cases c with hn | hn <;> rw [hn]
  · exact decVal_decOf 9 _ (hfit 9 (by omega))
  · exact decVal_decOf 19 _ (hfit 19 (by omega))

/-! ### The compares as instructions -/

theorem State.width_pos (s : State) (c : Cid) : 0 < s.width c := by
  rcases s.width_cases c with h | h <;> omega

/-- Without an overflow a decimal operation completes as any other. -/
theorem finishDv_false (s : State) (c : Cid) : finishDv c false s = finish c s := by
  simp only [finishDv, finish, Act.bind_apply, Act.get_apply]
  cases (s.cx c).finish <;> rfl

theorem State.dOpen_of_subset {s : State} {c : Cid} {ds es : List RegNo} (h : s.dOpen c es = true) (hsub : ds ⊆ es) :
    s.dOpen c ds = true := by
  simp only [State.dOpen, Bool.or_eq_true, List.all_eq_true, decide_eq_true_eq] at h ⊢
  exact h.imp_left fun hall n hn => hall n (hsub hn)

theorem decOk_ok (s : State) (c : Cid) (n v : Nat) (h : bcdOk n v = true) : decOk c n v s = .ok ((), s) := need_ok s c 9 _ h

/-- A decimal operation of two registers with valid digits that cannot overflow. -/
theorem decOp2_eq (s : State) (c : Cid) (wr : Option RegNo) (ra rb : RegNo) (f : Nat → Word → Nat → Nat → Nat × Word × Bool)
    (h : s.poised c = true) (hd : s.dOpen c (wr.toList ++ [ra, rb]) = true) (hva : bcdOk (s.digits c) (s.dv c ra) = true)
    (hvb : bcdOk (s.digits c) (s.dv c rb) = true) :
    let r := f (s.digits c) (s.cx c).sr (s.dv c ra) (s.dv c rb)
    r.2.2 = false → decOp2 c wr ra rb f s = finish c ((s.withD c wr r.1).withSr c r.2.1) := by
  intro r hdv
  have hp := State.poised_pend h
  rw [decOp2, Act.bind_ok (regs_ok s c _ hp hd), Act.bind_ok (flagsFree_ok s c hp), Act.bind_ok (Act.get_apply s),
    Act.bind_ok (decOk_ok s c _ _ hva), Act.bind_ok (decOk_ok s c _ _ hvb)]
  rw [hdv, ← finishDv_false]
  cases wr <;> rfl

/-- A decimal operation of one register with valid digits that cannot overflow. -/
theorem decOp1_eq (s : State) (c : Cid) (wr : Option RegNo) (ra : RegNo) (f : Nat → Word → Nat → Nat × Word × Bool)
    (h : s.poised c = true) (hd : s.dOpen c (wr.toList ++ [ra]) = true) (hva : bcdOk (s.digits c) (s.dv c ra) = true) :
    let r := f (s.digits c) (s.cx c).sr (s.dv c ra)
    r.2.2 = false → decOp1 c wr ra f s = finish c ((s.withD c wr r.1).withSr c r.2.1) := by
  intro r hdv
  have hp := State.poised_pend h
  rw [decOp1, Act.bind_ok (regs_ok s c _ hp hd), Act.bind_ok (flagsFree_ok s c hp), Act.bind_ok (Act.get_apply s),
    Act.bind_ok (decOk_ok s c _ _ hva)]
  rw [hdv, ← finishDv_false]
  cases wr <;> rfl

theorem exec_cmp (s : State) (c : Cid) (ra rb : RegNo) (h : s.poised c = true) (hd : s.dOpen c [ra, rb] = true) :
    exec (.cmp c ra rb) s = .next ((s.withSr c
      (subSr (s.width c) (s.cx c).sr (s.dv c ra % 2 ^ s.width c) (s.dv c rb % 2 ^ s.width c) 1)).retire c) := by
  rw [← flagsAdd_sub _ (s.width_cases c) _ _ _ 1 (by omega)]
  exact binOp2_run s c none ra rb (subFn true) h hd (by simp [subFn, addFn, flagsAdd]) (by simp [subFn, addFn, flagsAdd])

/-- A body that writes the flags of R147 and completes. -/
theorem runInstr_flagsDcmp (s : State) (c : Cid) (body : Act (Option Exc)) (x y : Int) (h : s.poised c = true)
    (hb : body s = finish c (s.withSr c (flagsDcmp (s.cx c).sr x y))) :
    runInstr c .plain body s = .next ((s.withSr c (flagsDcmp (s.cx c).sr x y)).retire c) :=
  runInstr_retire s _ c .plain body h hb (by simp [flagsDcmp, State.poised_rp h]) (by simp [flagsDcmp, State.poised_ld h])

theorem exec_dcmp (s : State) (c : Cid) (ra rb : RegNo) (h : s.poised c = true) (hd : s.dOpen c [ra, rb] = true)
    (hva : bcdOk (s.digits c) (s.dv c ra) = true) (hvb : bcdOk (s.digits c) (s.dv c rb) = true) :
    exec (.dcmp c ra rb) s = .next ((s.withSr c
      (flagsDcmp (s.cx c).sr (decVal (s.digits c) (s.dv c ra)) (decVal (s.digits c) (s.dv c rb)))).retire c) :=
  runInstr_flagsDcmp s c _ _ _ h (decOp2_eq s c none ra rb dcmpFn h hd hva hvb rfl)

theorem exec_dcmpi (s : State) (c : Cid) (ra : RegNo) (imm : BitVec 20) (h : s.poised c = true) (hd : s.dOpen c [ra] = true)
    (hva : bcdOk (s.digits c) (s.dv c ra) = true) (hvi : bcdOk 5 imm.toNat = true) :
    exec (.dcmpi c ra imm) s = .next ((s.withSr c
      (flagsDcmp (s.cx c).sr (decVal (s.digits c) (s.dv c ra)) (decVal 5 imm.toNat))).retire c) := by
  rw [← decVal_decImm s c imm hvi]
  refine runInstr_flagsDcmp s c _ _ _ h ?_
  rw [Act.bind_ok (need_ok s c 1 _ hvi)]
  exact decOp1_eq s c none ra (fun n sr a => dcmpFn n sr a (decImm n imm)) h hd hva rfl

theorem State.cx_retire_withSr_sr (s : State) (c : Cid) (sr : Word) : (((s.withSr c sr).retire c).cx c).sr = sr := by
  simp [Ctx.goto]

/-- Settles O3. Each compare retires with SR alone changed (`exec_cmp`, `exec_dcmp`, `exec_dcmpi`), and the flags it writes read as
the comparisons (`readsBinary_cmp`, `readsDecimal_flagsDcmp`). -/
theorem compareThenBranch : Obligations.CompareThenBranch := by
  unfold Obligations.CompareThenBranch
  intro s c ra rb imm h hd
  dsimp only
  refine ⟨⟨_, exec_cmp s c ra rb h hd, ?_⟩, fun hva => ⟨fun hvb => ⟨_, exec_dcmp s c ra rb h hd hva hvb, ?_⟩,
    fun hvi => ⟨_, exec_dcmpi s c ra imm h (State.dOpen_of_subset hd (by simp)) hva hvi, ?_⟩⟩⟩
  · simp only [State.cx_retire_withSr_sr]
    exact readsBinary_cmp _ (s.width_pos c) _ _ _ (Nat.mod_lt _ (Nat.two_pow_pos _)) (Nat.mod_lt _ (Nat.two_pow_pos _))
  · simp only [State.cx_retire_withSr_sr]
    exact readsDecimal_flagsDcmp _ _ _
  · simp only [State.cx_retire_withSr_sr]
    exact readsDecimal_flagsDcmp _ _ _

end Sys2Proof.Machine
end
